-- ==== Sys2Proof/Word.lean ====
section
/-! DEFINITION. The word types of the device and the index types of its units (spec/00 R1, spec/01 R12). -/

namespace Sys2Proof

/-- A byte: 8 bits (R1). -/
abbrev Byte := BitVec 8
/-- A word: 32 bits (R1). -/
abbrev W32 := BitVec 32
/-- A dword: 64 bits (R1). -/
abbrev W64 := BitVec 64
/-- A device virtual address: 48 bits (R59). -/
abbrev Addr := BitVec 48
/-- A sequencer register number, s0 to s31 (R88). -/
abbrev Reg := BitVec 5

/-- A context: 2 × global core id, plus 1 for the background context (R31, R91). -/
abbrev CtxId := Fin 384
/-- A global core id, cluster × 16 + core. -/
abbrev CoreId := Fin 192
/-- A launch queue (R353). -/
abbrev QId := Fin 64
/-- A partition (R356). -/
abbrev PartId := Fin 8
/-- A stream (R12). -/
abbrev StreamId := Fin 128
/-- A line processor of the device: 8 × mill + processor (R313). -/
abbrev ProcId := Fin 256
/-- A fuse rule (R339). -/
abbrev RuleId := Fin 64
/-- A Thrumol port (R266). -/
abbrev LinkId := Fin 2

/-- The core of a context. -/
def CtxId.core (c : CtxId) : Nat := c.val / 2
/-- True for the background context of its core. -/
def CtxId.bg (c : CtxId) : Bool := c.val % 2 == 1
/-- The cluster of a context's core. -/
def CtxId.cluster (c : CtxId) : Nat := c.val / 32

end Sys2Proof
end

