-- ==== Sys2Proof/Syntax.lean ====
section
/-! DEFINITION. The instructions and events of the device: one constructor for each row of the opcode table.

Two kinds of row stand in the table and in `Instr`. An INSTRUCTION carries the fields of its encoding (sequencer words of
R106 and R107, execute slots of R173, copy commands of R234, matrix commands of R268, alignment commands of R340,
line-processor words of R319). An EVENT is a step the device takes without an instruction; it carries what the outside
world or a free choice of the device supplies to it (which context, which queue, the packet that arrived). -/

namespace Sys2Proof

/-- Ordering scope (R108). -/
inductive Scope | core | clu | dev | sys
  deriving DecidableEq, Repr

/-- Access type: the eight TYPE codes 0 to 7 of R108. -/
inductive AccTy | i8 | i16 | i32 | i64 | n8 | n16 | n32 | n64
  deriving DecidableEq, Repr

/-- Plain loads and stores: `r` is the destination of a load and the data of a store (R112). -/
structure MemForm where
  ty : AccTy
  cls : BitVec 4
  r : Reg
  b : Reg
  off : W32
  deriving DecidableEq, Repr

/-- `ld.acq` and `st.rel` (R112, layout LA). -/
structure SyncForm where
  ty : AccTy
  scope : Scope
  r : Reg
  b : Reg
  mask : BitVec 16
  off : BitVec 16
  deriving DecidableEq, Repr

/-- `ld.sc` and `st.sc` (R112). -/
structure ScForm where
  ty : AccTy
  r : Reg
  b : Reg
  off : W32
  deriving DecidableEq, Repr

/-- `waitge` and `waiteq` (R112, layout LW). -/
structure WaitForm where
  ty : AccTy
  scope : Scope
  d : Reg
  b : Reg
  sv : Reg
  st : Reg
  off : BitVec 16
  deriving DecidableEq, Repr

/-- Atomics with a class and a scope (R112, layout LW). -/
structure AtmForm where
  ty : AccTy
  cls : BitVec 4
  scope : Scope
  d : Reg
  b : Reg
  v : Reg
  off : BitVec 16
  deriving DecidableEq, Repr

/-- Sequentially consistent atomics (R112, layout LW). -/
structure AtmScForm where
  ty : AccTy
  d : Reg
  b : Reg
  v : Reg
  off : BitVec 16
  deriving DecidableEq, Repr

/-- Template pushes (R112, layout LQ). -/
structure PushForm where
  a : Reg
  b : Reg
  c : Reg
  pmask : BitVec 4
  tidx : BitVec 16
  deriving DecidableEq, Repr

/-- Execute slot form V (R173). -/
structure VForm where
  q : BitVec 3
  d : BitVec 7
  a : BitVec 7
  b : BitVec 7
  x : Bool
  deriving DecidableEq, Repr

/-- Execute slot form I (R173). -/
structure IForm where
  q : BitVec 3
  d : BitVec 7
  a : BitVec 7
  imm : BitVec 7
  x : Bool
  deriving DecidableEq, Repr

/-- Execute slot form W (R173). -/
structure WForm where
  q : BitVec 3
  d : BitVec 7
  imm : BitVec 14
  x : Bool
  deriving DecidableEq, Repr

/-- Execute slot form L (R173). -/
structure LForm where
  lc : BitVec 2
  len : BitVec 10
  cnt : BitVec 9
  deriving DecidableEq, Repr

/-- The fields common to copy commands (R234). EXPECT joins EXPH and EXPL. -/
structure CpTail where
  dpool : Bool
  spool : Bool
  check : Bool
  chain : Bool
  ckm : BitVec 2
  ro : Bool
  cw : Bool
  expect : W32
  cval : BitVec 16
  caddr : Addr
  deriving DecidableEq, Repr

/-- `pat` (R235). -/
structure PatForm where
  slot : BitVec 3
  runM1 : BitVec 16
  c1M1 : BitVec 16
  c2M1 : BitVec 16
  c3M1 : BitVec 16
  s1 : W32
  s2 : W32
  s3 : W32
  deriving DecidableEq, Repr

/-- `copy` (R235). -/
structure CopyForm where
  len : W32
  cvt : Bool
  dfmt : BitVec 5
  sfmt : BitVec 5
  src : Addr
  dst : Addr
  t : CpTail
  deriving DecidableEq, Repr

/-- `copya` (R235). -/
structure CopyaForm where
  dpat : BitVec 3
  spat : BitVec 3
  cvt : Bool
  dfmt : BitVec 5
  sfmt : BitVec 5
  src : Addr
  dst : Addr
  t : CpTail
  deriving DecidableEq, Repr

/-- `gather` and `scatter` (R235). -/
structure GatherForm where
  idx : BitVec 20
  countM1 : BitVec 12
  rlenM1 : BitVec 16
  src : Addr
  dst : Addr
  t : CpTail
  deriving DecidableEq, Repr

/-- `fill` (R235). -/
structure FillForm where
  len : W32
  patv : W64
  dst : Addr
  t : CpTail
  deriving DecidableEq, Repr

/-- `bind` (R235). -/
structure BindForm where
  buf : BitVec 12
  depthM1 : BitVec 4
  efmt : BitVec 5
  raw : Bool
  pat : BitVec 3
  out : Bool
  port : BitVec 4
  addr : Addr
  ops : W32
  t : CpTail
  deriving DecidableEq, Repr

/-- `unpack` (R235). -/
structure UnpackForm where
  maxo : W32
  rmax : BitVec 4
  fbuf : BitVec 8
  src : Addr
  dst : Addr
  t : CpTail
  deriving DecidableEq, Repr

/-- `cbld` (R235). -/
structure CbldForm where
  count : BitVec 9
  side : Bool
  bank : BitVec 2
  src : Addr
  t : CpTail
  deriving DecidableEq, Repr

/-- `itld` (R235). -/
structure ItldForm where
  count : BitVec 9
  table : BitVec 2
  src : Addr
  t : CpTail
  deriving DecidableEq, Repr

/-- Dword 3 of a matrix command (R268). -/
structure MxTail where
  sval : BitVec 16
  wval : BitVec 16
  cseq : BitVec 16
  ssem : BitVec 4
  wsem : BitVec 4
  deriving DecidableEq, Repr

/-- `mmul` and `mmuls` (R269). -/
structure MulForm where
  bop : BitVec 9
  aop : BitVec 9
  acc : Byte
  kbm1 : BitVec 5
  bsel : BitVec 2
  zacc : Bool
  mdat : BitVec 20
  bsca : BitVec 20
  asca : BitVec 20
  cmask : BitVec 16
  t : MxTail
  deriving DecidableEq, Repr

/-- `drain` (R269). -/
structure DrainForm where
  dst : BitVec 20
  acc : Byte
  dsce : Bool
  uscl : Bool
  clr : Bool
  dsca : BitVec 20
  scl : W32
  t : MxTail
  deriving DecidableEq, Repr

/-- A line-processor instruction's fields (R319). -/
structure LnForm where
  f : BitVec 4
  d : BitVec 4
  a : BitVec 4
  b : BitVec 4
  c : BitVec 4
  imm : W32
  deriving DecidableEq, Repr

/-- What a received payload flit carries (R262, R265). -/
inductive FlitKind
  /-- read data of a copy command: the peer address of the flit's first byte -/
  | readData (c : CtxId) (num : W32) (addr : Addr)
  /-- write data of an access the peer makes on the LK path -/
  | lkWrite (addr : Addr)
  /-- one of the flits of a fuse-record broadcast, for the rule PRULE -/
  | fuseRecord (rule : RuleId) (last : Bool)
  /-- an acknowledgement of the flits of these numbers, or a request: it carries no payload -/
  | control (acks : List Nat)
  deriving DecidableEq, Repr

/-- A Thrumol flit as it arrives: its CRC verdict, whether it was sent again (R263), what it is and its 32 payload bytes
(R262). -/
structure Flit where
  crcOk : Bool
  again : Bool
  kind : FlitKind
  payload : BitVec 256
  deriving DecidableEq, Repr

/-- An access the peer device makes to this device on the LK path (R60, R69); `granted` is what the firmware's
link lease says of it. -/
structure PeerAccess where
  write : Bool
  granted : Bool
  addr : Addr
  len : Nat
  deriving DecidableEq, Repr

/-- Packets a port discards without a row (R303, R304). -/
inductive DiscardKind
  | embedded | lineStartEnd | unsupported | badHeader | lidarIpv6 | lidarFragment | lidarTwoTags
  deriving DecidableEq, Repr

/-- A packet that is discarded, and whether its header was corrected (R303). -/
structure Discarded where
  kind : DiscardKind
  ecc : Bool
  deriving DecidableEq, Repr

/-- A lidar datagram of R304: its destination UDP port, the verdicts of its checksums, its payload, and whether the event is its first
byte or its last (R308, log entry 95). -/
structure Datagram where
  udp : BitVec 16
  checksOk : Bool
  payload : List Byte
  first : Bool
  deriving DecidableEq, Repr

/-- A firmware image as the boot ROM or a live update finds it (R382, R387, R389): its bytes, the public key x, y and the signature
r, s that come with it, its version, its TSVER, whether its header asks to raise the fuse minimum version, and the host access map it
brings the device up with: 2 MiB units and their grants (R384). The spec does not say where in the image these stand. -/
structure FwImage where
  image : List Byte
  key : List Byte
  sig : List Byte
  ver : W32
  tsver : BitVec 16
  raiseMin : Bool
  map : List (Nat × BitVec 2)
  deriving DecidableEq, Repr

/-- A flit of a port, by the number it was sent with (R263). -/
structure FlitRef where
  port : LinkId
  no : Nat
  deriving DecidableEq, Repr

/-- A valid Sync message: the slave port it came on and its time (R16, R18). -/
structure SyncMsg where
  port : BitVec 3
  time : W64
  deriving DecidableEq, Repr

/-- What firmware reports of a launch it has prepared: its LSEQ, and the ranges (address, bytes) that it holds marked as compressed
tensors from then on (R69; log entry 93). -/
structure Prepared where
  lseq : W32
  tensors : List (Addr × W32)
  deriving DecidableEq, Repr

/-- The length of a host read, and its requester (R18). -/
structure HostLen where
  bytes : Nat
  who : Nat
  deriving DecidableEq, Repr

/-- Firmware's configuration for full service: MXCAP (R392), and the host access map, 2 MiB units and their grants (R384). -/
structure ServiceCfg where
  mxcap : Byte
  map : List (Nat × BitVec 2)
  deriving DecidableEq, Repr

/-- What a fault that proves lasting comes to: whether a channel's content fits in the free frames (R395), and the work items it
ends, as it cannot be corrected in place (R394). -/
structure Lasting where
  fits : Bool
  lost : List CtxId
  deriving DecidableEq, Repr

/-- The unit a corrected soft error is counted against (R393, R396), or the TLB, which drops the larger of two matching entries
(R71). -/
inductive ErrUnit
  | slice (g : CoreId) (s : Fin 4)
  | exCore (g : CoreId)
  | sequencer (g : CoreId)
  | pool (g : CoreId)
  | channel (ch : Fin 16)
  | dualMatch
  deriving DecidableEq, Repr

/-- The BARs of R384, and the message control word of the function's MSI-X capability, which holds the function mask (R384). -/
inductive Bar | bar0 | bar2 | bar4 | msixControl
  deriving DecidableEq, Repr

/-- The instructions and events of the device, one constructor for each row of the opcode table: instructions first (the
alignment commands and those without fields after the others, as Lean numbers constructors), then events. Each
line ends with the row's mnemonic and the rule that gives its meaning. -/
inductive Instr
  | add (d a b : Reg) -- ADD, R120
  | sub (d a b : Reg) -- SUB, R120
  | and (d a b : Reg) -- AND, R120
  | or (d a b : Reg) -- OR, R120
  | xor (d a b : Reg) -- XOR, R120
  | shl (d a b : Reg) -- SHL, R120
  | shr (d a b : Reg) -- SHR, R120
  | sar (d a b : Reg) -- SAR, R120
  | cmpLt (d a b : Reg) -- CMP_LT, R120
  | cmpLtu (d a b : Reg) -- CMP_LTU, R120
  | min (d a b : Reg) -- MIN, R120
  | max (d a b : Reg) -- MAX, R120
  | minU (d a b : Reg) -- MIN_U, R120
  | maxU (d a b : Reg) -- MAX_U, R120
  | mul (d a b : Reg) -- MUL, R120
  | mulHi (d a b : Reg) -- MUL_HI, R120
  | mulHiu (d a b : Reg) -- MUL_HIU, R120
  | div (d a b : Reg) -- DIV, R121
  | divU (d a b : Reg) -- DIV_U, R121
  | rem (d a b : Reg) -- REM, R121
  | remU (d a b : Reg) -- REM_U, R121
  | clz (d a : Reg) -- CLZ, R120
  | popc (d a : Reg) -- POPC, R120
  | addImm (d a : Reg) (imm : BitVec 15) -- ADD_IMM, R122
  | andImm (d a : Reg) (imm : BitVec 15) -- AND_IMM, R122
  | orImm (d a : Reg) (imm : BitVec 15) -- OR_IMM, R122
  | xorImm (d a : Reg) (imm : BitVec 15) -- XOR_IMM, R122
  | cmpLtImm (d a : Reg) (imm : BitVec 15) -- CMP_LT_IMM, R122
  | cmpLtuImm (d a : Reg) (imm : BitVec 15) -- CMP_LTU_IMM, R122
  | shlImm (d a : Reg) (imm : BitVec 15) -- SHL_IMM, R122
  | shrImm (d a : Reg) (imm : BitVec 15) -- SHR_IMM, R122
  | sarImm (d a : Reg) (imm : BitVec 15) -- SAR_IMM, R122
  | lup (d : Reg) (imm : BitVec 20) -- LUP, R123
  | brEq (a b : Reg) (off : BitVec 15) -- BR_EQ, R124
  | brNe (a b : Reg) (off : BitVec 15) -- BR_NE, R124
  | brLt (a b : Reg) (off : BitVec 15) -- BR_LT, R124
  | brGe (a b : Reg) (off : BitVec 15) -- BR_GE, R124
  | brLtu (a b : Reg) (off : BitVec 15) -- BR_LTU, R124
  | brGeu (a b : Reg) (off : BitVec 15) -- BR_GEU, R124
  | jmp (d : Reg) (off : BitVec 20) -- JMP, R125
  | jmpr (d a : Reg) (imm : BitVec 15) -- JMPR, R125
  | crr (d : Reg) (crn : BitVec 12) -- CRR, R90
  | crw (crn : BitVec 12) (a : Reg) -- CRW, R90
  | crs (d : Reg) (crn : BitVec 12) (a : Reg) -- CRS, R90
  | crc (d : Reg) (crn : BitVec 12) (a : Reg) -- CRC, R90
  | fenceC (scope : Scope) (mask : BitVec 16) -- FENCE_C, R77
  | fenceX (scope : Scope) (paths : BitVec 8) -- FENCE_X, R81
  | trap (imm : BitVec 16) -- TRAP, R100
  | mbw (n : BitVec 3) (a : Reg) -- MBW, R142
  | pushf (a : Reg) -- PUSHF, R140
  | fbpop (d : Reg) -- FBPOP, R146
  | fbtry (d : Reg) -- FBTRY, R146
  | semsig (n : BitVec 4) (a : Reg) -- SEMSIG, R143
  | semwait (n : BitVec 4) (a : Reg) -- SEMWAIT, R143
  | semrd (d : Reg) (n : BitVec 4) -- SEMRD, R143
  | launch (a b : Reg) -- LAUNCH, R147
  | ld (f : MemForm) -- LD, R128
  | st (f : MemForm) -- ST, R128
  | ldp (f : MemForm) -- LDP, R128
  | stp (f : MemForm) -- STP, R128
  | ldAcq (f : SyncForm) -- LD_ACQ, R129
  | stRel (f : SyncForm) -- ST_REL, R129
  | ldSc (f : ScForm) -- LD_SC, R130
  | stSc (f : ScForm) -- ST_SC, R130
  | waitge (f : WaitForm) -- WAITGE, R133
  | waiteq (f : WaitForm) -- WAITEQ, R133
  | atmAdd (f : AtmForm) -- ATM_ADD, R131
  | atmAnd (f : AtmForm) -- ATM_AND, R131
  | atmOr (f : AtmForm) -- ATM_OR, R131
  | atmXor (f : AtmForm) -- ATM_XOR, R131
  | atmMin (f : AtmForm) -- ATM_MIN, R131
  | atmMax (f : AtmForm) -- ATM_MAX, R131
  | atmMinU (f : AtmForm) -- ATM_MIN_U, R131
  | atmMaxU (f : AtmForm) -- ATM_MAX_U, R131
  | atmSwap (f : AtmForm) -- ATM_SWAP, R131
  | atmCas (f : AtmForm) (n : Reg) -- ATM_CAS, R131
  | atmAddSc (f : AtmScForm) -- ATM_ADD_SC, R132
  | atmAndSc (f : AtmScForm) -- ATM_AND_SC, R132
  | atmOrSc (f : AtmScForm) -- ATM_OR_SC, R132
  | atmXorSc (f : AtmScForm) -- ATM_XOR_SC, R132
  | atmMinSc (f : AtmScForm) -- ATM_MIN_SC, R132
  | atmMaxSc (f : AtmScForm) -- ATM_MAX_SC, R132
  | atmMinUSc (f : AtmScForm) -- ATM_MIN_U_SC, R132
  | atmMaxUSc (f : AtmScForm) -- ATM_MAX_U_SC, R132
  | atmSwapSc (f : AtmScForm) -- ATM_SWAP_SC, R132
  | atmCasSc (f : AtmScForm) (n : Reg) -- ATM_CAS_SC, R132
  | li (d : Reg) (imm : W32) -- LI, R123
  | lih (d : Reg) (imm : W32) -- LIH, R123
  | pushbEx (blk : BitVec 16) -- PUSHB_EX, R137
  | pushtMx (f : PushForm) -- PUSHT_MX, R138
  | pushrMx (a : Reg) -- PUSHR_MX, R139
  | pushtCp (f : PushForm) -- PUSHT_CP, R138
  | pushrCp (a : Reg) -- PUSHR_CP, R139
  | pushtAl (f : PushForm) -- PUSHT_AL, R141
  | pushrAl (a : Reg) -- PUSHR_AL, R141
  | vaddI32 (f : VForm) -- VADD_I32, R190
  | vsubI32 (f : VForm) -- VSUB_I32, R190
  | vaddsI32 (f : VForm) -- VADDS_I32, R190
  | vsubsI32 (f : VForm) -- VSUBS_I32, R190
  | vmulI32 (f : VForm) -- VMUL_I32, R190
  | vmulhI32 (f : VForm) -- VMULH_I32, R190
  | vminI32 (f : VForm) -- VMIN_I32, R190
  | vmaxI32 (f : VForm) -- VMAX_I32, R190
  | vminN32 (f : VForm) -- VMIN_N32, R190
  | vmaxN32 (f : VForm) -- VMAX_N32, R190
  | vand (f : VForm) -- VAND, R190
  | vor (f : VForm) -- VOR, R190
  | vxor (f : VForm) -- VXOR, R190
  | vandn (f : VForm) -- VANDN, R190
  | vshl (f : VForm) -- VSHL, R191
  | vshr (f : VForm) -- VSHR, R191
  | vsra (f : VForm) -- VSRA, R191
  | vaddminI32 (f : VForm) -- VADDMIN_I32, R192
  | vaddiI32 (f : IForm) -- VADDI_I32, R193
  | vshli (f : IForm) -- VSHLI, R193
  | vshri (f : IForm) -- VSHRI, R193
  | vsrai (f : IForm) -- VSRAI, R193
  | vminiI32 (f : IForm) -- VMINI_I32, R193
  | vmaxiI32 (f : IForm) -- VMAXI_I32, R193
  | vceqI32 (f : VForm) -- VCEQ_I32, R194
  | vcltI32 (f : VForm) -- VCLT_I32, R194
  | vcleI32 (f : VForm) -- VCLE_I32, R194
  | vcltN32 (f : VForm) -- VCLT_N32, R194
  | vplrd (f : IForm) -- VPLRD, R210
  | vplwr (f : IForm) -- VPLWR, R211
  | vpladd (f : IForm) -- VPLADD, R212
  | vaddF32 (f : VForm) -- VADD_F32, R196
  | vsubF32 (f : VForm) -- VSUB_F32, R196
  | vmulF32 (f : VForm) -- VMUL_F32, R196
  | vfmaF32 (f : VForm) -- VFMA_F32, R196
  | vminF32 (f : VForm) -- VMIN_F32, R197
  | vmaxF32 (f : VForm) -- VMAX_F32, R197
  | vaddBf (f : VForm) -- VADD_BF, R196
  | vsubBf (f : VForm) -- VSUB_BF, R196
  | vmulBf (f : VForm) -- VMUL_BF, R196
  | vfmaBf (f : VForm) -- VFMA_BF, R196
  | vminBf (f : VForm) -- VMIN_BF, R197
  | vmaxBf (f : VForm) -- VMAX_BF, R197
  | vceqF32 (f : VForm) -- VCEQ_F32, R198
  | vcltF32 (f : VForm) -- VCLT_F32, R198
  | vcleF32 (f : VForm) -- VCLE_F32, R198
  | vcvtF32 (f : VForm) -- VCVT_F32, R199
  | vcvtBf (f : VForm) -- VCVT_BF, R199
  | vcvtI32 (f : VForm) -- VCVT_I32, R199
  | vcvtF8 (f : VForm) -- VCVT_F8, R199
  | vcvtBp (f : VForm) -- VCVT_BP, R202
  | vitpBf (f : VForm) -- VITP_BF, R220
  | vcbxBp16 (f : VForm) -- VCBX_BP16, R216
  | vcbxBf (f : VForm) -- VCBX_BF, R216
  | vcbxVq4 (f : VForm) -- VCBX_VQ4, R216
  | cbswap (f : WForm) -- CBSWAP, R218
  | vsel (f : VForm) -- VSEL, R203
  | vslu (f : IForm) -- VSLU, R204
  | vsld (f : IForm) -- VSLD, R204
  | vperm (f : VForm) -- VPERM, R204
  | vbcst (f : IForm) -- VBCST, R204
  | vfsu (f : VForm) -- VFSU, R204
  | qand (f : VForm) -- QAND, R205
  | qor (f : VForm) -- QOR, R205
  | qxor (f : VForm) -- QXOR, R205
  | qandn (f : VForm) -- QANDN, R205
  | qnot (f : VForm) -- QNOT, R205
  | qleni (f : WForm) -- QLENI, R205
  | qlen (f : VForm) -- QLEN, R205
  | qset (f : VForm) -- QSET, R205
  | vraddI32 (f : VForm) -- VRADD_I32, R206
  | vrminI32 (f : VForm) -- VRMIN_I32, R206
  | vrmaxI32 (f : VForm) -- VRMAX_I32, R206
  | vraddF32 (f : VForm) -- VRADD_F32, R206
  | vrminF32 (f : VForm) -- VRMIN_F32, R206
  | vrmaxF32 (f : VForm) -- VRMAX_F32, R206
  | vraddBf (f : VForm) -- VRADD_BF, R206
  | vpop (f : VForm) -- VPOP, R223
  | vpush (f : VForm) -- VPUSH, R224
  | vpushc (f : VForm) -- VPUSHC, R224
  | vpopx (f : VForm) -- VPOPX, R223
  | vmov (f : VForm) -- VMOV, R207
  | vmovi (f : WForm) -- VMOVI, R207
  | vmovmb (f : VForm) -- VMOVMB, R207
  | vmovlc (f : VForm) -- VMOVLC, R207
  | loop (f : LForm) -- LOOP, R170
  | loopm (f : LForm) -- LOOPM, R170
  | loopc (f : LForm) -- LOOPC, R226
  | vxi (f : WForm) -- VXI, R228
  | vxa (f : WForm) -- VXA, R228
  | semw (f : WForm) -- SEMW, R229
  | sems (f : WForm) -- SEMS, R229
  | fbput (f : IForm) -- FBPUT, R230
  | pat (f : PatForm) -- PAT, R240
  | copy (f : CopyForm) -- COPY, R241
  | copya (f : CopyaForm) -- COPYA, R241
  | gather (f : GatherForm) -- GATHER, R243
  | scatter (f : GatherForm) -- SCATTER, R243
  | fill (f : FillForm) -- FILL, R244
  | bind (f : BindForm) -- BIND, R245
  | unbind (port : BitVec 4) (t : CpTail) -- UNBIND, R248
  | unpack (f : UnpackForm) -- UNPACK, R250
  | cbld (f : CbldForm) -- CBLD, R252
  | itld (f : ItldForm) -- ITLD, R253
  | cmpl (t : CpTail) -- CMPL, R254
  | ckst (dst : Addr) (t : CpTail) -- CKST, R254
  | mmul (f : MulForm) -- MMUL, R284
  | mmuls (f : MulForm) -- MMULS, R285
  | hrot (acc : Byte) (side kind : Bool) (t : MxTail) -- HROT, R287
  | drain (f : DrainForm) -- DRAIN, R288
  | acclr (acc : Byte) (kind : Bool) (t : MxTail) -- ACCLR, R289
  | accadd (src : BitVec 20) (acc : Byte) (kind : Bool) (t : MxTail) -- ACCADD, R290
  | mxCbswap (bank : BitVec 2) (t : MxTail) -- MX_CBSWAP, R291
  | msem (t : MxTail) -- MSEM, R292
  | lnVadd (f : LnForm) -- LN_VADD, R321
  | lnVsub (f : LnForm) -- LN_VSUB, R321
  | lnVmul (f : LnForm) -- LN_VMUL, R321
  | lnVmac (f : LnForm) -- LN_VMAC, R321
  | lnVmin (f : LnForm) -- LN_VMIN, R321
  | lnVmax (f : LnForm) -- LN_VMAX, R321
  | lnVand (f : LnForm) -- LN_VAND, R321
  | lnVor (f : LnForm) -- LN_VOR, R321
  | lnVxor (f : LnForm) -- LN_VXOR, R321
  | lnVclt (f : LnForm) -- LN_VCLT, R321
  | lnVceq (f : LnForm) -- LN_VCEQ, R321
  | lnVshl (f : LnForm) -- LN_VSHL, R322
  | lnVshr (f : LnForm) -- LN_VSHR, R322
  | lnVsra (f : LnForm) -- LN_VSRA, R322
  | lnVrshr (f : LnForm) -- LN_VRSHR, R322
  | lnVabs (f : LnForm) -- LN_VABS, R322
  | lnVsel (f : LnForm) -- LN_VSEL, R322
  | lnVidx (f : LnForm) -- LN_VIDX, R322
  | lnVlut (f : LnForm) -- LN_VLUT, R322
  | lnVrsum (f : LnForm) -- LN_VRSUM, R323
  | lnVrmin (f : LnForm) -- LN_VRMIN, R323
  | lnVrmax (f : LnForm) -- LN_VRMAX, R323
  | lld (f : LnForm) -- LLD, R324
  | lst (f : LnForm) -- LST, R325
  | kli (f : LnForm) -- KLI, R326
  | kadd (f : LnForm) -- KADD, R326
  | ksub (f : LnForm) -- KSUB, R326
  | kmul (f : LnForm) -- KMUL, R326
  | kmin (f : LnForm) -- KMIN, R326
  | kmax (f : LnForm) -- KMAX, R326
  | kand (f : LnForm) -- KAND, R326
  | kshl (f : LnForm) -- KSHL, R326
  | kshr (f : LnForm) -- KSHR, R326
  | ksr (f : LnForm) -- KSR, R327
  | rstat (f : LnForm) -- RSTAT, R328
  | fmem (rule : BitVec 6) (part : Bool) (members : W64) -- FMEM, R340
  | ftol (rule : BitVec 6) (refpos : BitVec 4) (delta dead : W32) -- FTOL, R340
  | fring (rule : BitVec 6) (nrecm1 : Byte) (ring : Addr) -- FRING, R340
  | fcnt (rule : BitVec 6) (cnt : Addr) -- FCNT, R340
  | fpeer (rule : BitVec 6) (prule : BitVec 6) (mode : BitVec 2) (port : Bool) -- FPEER, R340
  | farm (rule : BitVec 6) -- FARM, R342
  | fdis (rule : BitVec 6) -- FDIS, R342
  | fforce (rule : BitVec 6) -- FFORCE, R342
  | tret -- TRET, R101
  | region -- REGION, R95
  | done -- DONE, R149
  | exNop -- EX_NOP, R173
  | lnNop -- LN_NOP, R319
  | stallRelease (c : CtxId) -- STALL_RELEASE, R94
  | loadValueReturn (c : CtxId) (n : Nat) -- LOAD_VALUE_RETURN, R119
  | divisionResult (c : CtxId) -- DIVISION_RESULT, R119
  | hostWindowReadCompletion (c : CtxId) (n : Nat) (ok : Bool) (data : List Byte) -- HOST_WINDOW_READ_COMPLETION, R61
  | waitWake (c : CtxId) -- WAIT_WAKE, R83
  | waitTimeout (c : CtxId) -- WAIT_TIMEOUT, R83
  | timerInterrupt (c : CtxId) -- TIMER_INTERRUPT, R100
  | feedbackInterrupt (c : CtxId) -- FEEDBACK_INTERRUPT, R100
  | regionLengthFault (c : CtxId) -- REGION_LENGTH_FAULT, R97
  | preemptionRequest (c : CtxId) -- PREEMPTION_REQUEST, R94
  | workItemRestart (c : CtxId) -- WORK_ITEM_RESTART, R98
  | contextEnded (c : CtxId) -- CONTEXT_ENDED, R149
  | blockFetch (c : CtxId) -- BLOCK_FETCH, R161
  | blockStart (c : CtxId) -- BLOCK_START, R161
  | operationRetire (c : CtxId) -- OPERATION_RETIRE, R162
  | blockComplete (c : CtxId) -- BLOCK_COMPLETE, R161
  | slipBudgetFault (c : CtxId) -- SLIP_BUDGET_FAULT, R168
  | cpCommandComplete (c : CtxId) (num : W32) -- CP_COMMAND_COMPLETE, R239
  | bindingEntryAppend (c : CtxId) (port : BitVec 4) -- BINDING_ENTRY_APPEND, R247
  | bindingEntryDrain (c : CtxId) (port : BitVec 4) -- BINDING_ENTRY_DRAIN, R247
  | bindingEnd (c : CtxId) (port : BitVec 4) -- BINDING_END, R248
  | peerRefusal (c : CtxId) (num : W32) (addr : Addr) -- PEER_REFUSAL, R60
  | peerWriteAck (c : CtxId) (num : W32) (off len : Nat) (sum : W32) -- PEER_WRITE_ACK, R264
  | flitReceive (p : LinkId) (f : Flit) -- FLIT_RECEIVE, R262
  | flitResend (p : FlitRef) -- FLIT_RESEND, R263
  | lkPeerAccess (p : LinkId) (a : PeerAccess) -- LK_PEER_ACCESS, R60
  | lkinjWrite (p : LinkId) (val : W32) -- LKINJ_WRITE, R265
  | crierCompare (c : CtxId) -- CRIER_COMPARE, R282
  | mxEnterCompute (c : CtxId) -- MX_ENTER_COMPUTE, R279
  | mxCommandComplete (c : CtxId) -- MX_COMMAND_COMPLETE, R280
  | frameRecording (s : StreamId) -- FRAME_RECORDING, R337
  | ruleDeadline (r : RuleId) -- RULE_DEADLINE, R345
  | broadcastReceipt (p : LinkId) -- BROADCAST_RECEIPT, R349
  | csi2FrameStart (s : StreamId) (ecc : Bool) -- CSI2_FRAME_START, R306
  | csi2FrameEnd (s : StreamId) (ecc : Bool) -- CSI2_FRAME_END, R306
  | csi2LongPacketStart (s : StreamId) (dt : Byte) (ecc : Bool) -- CSI2_LONG_PACKET_START, R307
  | csi2LongPacketEnd (s : StreamId) (samples : List (BitVec 16)) (crcOk : Bool) -- CSI2_LONG_PACKET_END, R308
  | discardedPacket (s : StreamId) (kind : Discarded) -- DISCARDED_PACKET, R303
  | lidarDatagram (port : Fin 8) (d : Datagram) -- LIDAR_DATAGRAM, R304
  | frameSync (s : StreamId) -- FRAME_SYNC, R306
  | rowDeadline (s : StreamId) -- ROW_DEADLINE, R308
  | ringRowEnter (s : StreamId) -- RING_ROW_ENTER, R310
  | millConfigApply (s : StreamId) -- MILL_CONFIG_APPLY, R312
  | stripStart (p : ProcId) -- STRIP_START, R316
  | outputRowComplete (p : ProcId) -- OUTPUT_ROW_COMPLETE, R318
  | tileRowWrite (s : StreamId) -- TILE_ROW_WRITE, R332
  | slotReset (s : StreamId) -- SLOT_RESET, R331
  | doorbell (q : QId) (v : W32) -- DOORBELL, R354
  | launchAdmit (q : QId) -- LAUNCH_ADMIT, R359
  | launchPrepared (q : QId) (by_ : Prepared) -- LAUNCH_PREPARED, R358
  | workItemDispatch -- WORK_ITEM_DISPATCH, R364
  | launchComplete (q : QId) (lseq : W32) -- LAUNCH_COMPLETE, R362
  | exceptionRecordWrite (q : QId) -- EXCEPTION_RECORD_WRITE, R371
  | xheadWrite (q : QId) (v : W32) -- XHEAD_WRITE, R371
  | answerResume (q : QId) (rseq : W32) -- ANSWER_RESUME, R372
  | answerSkip (q : QId) (rseq : W32) -- ANSWER_SKIP, R372
  | answerAbort (q : QId) (rseq : W32) -- ANSWER_ABORT, R372
  | qkill (q : QId) (go : Bool) (lseq : W32) -- QKILL, R379
  | coalescingTimer (q : QId) -- COALESCING_TIMER, R373
  | priorityRise (q : QId) (lseq : W32) -- PRIORITY_RISE, R364
  | slowSwap (q : QId) (lseq : W32) (victim : CtxId) -- SLOW_SWAP, R369
  | watchdogT1 (q : QId) (lseq : W32) -- WATCHDOG_T1, R375
  | watchdogT2 (q : QId) (lseq : W32) -- WATCHDOG_T2, R376
  | partitionReset (p : PartId) -- PARTITION_RESET, R377
  | resetTimeout (p : PartId) -- RESET_TIMEOUT, R378
  | selfTestSlot (g : CoreId) (failing : BitVec 4) -- SELF_TEST_SLOT, R380
  | selfTestDispatchStop (g : CoreId) -- SELF_TEST_DISPATCH_STOP, R380
  | selfTestOverdue (g : CoreId) -- SELF_TEST_OVERDUE, R380
  | liveUpdate (img : FwImage) (canImport : Bool) -- LIVE_UPDATE, R382
  | standbyTakeover -- STANDBY_TAKEOVER, R382
  | resynchronisation -- RESYNCHRONISATION, R383
  | fwcmdRefused (cmd : BitVec 3) -- FWCMD_REFUSED, R381
  | gptpFirstLock (port : BitVec 3) (t : W64) -- GPTP_FIRST_LOCK, R15
  | gptpSync (t : SyncMsg) (ppm : Int) -- GPTP_SYNC, R16
  | holdoverEntry -- HOLDOVER_ENTRY, R17
  | tbnowLowRead (requester : Nat) -- TBNOW_LOW_READ, R18
  | hostBarRead (bar : Bar) (off : Nat) (len : HostLen) -- HOST_BAR_READ, R384
  | hostBarWrite (bar : Bar) (off : Nat) (data : List Byte) -- HOST_BAR_WRITE, R384
  | hostAtomicop -- HOST_ATOMICOP, R384
  | registerWrite (fw : Bool) (off : BitVec 20) (val : W64) -- REGISTER_WRITE, R3
  | attest (nonce : List Byte) -- ATTEST, R391
  | readreg (off : W32) -- READREG, R390
  | stage (page : BitVec 16) (data : List Byte) -- STAGE, R390
  | stagestat -- STAGESTAT, R390
  | usbRequestStall (req : Byte) -- USB_REQUEST_STALL, R390
  | deviceReset (copy1 copy2 : FwImage) -- DEVICE_RESET, R389
  | reducedService -- REDUCED_SERVICE, R392
  | fullService (mxcap : ServiceCfg) -- FULL_SERVICE, R392
  | softErrorCorrected (u : ErrUnit) (fits : Lasting) -- SOFT_ERROR_CORRECTED, R393
  | coreEvacuation (c tgt : CtxId) -- CORE_EVACUATION, R394
  | channelRemapDone (ch : Fin 16) -- CHANNEL_REMAP_DONE, R395
  | thermalRelief (tj : Byte) -- THERMAL_RELIEF, R397
  | thermalRestore (tj : Byte) -- THERMAL_RESTORE, R397
  | clockStepChange -- CLOCK_STEP_CHANGE, R396
  | ageLimit (cl : Fin 12) (margin : BitVec 16) -- AGE_LIMIT, R396
  | thrumolPortTrained (p : LinkId) (lanes : BitVec 4) -- THRUMOL_PORT_TRAINED, R263
  | partitionResetComplete (p : PartId) -- PARTITION_RESET_COMPLETE, R377
  deriving DecidableEq, Repr

end Sys2Proof
end

