-- ==== Sys2Proof/WellFormed.lean ====
section
/-! DEFINITION. Well-formed instructions: the field limits of the spec that a decoder enforces (R114, R174, R179, R187,
R208, R214, R231, R234, R235, R268, R269, R329, R340), and the shape of an event's data.

A limit that the spec makes a fault of its own at begin (a copy format, a pool range, a view number) is not here: it is
checked by the instruction's meaning. -/

namespace Sys2Proof

/-- The TYPE code of R108. -/
def AccTy.code : AccTy → Nat
  | .i8 => 0 | .i16 => 1 | .i32 => 2 | .i64 => 3 | .n8 => 4 | .n16 => 5 | .n32 => 6 | .n64 => 7

/-- The access type of a TYPE code (R108); the code is taken in 3 bits. -/
def AccTy.ofCode : Nat → AccTy
  | 0 => .i8 | 1 => .i16 | 2 => .i32 | 3 => .i64 | 4 => .n8 | 5 => .n16 | 6 => .n32 | _ => .n64

/-- The SCOPE code of R108. -/
def Scope.code : Scope → Nat
  | .core => 0 | .clu => 1 | .dev => 2 | .sys => 3

/-- The scope of a SCOPE code (R108); the code is taken in 2 bits. -/
def Scope.ofCode : Nat → Scope
  | 0 => .core | 1 => .clu | 2 => .dev | _ => .sys

/-- The number of bits set among the low `n` bits of `x`. -/
def popcount (x : Nat) : Nat → Nat
  | 0 => 0
  | n + 1 => (if x.testBit n then 1 else 0) + popcount x n

/-- A template push: at most three patched dwords, and no register field beyond those used (R112, R113). -/
def PushForm.wf (f : PushForm) : Bool :=
  let k := popcount f.pmask.toNat 4
  decide (k ≤ 3) && (decide (1 ≤ k) || f.a == 0) && (decide (2 ≤ k) || f.b == 0) && (decide (3 ≤ k) || f.c == 0)

/-- The stored planes and the part of a plane operation's LAY field (R209). -/
def layOf (lay : Nat) : Nat × Nat :=
  if lay < 8 then (1, lay) else if lay < 12 then (2, lay - 8) else if lay < 14 then (3, lay - 12) else (4, lay - 14)

/-- `vpladd` needs M = 0 and J < S (R214). -/
def vpladdOk (imm : BitVec 7) : Bool :=
  imm.toNat % 2 == 0 && decide (imm.toNat / 2 % 4 < (layOf (imm.toNat / 8)).1)

/-- The source formats a `vcvt` accepts, with their element widths in bytes (R36, R199). -/
def vcvtSrcWidth : Nat → Option Nat
  | 0x08 => some 1 | 0x09 => some 2 | 0x0A => some 4 | 0x0C => some 1 | 0x0D => some 2 | 0x0E => some 4
  | 0x10 => some 2 | 0x11 => some 4 | 0x12 => some 1 | _ => none

/-- The parts a conversion from width `ws` to width `wd` has (R200). -/
def vcvtParts (ws wd : Nat) : Nat := if ws < wd then wd / ws else ws / wd

/-- Field B of a `vcvt` to a destination of `wd` bytes holds an accepted source and a part in range (R199, R200). -/
def vcvtOk (wd : Nat) (b : BitVec 7) : Bool :=
  match vcvtSrcWidth (b.toNat % 32) with
  | none => false
  | some ws => decide (b.toNat / 32 < vcvtParts ws wd)

/-- Field B of a `vcbx`: index width code below 3, and a part in range for the form (0 bp16, 1 bf, 2 vq4; R216). -/
def vcbxOk (form : Nat) (b : BitVec 7) : Bool :=
  let wc := b.toNat / 4 % 4
  let p := b.toNat / 16
  decide (wc < 3) &&
    (match form with
    | 0 => decide (p < if wc = 0 then 8 else if wc = 1 then 5 else 4)
    | 1 => decide (p < if wc = 0 then 4 else 2)
    | _ => true)

/-- A copy command's common fields carry nothing they do not use (R234, R259 reason 2). -/
def CpTail.wf (t : CpTail) : Bool :=
  (t.check || t.expect == 0) && (t.cw || (t.cval == 0 && t.caddr == 0))

/-- Dword 3 of a matrix command that is no crier command (R268). -/
def MxTail.wfNoCrier (t : MxTail) : Bool := (t.wval != 0 || t.wsem == 0) && (t.sval != 0 || t.ssem == 0)

/-- As `wfNoCrier`, with CSEQ zero (R268). -/
def MxTail.wf (t : MxTail) : Bool := t.wfNoCrier && t.cseq == 0

/-- A multiply's fields: BSEL not reserved, CMASK and CSEQ zero outside a crier command, and BOP, BSCA and META zero in
a receive (R268, R269, R273). -/
def MulForm.wf (f : MulForm) : Bool :=
  f.t.wfNoCrier && f.bsel != 3 && (f.bsel != 0 || (f.cmask == 0 && f.t.cseq == 0)) &&
    (f.bsel != 1 || (f.bop == 0 && f.bsca == 0 && f.mdat == 0))

/-- Every member byte with V = 0 has its stream bits zero (R340). -/
def membersOk (m : W64) : Bool :=
  (List.range 8).all fun i => let b := m.toNat / 256 ^ i % 256; decide (128 ≤ b) || decide (b = 0)

/-- A scalar or address operand field: with the flag bit 3 clear, bits 2:0 are zero (R319, R329). -/
def lnScalarOk (x : BitVec 4) : Bool := decide (8 ≤ x.toNat) || x == 0

/-- A `ksr` code of R327. -/
def ksrCodeOk (c : W32) : Bool := decide (c.toNat ≤ 6) || (decide (8 ≤ c.toNat) && decide (c.toNat ≤ 15))

/-- The sizes of the BARs (R384). -/
def Bar.size : Bar → Nat
  | .bar0 => 0x100000 | .bar2 => 0x40000000 | .bar4 => 0x2000000000 | .msixControl => 2

/-- A work item that a fault of a unit can take with it: one of the unit's core; a channel serves every core (R394). -/
def ErrUnit.reaches (u : ErrUnit) (c : CtxId) : Bool :=
  match u with
  | .slice g _ => c.core == g.val
  | .exCore g => c.core == g.val
  | .sequencer g => c.core == g.val
  | .pool g => c.core == g.val
  | .channel _ => true
  | .dualMatch => false

/-- A payload flit's address is that of a 32-byte unit (R262). -/
def Flit.wf (f : Flit) : Bool :=
  match f.kind with
  | .readData _ _ a => decide (a.toNat % 32 = 0)
  | .lkWrite a => decide (a.toNat % 32 = 0)
  | .fuseRecord _ _ => true
  | .control _ => true

/-- A list of 32 bytes. -/
def data32 (l : List Byte) : Bool := decide (l.length = 32)

/-- The checks above, instruction by instruction. RO = 1 is no fault of a copy command, whether or not it writes to the host window (R234,
log entry 102). -/
def Instr.wf : Instr → Bool
  | .add _ _ _ => true
  | .sub _ _ _ => true
  | .and _ _ _ => true
  | .or _ _ _ => true
  | .xor _ _ _ => true
  | .shl _ _ _ => true
  | .shr _ _ _ => true
  | .sar _ _ _ => true
  | .cmpLt _ _ _ => true
  | .cmpLtu _ _ _ => true
  | .min _ _ _ => true
  | .max _ _ _ => true
  | .minU _ _ _ => true
  | .maxU _ _ _ => true
  | .mul _ _ _ => true
  | .mulHi _ _ _ => true
  | .mulHiu _ _ _ => true
  | .div _ _ _ => true
  | .divU _ _ _ => true
  | .rem _ _ _ => true
  | .remU _ _ _ => true
  | .clz _ _ => true
  | .popc _ _ => true
  | .addImm _ _ _ => true
  | .andImm _ _ _ => true
  | .orImm _ _ _ => true
  | .xorImm _ _ _ => true
  | .cmpLtImm _ _ _ => true
  | .cmpLtuImm _ _ _ => true
  | .shlImm _ _ imm => decide (imm.toNat < 64)
  | .shrImm _ _ imm => decide (imm.toNat < 64)
  | .sarImm _ _ imm => decide (imm.toNat < 64)
  | .lup _ _ => true
  | .brEq _ _ _ => true
  | .brNe _ _ _ => true
  | .brLt _ _ _ => true
  | .brGe _ _ _ => true
  | .brLtu _ _ _ => true
  | .brGeu _ _ _ => true
  | .jmp _ _ => true
  | .jmpr _ _ _ => true
  | .crr _ _ => true
  | .crw _ _ => true
  | .crs _ _ _ => true
  | .crc _ _ _ => true
  | .fenceC _ mask => mask != 0
  | .fenceX _ paths => decide (2 ≤ popcount paths.toNat 8)
  | .trap _ => true
  | .mbw _ _ => true
  | .pushf _ => true
  | .fbpop _ => true
  | .fbtry _ => true
  | .semsig _ _ => true
  | .semwait _ _ => true
  | .semrd _ _ => true
  | .launch _ _ => true
  | .ld f => f.ty != .n64
  | .st f => f.ty != .n64
  | .ldp f => f.ty != .n64
  | .stp f => f.ty != .n64
  | .ldAcq f => f.ty != .n64 && f.mask != 0
  | .stRel f => f.ty != .n64 && f.mask != 0
  | .ldSc f => f.ty != .n64
  | .stSc f => f.ty != .n64
  | .waitge f => f.ty == .n32 || f.ty == .n64
  | .waiteq f => f.ty == .n32 || f.ty == .n64
  | .atmAdd f => f.ty == .i32 || f.ty == .i64 || f.ty == .n32
  | .atmAnd f => f.ty == .i32 || f.ty == .i64 || f.ty == .n32
  | .atmOr f => f.ty == .i32 || f.ty == .i64 || f.ty == .n32
  | .atmXor f => f.ty == .i32 || f.ty == .i64 || f.ty == .n32
  | .atmMin f => f.ty == .i32 || f.ty == .i64 || f.ty == .n32
  | .atmMax f => f.ty == .i32 || f.ty == .i64 || f.ty == .n32
  | .atmMinU f => f.ty == .i32 || f.ty == .i64 || f.ty == .n32
  | .atmMaxU f => f.ty == .i32 || f.ty == .i64 || f.ty == .n32
  | .atmSwap f => f.ty == .i32 || f.ty == .i64 || f.ty == .n32
  | .atmCas f _ => f.ty == .i32 || f.ty == .i64 || f.ty == .n32
  | .atmAddSc f => f.ty == .i32 || f.ty == .i64 || f.ty == .n32
  | .atmAndSc f => f.ty == .i32 || f.ty == .i64 || f.ty == .n32
  | .atmOrSc f => f.ty == .i32 || f.ty == .i64 || f.ty == .n32
  | .atmXorSc f => f.ty == .i32 || f.ty == .i64 || f.ty == .n32
  | .atmMinSc f => f.ty == .i32 || f.ty == .i64 || f.ty == .n32
  | .atmMaxSc f => f.ty == .i32 || f.ty == .i64 || f.ty == .n32
  | .atmMinUSc f => f.ty == .i32 || f.ty == .i64 || f.ty == .n32
  | .atmMaxUSc f => f.ty == .i32 || f.ty == .i64 || f.ty == .n32
  | .atmSwapSc f => f.ty == .i32 || f.ty == .i64 || f.ty == .n32
  | .atmCasSc f _ => f.ty == .i32 || f.ty == .i64 || f.ty == .n32
  | .li _ _ => true
  | .lih _ _ => true
  | .pushbEx _ => true
  | .pushtMx f => f.wf
  | .pushrMx a => a != 0 && a.toNat % 4 == 0
  | .pushtCp f => f.wf
  | .pushrCp a => a != 0 && a.toNat % 4 == 0
  | .pushtAl f => f.wf && decide (f.pmask.toNat < 4)
  | .pushrAl a => a != 0 && a.toNat % 2 == 0
  | .vaddI32 _ => true
  | .vsubI32 _ => true
  | .vaddsI32 _ => true
  | .vsubsI32 _ => true
  | .vmulI32 _ => true
  | .vmulhI32 _ => true
  | .vminI32 _ => true
  | .vmaxI32 _ => true
  | .vminN32 _ => true
  | .vmaxN32 _ => true
  | .vand _ => true
  | .vor _ => true
  | .vxor _ => true
  | .vandn _ => true
  | .vshl _ => true
  | .vshr _ => true
  | .vsra _ => true
  | .vaddminI32 _ => true
  | .vaddiI32 _ => true
  | .vshli f => decide (f.imm.toNat < 32)
  | .vshri f => decide (f.imm.toNat < 32)
  | .vsrai f => decide (f.imm.toNat < 32)
  | .vminiI32 _ => true
  | .vmaxiI32 _ => true
  | .vceqI32 f => decide (f.d.toNat < 8)
  | .vcltI32 f => decide (f.d.toNat < 8)
  | .vcleI32 f => decide (f.d.toNat < 8)
  | .vcltN32 f => decide (f.d.toNat < 8)
  | .vplrd _ => true
  | .vplwr _ => true
  | .vpladd f => vpladdOk f.imm
  | .vaddF32 _ => true
  | .vsubF32 _ => true
  | .vmulF32 _ => true
  | .vfmaF32 _ => true
  | .vminF32 _ => true
  | .vmaxF32 _ => true
  | .vaddBf _ => true
  | .vsubBf _ => true
  | .vmulBf _ => true
  | .vfmaBf _ => true
  | .vminBf _ => true
  | .vmaxBf _ => true
  | .vceqF32 f => decide (f.d.toNat < 8)
  | .vcltF32 f => decide (f.d.toNat < 8)
  | .vcleF32 f => decide (f.d.toNat < 8)
  | .vcvtF32 f => vcvtOk 4 f.b
  | .vcvtBf f => vcvtOk 2 f.b
  | .vcvtI32 f => vcvtOk 4 f.b
  | .vcvtF8 f => vcvtOk 1 f.b
  | .vcvtBp f => vcvtOk 2 f.b
  | .vitpBf f => decide (f.b.toNat < 4)
  | .vcbxBp16 f => vcbxOk 0 f.b
  | .vcbxBf f => vcbxOk 1 f.b
  | .vcbxVq4 f => vcbxOk 2 f.b
  | .cbswap f => f.q == 0 && decide (f.d.toNat < 4) && f.imm == 0 && !f.x
  | .vsel _ => true
  | .vslu f => decide (f.imm.toNat < 64)
  | .vsld f => decide (f.imm.toNat < 64)
  | .vperm _ => true
  | .vbcst f => decide (f.imm.toNat < 64)
  | .vfsu _ => true
  | .qand f => f.q == 0 && !f.x && decide (f.d.toNat < 8) && decide (f.a.toNat < 8) && decide (f.b.toNat < 8)
  | .qor f => f.q == 0 && !f.x && decide (f.d.toNat < 8) && decide (f.a.toNat < 8) && decide (f.b.toNat < 8)
  | .qxor f => f.q == 0 && !f.x && decide (f.d.toNat < 8) && decide (f.a.toNat < 8) && decide (f.b.toNat < 8)
  | .qandn f => f.q == 0 && !f.x && decide (f.d.toNat < 8) && decide (f.a.toNat < 8) && decide (f.b.toNat < 8)
  | .qnot f => f.q == 0 && !f.x && decide (f.d.toNat < 8) && decide (f.a.toNat < 8) && f.b == 0
  | .qleni f => f.q == 0 && !f.x && decide (f.d.toNat < 8) && decide (f.imm.toNat ≤ 64)
  | .qlen f => f.q == 0 && !f.x && decide (f.d.toNat < 8) && decide (f.a.toNat < 8) && f.b == 0
  | .qset f => f.q == 0 && decide (f.d.toNat < 8) && f.b == 0
  | .vraddI32 f => f.b == 0
  | .vrminI32 f => f.b == 0
  | .vrmaxI32 f => f.b == 0
  | .vraddF32 f => f.b == 0
  | .vrminF32 f => f.b == 0
  | .vrmaxF32 f => f.b == 0
  | .vraddBf f => f.b == 0
  | .vpop f => decide (f.a.toNat < 16) && f.b == 0
  | .vpush f => decide (f.d.toNat < 16) && f.b == 0 && f.q == 0
  | .vpushc f => decide (f.d.toNat < 16) && f.b == 0
  | .vpopx f => decide (f.a.toNat < 16) && f.b == 0
  | .vmov f => f.b == 0
  | .vmovi _ => true
  | .vmovmb f => decide (f.a.toNat < 8) && f.b == 0
  | .vmovlc f => decide (f.a.toNat < 4) && f.b == 0
  | .loop f => f.len != 0
  | .loopm f => f.len != 0 && decide (f.cnt.toNat < 8)
  | .loopc f => f.len != 0 && decide (f.cnt.toNat < 16)
  | .vxi f => f.q == 0 && f.d == 0 && !f.x && decide (f.imm.toNat < 128)
  | .vxa f => f.q == 0 && f.d == 0 && !f.x && decide (-128 ≤ f.imm.toInt) && decide (f.imm.toInt ≤ 127)
  | .semw f => f.q == 0 && !f.x && decide (f.d.toNat < 16) && decide (f.imm.toNat < 8192)
  | .sems f => f.q == 0 && !f.x && decide (f.d.toNat < 16) && decide (f.imm.toNat < 8192)
  | .fbput f => f.d == 0
  | .pat _ => true
  | .copy f => f.t.wf && (f.cvt || (f.sfmt == 0 && f.dfmt == 0))
  | .copya f => f.t.wf && (f.cvt || (f.sfmt == 0 && f.dfmt == 0))
  | .gather f => f.t.wf
  | .scatter f => f.t.wf
  | .fill f => f.t.wf && !f.t.check && f.t.expect == 0 && !f.t.spool
  | .bind f => f.t.wf && (!f.raw || (f.efmt == 0 && f.ops == 0)) && (if f.out then !f.t.spool else !f.t.dpool)
  | .unbind _ t => t.wf && t.ckm == 0 && !t.chain && !t.check && !t.spool && !t.dpool
  | .unpack f => f.t.wf && !f.t.spool
  | .cbld f => f.t.wf && !f.t.dpool
  | .itld f => f.t.wf && !f.t.dpool
  | .cmpl t => t.wf && t.ckm == 0 && !t.chain && !t.check && !t.spool && !t.dpool
  | .ckst _ t => t.wf && t.ckm == 0 && !t.chain && !t.check && !t.spool
  | .mmul f => f.wf && f.mdat == 0
  | .mmuls f => f.wf
  | .hrot _ _ _ t => t.wf
  | .drain f => f.t.wf && (f.uscl || f.scl == 0) && (f.dsce || f.dsca == 0)
  | .acclr _ _ t => t.wf
  | .accadd _ _ _ t => t.wf
  | .mxCbswap _ t => t.wf
  | .msem t => t.wf
  | .lnVadd f => decide (f.f.toNat < 2) && f.c == 0 && (if f.f == 1 then lnScalarOk f.b else f.imm == 0)
  | .lnVsub f => decide (f.f.toNat < 2) && f.c == 0 && (if f.f == 1 then lnScalarOk f.b else f.imm == 0)
  | .lnVmul f => decide (f.f.toNat < 2) && f.c == 0 && (if f.f == 1 then lnScalarOk f.b else f.imm == 0)
  | .lnVmac f => decide (f.f.toNat < 2) && f.c == 0 && (if f.f == 1 then lnScalarOk f.b else f.imm == 0)
  | .lnVmin f => decide (f.f.toNat < 2) && f.c == 0 && (if f.f == 1 then lnScalarOk f.b else f.imm == 0)
  | .lnVmax f => decide (f.f.toNat < 2) && f.c == 0 && (if f.f == 1 then lnScalarOk f.b else f.imm == 0)
  | .lnVand f => decide (f.f.toNat < 2) && f.c == 0 && (if f.f == 1 then lnScalarOk f.b else f.imm == 0)
  | .lnVor f => decide (f.f.toNat < 2) && f.c == 0 && (if f.f == 1 then lnScalarOk f.b else f.imm == 0)
  | .lnVxor f => decide (f.f.toNat < 2) && f.c == 0 && (if f.f == 1 then lnScalarOk f.b else f.imm == 0)
  | .lnVclt f => decide (f.f.toNat < 2) && f.c == 0 && (if f.f == 1 then lnScalarOk f.b else f.imm == 0)
  | .lnVceq f => decide (f.f.toNat < 2) && f.c == 0 && (if f.f == 1 then lnScalarOk f.b else f.imm == 0)
  | .lnVshl f => f.f == 0 && f.b == 0 && f.c == 0 && decide (f.imm.toNat < 32)
  | .lnVshr f => f.f == 0 && f.b == 0 && f.c == 0 && decide (f.imm.toNat < 32)
  | .lnVsra f => f.f == 0 && f.b == 0 && f.c == 0 && decide (f.imm.toNat < 32)
  | .lnVrshr f => f.f == 0 && f.b == 0 && f.c == 0 && decide (f.imm.toNat < 32)
  | .lnVabs f => f.f == 0 && f.b == 0 && f.c == 0 && f.imm == 0
  | .lnVsel f => f.f == 0 && f.imm == 0 && decide (f.c.toNat < 8)
  | .lnVidx f => f.f == 0 && f.b == 0 && f.c == 0 && f.imm == 0 && f.a == 0
  | .lnVlut f => f.f == 0 && f.b == 0 && f.c == 0 && f.imm == 0
  | .lnVrsum f => f.f == 0 && f.b == 0 && f.c == 0 && f.imm == 0 && decide (f.d.toNat < 8)
  | .lnVrmin f => f.f == 0 && f.b == 0 && f.c == 0 && f.imm == 0 && decide (f.d.toNat < 8)
  | .lnVrmax f => f.f == 0 && f.b == 0 && f.c == 0 && f.imm == 0 && decide (f.d.toNat < 8)
  | .lld f => decide (f.f.toNat < 4) && f.b == 0 && decide (f.c.toNat < 8) && lnScalarOk f.a
  | .lst f => decide (f.f.toNat < 4) && f.d == 0 && f.c == 0 && lnScalarOk f.a
  | .kli f => f.f == 0 && f.a == 0 && f.b == 0 && f.c == 0 && decide (f.d.toNat < 8)
  | .kadd f => f.f == 0 && f.c == 0 && decide (f.d.toNat < 8) && decide (f.a.toNat < 8) && lnScalarOk f.b
  | .ksub f => f.f == 0 && f.c == 0 && decide (f.d.toNat < 8) && decide (f.a.toNat < 8) && lnScalarOk f.b
  | .kmul f => f.f == 0 && f.c == 0 && decide (f.d.toNat < 8) && decide (f.a.toNat < 8) && lnScalarOk f.b
  | .kmin f => f.f == 0 && f.c == 0 && decide (f.d.toNat < 8) && decide (f.a.toNat < 8) && lnScalarOk f.b
  | .kmax f => f.f == 0 && f.c == 0 && decide (f.d.toNat < 8) && decide (f.a.toNat < 8) && lnScalarOk f.b
  | .kand f => f.f == 0 && f.c == 0 && decide (f.d.toNat < 8) && decide (f.a.toNat < 8) && lnScalarOk f.b
  | .kshl f => f.f == 0 && f.c == 0 && decide (f.d.toNat < 8) && decide (f.a.toNat < 8) && lnScalarOk f.b
  | .kshr f => f.f == 0 && f.c == 0 && decide (f.d.toNat < 8) && decide (f.a.toNat < 8) && lnScalarOk f.b
  | .ksr f => f.f == 0 && f.a == 0 && f.b == 0 && f.c == 0 && decide (f.d.toNat < 8) && ksrCodeOk f.imm
  | .rstat f => f.f == 0 && f.d == 0 && f.b == 0 && f.c == 0 && lnScalarOk f.a
  | .fmem _ _ members => membersOk members
  | .ftol _ _ _ _ => true
  | .fring _ _ _ => true
  | .fcnt _ _ => true
  | .fpeer _ prule mode port => mode != 3 && (mode == 1 || (!port && prule == 0))
  | .farm _ => true
  | .fdis _ => true
  | .fforce _ => true
  | .tret => true
  | .region => true
  | .done => true
  | .exNop => true
  | .lnNop => true
  | .stallRelease _ => true
  | .loadValueReturn _ _ => true
  | .divisionResult _ => true
  | .hostWindowReadCompletion _ _ _ _ => true
  | .waitWake _ => true
  | .waitTimeout _ => true
  | .timerInterrupt _ => true
  | .feedbackInterrupt _ => true
  | .regionLengthFault _ => true
  | .preemptionRequest _ => true
  | .workItemRestart _ => true
  | .contextEnded _ => true
  | .blockFetch _ => true
  | .blockStart _ => true
  | .operationRetire _ => true
  | .blockComplete _ => true
  | .slipBudgetFault _ => true
  | .cpCommandComplete _ _ => true
  | .bindingEntryAppend _ _ => true
  | .bindingEntryDrain _ _ => true
  | .bindingEnd _ _ => true
  | .peerRefusal _ _ _ => true
  | .peerWriteAck _ _ _ _ _ => true
  | .flitReceive _ f => f.wf
  | .flitResend _ => true
  | .lkPeerAccess _ a => decide (0 < a.len) && decide (a.len ≤ 256) && decide (a.addr.toNat % 256 + a.len ≤ 256)
  | .lkinjWrite _ _ => true
  | .crierCompare _ => true
  | .mxEnterCompute _ => true
  | .mxCommandComplete _ => true
  | .frameRecording _ => true
  | .ruleDeadline _ => true
  | .broadcastReceipt _ => true
  | .csi2FrameStart _ _ => true
  | .csi2FrameEnd _ _ => true
  | .csi2LongPacketStart _ _ _ => true
  | .csi2LongPacketEnd _ _ _ => true
  | .discardedPacket _ d => !d.ecc || d.kind == .embedded || d.kind == .lineStartEnd || d.kind == .unsupported
  | .lidarDatagram _ _ => true
  | .frameSync _ => true
  | .rowDeadline _ => true
  | .ringRowEnter _ => true
  | .millConfigApply _ => true
  | .stripStart _ => true
  | .outputRowComplete _ => true
  | .tileRowWrite _ => true
  | .slotReset _ => true
  | .doorbell _ _ => true
  | .launchAdmit _ => true
  | .launchPrepared _ _ => true
  | .workItemDispatch => true
  | .launchComplete _ _ => true
  | .exceptionRecordWrite _ => true
  | .xheadWrite _ _ => true
  | .answerResume _ _ => true
  | .answerSkip _ _ => true
  | .answerAbort _ _ => true
  | .qkill _ _ _ => true
  | .coalescingTimer _ => true
  | .priorityRise _ _ => true
  | .slowSwap _ _ _ => true
  | .watchdogT1 _ _ => true
  | .watchdogT2 _ _ => true
  | .partitionReset _ => true
  | .resetTimeout _ => true
  | .selfTestSlot _ _ => true
  | .selfTestDispatchStop _ => true
  | .selfTestOverdue _ => true
  | .liveUpdate _ _ => true
  | .standbyTakeover => true
  | .resynchronisation => true
  | .fwcmdRefused _ => true
  | .gptpFirstLock _ _ => true
  | .gptpSync _ ppm => decide (-500 ≤ ppm) && decide (ppm ≤ 500)
  | .holdoverEntry => true
  | .tbnowLowRead _ => true
  | .hostBarRead bar off len => decide (0 < len.bytes) && decide (len.bytes ≤ 4096) && decide (off + len.bytes ≤ bar.size)
  | .hostBarWrite bar off data => decide (0 < data.length) && decide (data.length ≤ 4096) && decide (off + data.length ≤ bar.size)
  | .hostAtomicop => true
  | .registerWrite _ off _ => decide (off.toNat % 4 = 0)
  | .attest nonce => data32 nonce
  | .readreg off => decide (off.toNat < 0x100000)
  | .stage _ data => decide (data.length = 4096)
  | .stagestat => true
  | .usbRequestStall req => decide (req.toNat < 1 || 4 < req.toNat)
  | .deviceReset _ _ => true
  | .reducedService => true
  | .fullService _ => true
  | .softErrorCorrected u fits => fits.lost.all u.reaches
  | .coreEvacuation _ _ => true
  | .channelRemapDone _ => true
  | .thermalRelief _ => true
  | .thermalRestore _ => true
  | .clockStepChange => true
  | .ageLimit _ _ => true
  | .thrumolPortTrained _ lanes => decide (lanes.toNat ≤ 8)
  | .partitionResetComplete _ => true

end Sys2Proof
end

