-- ==== Sys2Proof/Decode.lean ====
section
/-! DEFINITION. Decoding and encoding of the six instruction streams: sequencer words (R105-R113), execute slots
(R173-R178), copy commands (R234, R235), matrix commands (R268, R269), alignment commands (R340) and line-processor words
(R319, R320).

A decoder first reads a candidate from the opcode and the named fields; the word is accepted when the candidate is
well-formed and its own encoding is the word again, so a nonzero reserved or unused field is always refused (R114, R179,
R259, R296, R329, R350). -/

namespace Sys2Proof

/-- Where an encoded word stands. -/
inductive EncUnit | sq32 | sq64 | slotA | slotB | slotC | slotD | mx | cp | al | ln
  deriving DecidableEq, Repr

/-- Joins fields, lowest first; each is a width and a value, taken modulo its width. -/
def packF : List (Nat × Nat) → Nat
  | [] => 0
  | (n, v) :: r => v % 2 ^ n + 2 ^ n * packF r

/-- Splits a word into fields of the given widths, lowest first. -/
def unpackF : List Nat → Nat → List Nat
  | [], _ => []
  | n :: r, w => w % 2 ^ n :: unpackF r (w / 2 ^ n)

/-- Field `i` of a split word, as `n` bits. -/
def bvAt (l : List Nat) (i n : Nat) : BitVec n := BitVec.ofNat n (l.getD i 0)
/-- Field `i` of a split word, as one bit. -/
def boolAt (l : List Nat) (i : Nat) : Bool := l.getD i 0 == 1

/-! The 32-bit formats of R106: widths from bit 0; the first field is OP and L. -/

def layG : List Nat := [7, 5, 5, 5, 10]
def layK : List Nat := [7, 5, 5, 15]
def layH : List Nat := [7, 5, 20]
def layC : List Nat := [7, 5, 5, 3, 12]
def layFC : List Nat := [7, 5, 2, 2, 16]
def layFX : List Nat := [7, 5, 2, 2, 8, 8]
def layS : List Nat := [7, 5, 4, 16]

/-- Format G: OP, rd, ra, rb, FN. -/
def packG (op rd ra rb fn : Nat) : Nat := packF [(7, 2 * op), (5, rd), (5, ra), (5, rb), (10, fn)]
/-- Formats K and B: OP, bits 11:7, bits 16:12, bits 31:17. -/
def packK (op lo mid imm : Nat) : Nat := packF [(7, 2 * op), (5, lo), (5, mid), (15, imm)]
/-- Formats H and J. -/
def packH (op rd imm : Nat) : Nat := packF [(7, 2 * op), (5, rd), (20, imm)]
/-- Format C. -/
def packC (op rd ra fn3 crn : Nat) : Nat := packF [(7, 2 * op), (5, rd), (5, ra), (3, fn3), (12, crn)]
/-- Format F with MASK (`fence.c`). -/
def packFC (op sc mask : Nat) : Nat := packF [(7, 2 * op), (5, 0), (2, sc), (2, 0), (16, mask)]
/-- Format F with PATHS (`fence.x`). -/
def packFX (op sc paths : Nat) : Nat := packF [(7, 2 * op), (5, 0), (2, sc), (2, 0), (8, paths), (8, 0)]
/-- Format S. -/
def packS (op fn4 imm : Nat) : Nat := packF [(7, 2 * op), (5, 0), (4, fn4), (16, imm)]

/-! The 64-bit formats of R107. -/

def lay64 : List Nat := [7, 5, 5, 5, 4, 3, 2, 1, 32]
def layLW : List Nat := [5, 6, 5, 16]
def layLQ : List Nat := [16, 4, 5, 7]

/-- Word 0 (LOP and L, rd, ra, rb, CLASS, TYPE, SCOPE, reserved) below word 1. -/
def pack64 (lop rd ra rb cls ty sc w1 : Nat) : Nat :=
  packF [(7, 2 * lop + 1), (5, rd), (5, ra), (5, rb), (4, cls), (3, ty), (2, sc), (1, 0), (32, w1)]
/-- Word 1 in layout LW: rc, reserved, FN5, OFF16. -/
def packLW (rc fn5 off : Nat) : Nat := packF [(5, rc), (6, 0), (5, fn5), (16, off)]
/-- Word 1 in layout LQ: TIDX, PMASK, rc, reserved. -/
def packLQ (tidx pmask rc : Nat) : Nat := packF [(16, tidx), (4, pmask), (5, rc), (7, 0)]

/-! The execute slot forms of R173: X, B or IMM7, A, D, Q, OP from bit 0. -/

def layV : List Nat := [1, 7, 7, 7, 3, 7]
def layW : List Nat := [1, 14, 7, 3, 7]
def layL : List Nat := [1, 9, 10, 2, 3, 7]

def encV (op : Nat) (f : VForm) : Nat :=
  packF [(1, f.x.toNat), (7, f.b.toNat), (7, f.a.toNat), (7, f.d.toNat), (3, f.q.toNat), (7, op)]
def encI (op : Nat) (f : IForm) : Nat :=
  packF [(1, f.x.toNat), (7, f.imm.toNat), (7, f.a.toNat), (7, f.d.toNat), (3, f.q.toNat), (7, op)]
def encW (op : Nat) (f : WForm) : Nat :=
  packF [(1, f.x.toNat), (14, f.imm.toNat), (7, f.d.toNat), (3, f.q.toNat), (7, op)]
def encL (op : Nat) (f : LForm) : Nat :=
  packF [(1, 0), (9, f.cnt.toNat), (10, f.len.toNat), (2, f.lc.toNat), (3, 0), (7, op)]
def decV (w : Nat) : VForm :=
  let l := unpackF layV w; ⟨bvAt l 4 3, bvAt l 3 7, bvAt l 2 7, bvAt l 1 7, boolAt l 0⟩
def decI (w : Nat) : IForm :=
  let l := unpackF layV w; ⟨bvAt l 4 3, bvAt l 3 7, bvAt l 2 7, bvAt l 1 7, boolAt l 0⟩
def decW (w : Nat) : WForm :=
  let l := unpackF layW w; ⟨bvAt l 3 3, bvAt l 2 7, bvAt l 1 14, boolAt l 0⟩
def decL (w : Nat) : LForm :=
  let l := unpackF layL w; ⟨bvAt l 3 2, bvAt l 2 10, bvAt l 1 9⟩

/-! The line-processor word of R319: IMM, reserved, C, B, A, D, F, OP from bit 0. -/

def layLn : List Nat := [32, 4, 4, 4, 4, 4, 4, 8]
def encLn (op : Nat) (f : LnForm) : Nat :=
  packF [(32, f.imm.toNat), (4, 0), (4, f.c.toNat), (4, f.b.toNat), (4, f.a.toNat), (4, f.d.toNat), (4, f.f.toNat), (8, op)]
def decLn (w : Nat) : LnForm :=
  let l := unpackF layLn w; ⟨bvAt l 6 4, bvAt l 5 4, bvAt l 4 4, bvAt l 3 4, bvAt l 2 4, bvAt l 0 32⟩

/-- The encoding of an instruction: which stream it stands in, and its word (R109-R112, R175-R178, R235, R269, R320,
R340). An event has none; the idle execute slot is given as slot A's. -/
def encode : Instr → Option (EncUnit × Nat)
  | .add d a b => some (.sq32, packG 0x20 d.toNat a.toNat b.toNat 0x000)
  | .sub d a b => some (.sq32, packG 0x20 d.toNat a.toNat b.toNat 0x001)
  | .and d a b => some (.sq32, packG 0x20 d.toNat a.toNat b.toNat 0x002)
  | .or d a b => some (.sq32, packG 0x20 d.toNat a.toNat b.toNat 0x003)
  | .xor d a b => some (.sq32, packG 0x20 d.toNat a.toNat b.toNat 0x004)
  | .shl d a b => some (.sq32, packG 0x20 d.toNat a.toNat b.toNat 0x005)
  | .shr d a b => some (.sq32, packG 0x20 d.toNat a.toNat b.toNat 0x006)
  | .sar d a b => some (.sq32, packG 0x20 d.toNat a.toNat b.toNat 0x007)
  | .cmpLt d a b => some (.sq32, packG 0x20 d.toNat a.toNat b.toNat 0x008)
  | .cmpLtu d a b => some (.sq32, packG 0x20 d.toNat a.toNat b.toNat 0x009)
  | .min d a b => some (.sq32, packG 0x20 d.toNat a.toNat b.toNat 0x00A)
  | .max d a b => some (.sq32, packG 0x20 d.toNat a.toNat b.toNat 0x00B)
  | .minU d a b => some (.sq32, packG 0x20 d.toNat a.toNat b.toNat 0x00C)
  | .maxU d a b => some (.sq32, packG 0x20 d.toNat a.toNat b.toNat 0x00D)
  | .mul d a b => some (.sq32, packG 0x20 d.toNat a.toNat b.toNat 0x010)
  | .mulHi d a b => some (.sq32, packG 0x20 d.toNat a.toNat b.toNat 0x011)
  | .mulHiu d a b => some (.sq32, packG 0x20 d.toNat a.toNat b.toNat 0x012)
  | .div d a b => some (.sq32, packG 0x20 d.toNat a.toNat b.toNat 0x014)
  | .divU d a b => some (.sq32, packG 0x20 d.toNat a.toNat b.toNat 0x015)
  | .rem d a b => some (.sq32, packG 0x20 d.toNat a.toNat b.toNat 0x016)
  | .remU d a b => some (.sq32, packG 0x20 d.toNat a.toNat b.toNat 0x017)
  | .clz d a => some (.sq32, packG 0x20 d.toNat a.toNat 0 0x018)
  | .popc d a => some (.sq32, packG 0x20 d.toNat a.toNat 0 0x019)
  | .addImm d a imm => some (.sq32, packK 0x01 d.toNat a.toNat imm.toNat)
  | .andImm d a imm => some (.sq32, packK 0x02 d.toNat a.toNat imm.toNat)
  | .orImm d a imm => some (.sq32, packK 0x03 d.toNat a.toNat imm.toNat)
  | .xorImm d a imm => some (.sq32, packK 0x04 d.toNat a.toNat imm.toNat)
  | .cmpLtImm d a imm => some (.sq32, packK 0x05 d.toNat a.toNat imm.toNat)
  | .cmpLtuImm d a imm => some (.sq32, packK 0x06 d.toNat a.toNat imm.toNat)
  | .shlImm d a imm => some (.sq32, packK 0x07 d.toNat a.toNat imm.toNat)
  | .shrImm d a imm => some (.sq32, packK 0x08 d.toNat a.toNat imm.toNat)
  | .sarImm d a imm => some (.sq32, packK 0x09 d.toNat a.toNat imm.toNat)
  | .lup d imm => some (.sq32, packH 0x0A d.toNat imm.toNat)
  | .brEq a b off => some (.sq32, packK 0x10 a.toNat b.toNat off.toNat)
  | .brNe a b off => some (.sq32, packK 0x11 a.toNat b.toNat off.toNat)
  | .brLt a b off => some (.sq32, packK 0x12 a.toNat b.toNat off.toNat)
  | .brGe a b off => some (.sq32, packK 0x13 a.toNat b.toNat off.toNat)
  | .brLtu a b off => some (.sq32, packK 0x14 a.toNat b.toNat off.toNat)
  | .brGeu a b off => some (.sq32, packK 0x15 a.toNat b.toNat off.toNat)
  | .jmp d off => some (.sq32, packH 0x16 d.toNat off.toNat)
  | .jmpr d a imm => some (.sq32, packK 0x17 d.toNat a.toNat imm.toNat)
  | .crr d crn => some (.sq32, packC 0x18 d.toNat 0 0 crn.toNat)
  | .crw crn a => some (.sq32, packC 0x18 0 a.toNat 1 crn.toNat)
  | .crs d crn a => some (.sq32, packC 0x18 d.toNat a.toNat 2 crn.toNat)
  | .crc d crn a => some (.sq32, packC 0x18 d.toNat a.toNat 3 crn.toNat)
  | .fenceC scope mask => some (.sq32, packFC 0x19 scope.code mask.toNat)
  | .fenceX scope paths => some (.sq32, packFX 0x1A scope.code paths.toNat)
  | .trap imm => some (.sq32, packS 0x1B 0 imm.toNat)
  | .mbw n a => some (.sq32, packG 0x1C n.toNat a.toNat 0 0)
  | .pushf a => some (.sq32, packG 0x1C 0 a.toNat 0 1)
  | .fbpop d => some (.sq32, packG 0x1C d.toNat 0 0 2)
  | .fbtry d => some (.sq32, packG 0x1C d.toNat 0 0 3)
  | .semsig n a => some (.sq32, packG 0x1C n.toNat a.toNat 0 4)
  | .semwait n a => some (.sq32, packG 0x1C n.toNat a.toNat 0 5)
  | .semrd d n => some (.sq32, packG 0x1C d.toNat n.toNat 0 6)
  | .launch a b => some (.sq32, packG 0x1C 0 a.toNat b.toNat 7)
  | .ld f => some (.sq64, pack64 0x00 f.r.toNat f.b.toNat 0 f.cls.toNat f.ty.code 0 (f.off.toNat))
  | .st f => some (.sq64, pack64 0x01 0 f.b.toNat f.r.toNat f.cls.toNat f.ty.code 0 (f.off.toNat))
  | .ldp f => some (.sq64, pack64 0x02 f.r.toNat f.b.toNat 0 f.cls.toNat f.ty.code 0 (f.off.toNat))
  | .stp f => some (.sq64, pack64 0x03 0 f.b.toNat f.r.toNat f.cls.toNat f.ty.code 0 (f.off.toNat))
  | .ldAcq f => some (.sq64, pack64 0x04 f.r.toNat f.b.toNat 0 0 f.ty.code f.scope.code (packF [(16, f.off.toNat), (16, f.mask.toNat)]))
  | .stRel f => some (.sq64, pack64 0x05 0 f.b.toNat f.r.toNat 0 f.ty.code f.scope.code (packF [(16, f.off.toNat), (16, f.mask.toNat)]))
  | .ldSc f => some (.sq64, pack64 0x06 f.r.toNat f.b.toNat 0 0 f.ty.code 0 (f.off.toNat))
  | .stSc f => some (.sq64, pack64 0x07 0 f.b.toNat f.r.toNat 0 f.ty.code 0 (f.off.toNat))
  | .waitge f => some (.sq64, pack64 0x08 f.d.toNat f.b.toNat f.sv.toNat 0 f.ty.code f.scope.code (packLW f.st.toNat 0 f.off.toNat))
  | .waiteq f => some (.sq64, pack64 0x09 f.d.toNat f.b.toNat f.sv.toNat 0 f.ty.code f.scope.code (packLW f.st.toNat 0 f.off.toNat))
  | .atmAdd f => some (.sq64, pack64 0x0A f.d.toNat f.b.toNat f.v.toNat f.cls.toNat f.ty.code f.scope.code (packLW 0 0 f.off.toNat))
  | .atmAnd f => some (.sq64, pack64 0x0A f.d.toNat f.b.toNat f.v.toNat f.cls.toNat f.ty.code f.scope.code (packLW 0 1 f.off.toNat))
  | .atmOr f => some (.sq64, pack64 0x0A f.d.toNat f.b.toNat f.v.toNat f.cls.toNat f.ty.code f.scope.code (packLW 0 2 f.off.toNat))
  | .atmXor f => some (.sq64, pack64 0x0A f.d.toNat f.b.toNat f.v.toNat f.cls.toNat f.ty.code f.scope.code (packLW 0 3 f.off.toNat))
  | .atmMin f => some (.sq64, pack64 0x0A f.d.toNat f.b.toNat f.v.toNat f.cls.toNat f.ty.code f.scope.code (packLW 0 4 f.off.toNat))
  | .atmMax f => some (.sq64, pack64 0x0A f.d.toNat f.b.toNat f.v.toNat f.cls.toNat f.ty.code f.scope.code (packLW 0 5 f.off.toNat))
  | .atmMinU f => some (.sq64, pack64 0x0A f.d.toNat f.b.toNat f.v.toNat f.cls.toNat f.ty.code f.scope.code (packLW 0 6 f.off.toNat))
  | .atmMaxU f => some (.sq64, pack64 0x0A f.d.toNat f.b.toNat f.v.toNat f.cls.toNat f.ty.code f.scope.code (packLW 0 7 f.off.toNat))
  | .atmSwap f => some (.sq64, pack64 0x0A f.d.toNat f.b.toNat f.v.toNat f.cls.toNat f.ty.code f.scope.code (packLW 0 8 f.off.toNat))
  | .atmCas f n => some (.sq64, pack64 0x0A f.d.toNat f.b.toNat f.v.toNat f.cls.toNat f.ty.code f.scope.code (packLW n.toNat 9 f.off.toNat))
  | .atmAddSc f => some (.sq64, pack64 0x0B f.d.toNat f.b.toNat f.v.toNat 0 f.ty.code 0 (packLW 0 0 f.off.toNat))
  | .atmAndSc f => some (.sq64, pack64 0x0B f.d.toNat f.b.toNat f.v.toNat 0 f.ty.code 0 (packLW 0 1 f.off.toNat))
  | .atmOrSc f => some (.sq64, pack64 0x0B f.d.toNat f.b.toNat f.v.toNat 0 f.ty.code 0 (packLW 0 2 f.off.toNat))
  | .atmXorSc f => some (.sq64, pack64 0x0B f.d.toNat f.b.toNat f.v.toNat 0 f.ty.code 0 (packLW 0 3 f.off.toNat))
  | .atmMinSc f => some (.sq64, pack64 0x0B f.d.toNat f.b.toNat f.v.toNat 0 f.ty.code 0 (packLW 0 4 f.off.toNat))
  | .atmMaxSc f => some (.sq64, pack64 0x0B f.d.toNat f.b.toNat f.v.toNat 0 f.ty.code 0 (packLW 0 5 f.off.toNat))
  | .atmMinUSc f => some (.sq64, pack64 0x0B f.d.toNat f.b.toNat f.v.toNat 0 f.ty.code 0 (packLW 0 6 f.off.toNat))
  | .atmMaxUSc f => some (.sq64, pack64 0x0B f.d.toNat f.b.toNat f.v.toNat 0 f.ty.code 0 (packLW 0 7 f.off.toNat))
  | .atmSwapSc f => some (.sq64, pack64 0x0B f.d.toNat f.b.toNat f.v.toNat 0 f.ty.code 0 (packLW 0 8 f.off.toNat))
  | .atmCasSc f n => some (.sq64, pack64 0x0B f.d.toNat f.b.toNat f.v.toNat 0 f.ty.code 0 (packLW n.toNat 9 f.off.toNat))
  | .li d imm => some (.sq64, pack64 0x10 d.toNat 0 0 0 0 0 (imm.toNat))
  | .lih d imm => some (.sq64, pack64 0x11 d.toNat 0 0 0 0 0 (imm.toNat))
  | .pushbEx blk => some (.sq64, pack64 0x18 0 0 0 0 0 0 (blk.toNat))
  | .pushtMx f => some (.sq64, pack64 0x19 0 f.a.toNat f.b.toNat 0 0 0 (packLQ f.tidx.toNat f.pmask.toNat f.c.toNat))
  | .pushrMx a => some (.sq64, pack64 0x1A 0 a.toNat 0 0 0 0 (0))
  | .pushtCp f => some (.sq64, pack64 0x1B 0 f.a.toNat f.b.toNat 0 0 0 (packLQ f.tidx.toNat f.pmask.toNat f.c.toNat))
  | .pushrCp a => some (.sq64, pack64 0x1C 0 a.toNat 0 0 0 0 (0))
  | .pushtAl f => some (.sq64, pack64 0x1D 0 f.a.toNat f.b.toNat 0 0 0 (packLQ f.tidx.toNat f.pmask.toNat f.c.toNat))
  | .pushrAl a => some (.sq64, pack64 0x1E 0 a.toNat 0 0 0 0 (0))
  | .vaddI32 f => some (.slotA, encV 0x01 f)
  | .vsubI32 f => some (.slotA, encV 0x02 f)
  | .vaddsI32 f => some (.slotA, encV 0x03 f)
  | .vsubsI32 f => some (.slotA, encV 0x04 f)
  | .vmulI32 f => some (.slotA, encV 0x05 f)
  | .vmulhI32 f => some (.slotA, encV 0x06 f)
  | .vminI32 f => some (.slotA, encV 0x07 f)
  | .vmaxI32 f => some (.slotA, encV 0x08 f)
  | .vminN32 f => some (.slotA, encV 0x09 f)
  | .vmaxN32 f => some (.slotA, encV 0x0A f)
  | .vand f => some (.slotA, encV 0x0B f)
  | .vor f => some (.slotA, encV 0x0C f)
  | .vxor f => some (.slotA, encV 0x0D f)
  | .vandn f => some (.slotA, encV 0x0E f)
  | .vshl f => some (.slotA, encV 0x0F f)
  | .vshr f => some (.slotA, encV 0x10 f)
  | .vsra f => some (.slotA, encV 0x11 f)
  | .vaddminI32 f => some (.slotA, encV 0x12 f)
  | .vaddiI32 f => some (.slotA, encI 0x20 f)
  | .vshli f => some (.slotA, encI 0x21 f)
  | .vshri f => some (.slotA, encI 0x22 f)
  | .vsrai f => some (.slotA, encI 0x23 f)
  | .vminiI32 f => some (.slotA, encI 0x24 f)
  | .vmaxiI32 f => some (.slotA, encI 0x25 f)
  | .vceqI32 f => some (.slotA, encV 0x30 f)
  | .vcltI32 f => some (.slotA, encV 0x31 f)
  | .vcleI32 f => some (.slotA, encV 0x32 f)
  | .vcltN32 f => some (.slotA, encV 0x33 f)
  | .vplrd f => some (.slotA, encI 0x40 f)
  | .vplwr f => some (.slotA, encI 0x41 f)
  | .vpladd f => some (.slotA, encI 0x42 f)
  | .vaddF32 f => some (.slotB, encV 0x01 f)
  | .vsubF32 f => some (.slotB, encV 0x02 f)
  | .vmulF32 f => some (.slotB, encV 0x03 f)
  | .vfmaF32 f => some (.slotB, encV 0x04 f)
  | .vminF32 f => some (.slotB, encV 0x05 f)
  | .vmaxF32 f => some (.slotB, encV 0x06 f)
  | .vaddBf f => some (.slotB, encV 0x09 f)
  | .vsubBf f => some (.slotB, encV 0x0A f)
  | .vmulBf f => some (.slotB, encV 0x0B f)
  | .vfmaBf f => some (.slotB, encV 0x0C f)
  | .vminBf f => some (.slotB, encV 0x0D f)
  | .vmaxBf f => some (.slotB, encV 0x0E f)
  | .vceqF32 f => some (.slotB, encV 0x10 f)
  | .vcltF32 f => some (.slotB, encV 0x11 f)
  | .vcleF32 f => some (.slotB, encV 0x12 f)
  | .vcvtF32 f => some (.slotB, encV 0x18 f)
  | .vcvtBf f => some (.slotB, encV 0x19 f)
  | .vcvtI32 f => some (.slotB, encV 0x1A f)
  | .vcvtF8 f => some (.slotB, encV 0x1B f)
  | .vcvtBp f => some (.slotB, encV 0x1C f)
  | .vitpBf f => some (.slotB, encV 0x20 f)
  | .vcbxBp16 f => some (.slotB, encV 0x21 f)
  | .vcbxBf f => some (.slotB, encV 0x22 f)
  | .vcbxVq4 f => some (.slotB, encV 0x23 f)
  | .cbswap f => some (.slotB, encW 0x28 f)
  | .vsel f => some (.slotC, encV 0x01 f)
  | .vslu f => some (.slotC, encI 0x02 f)
  | .vsld f => some (.slotC, encI 0x03 f)
  | .vperm f => some (.slotC, encV 0x04 f)
  | .vbcst f => some (.slotC, encI 0x05 f)
  | .vfsu f => some (.slotC, encV 0x06 f)
  | .qand f => some (.slotC, encV 0x10 f)
  | .qor f => some (.slotC, encV 0x11 f)
  | .qxor f => some (.slotC, encV 0x12 f)
  | .qandn f => some (.slotC, encV 0x13 f)
  | .qnot f => some (.slotC, encV 0x14 f)
  | .qleni f => some (.slotC, encW 0x15 f)
  | .qlen f => some (.slotC, encV 0x16 f)
  | .qset f => some (.slotC, encV 0x17 f)
  | .vraddI32 f => some (.slotC, encV 0x20 f)
  | .vrminI32 f => some (.slotC, encV 0x21 f)
  | .vrmaxI32 f => some (.slotC, encV 0x22 f)
  | .vraddF32 f => some (.slotC, encV 0x23 f)
  | .vrminF32 f => some (.slotC, encV 0x24 f)
  | .vrmaxF32 f => some (.slotC, encV 0x25 f)
  | .vraddBf f => some (.slotC, encV 0x26 f)
  | .vpop f => some (.slotD, encV 0x01 f)
  | .vpush f => some (.slotD, encV 0x02 f)
  | .vpushc f => some (.slotD, encV 0x03 f)
  | .vpopx f => some (.slotD, encV 0x04 f)
  | .vmov f => some (.slotD, encV 0x08 f)
  | .vmovi f => some (.slotD, encW 0x09 f)
  | .vmovmb f => some (.slotD, encV 0x0A f)
  | .vmovlc f => some (.slotD, encV 0x0B f)
  | .loop f => some (.slotD, encL 0x10 f)
  | .loopm f => some (.slotD, encL 0x11 f)
  | .loopc f => some (.slotD, encL 0x12 f)
  | .vxi f => some (.slotD, encW 0x18 f)
  | .vxa f => some (.slotD, encW 0x19 f)
  | .semw f => some (.slotD, encW 0x20 f)
  | .sems f => some (.slotD, encW 0x21 f)
  | .fbput f => some (.slotD, encI 0x22 f)
  | .pat f => some (.cp, packF [(8, 1), (8, 0), (3, f.slot.toNat), (45, 0), (16, f.runM1.toNat), (16, f.c1M1.toNat), (16, f.c2M1.toNat), (16, f.c3M1.toNat), (32, f.s1.toNat), (32, f.s2.toNat), (32, f.s3.toNat), (32, 0)])
  | .copy f => some (.cp, packF [(8, 2), (1, f.t.cw.toNat), (1, f.t.ro.toNat), (2, f.t.ckm.toNat), (1, f.t.chain.toNat), (1, f.t.check.toNat), (1, f.t.spool.toNat), (1, f.t.dpool.toNat), (5, f.sfmt.toNat), (5, f.dfmt.toNat), (1, f.cvt.toNat), (5, 0), (32, f.len.toNat), (48, f.src.toNat), (16, (f.t.expect.toNat / 65536)), (48, f.dst.toNat), (16, f.t.expect.toNat), (48, f.t.caddr.toNat), (16, f.t.cval.toNat)])
  | .copya f => some (.cp, packF [(8, 3), (1, f.t.cw.toNat), (1, f.t.ro.toNat), (2, f.t.ckm.toNat), (1, f.t.chain.toNat), (1, f.t.check.toNat), (1, f.t.spool.toNat), (1, f.t.dpool.toNat), (5, f.sfmt.toNat), (5, f.dfmt.toNat), (1, f.cvt.toNat), (3, f.spat.toNat), (3, f.dpat.toNat), (31, 0), (48, f.src.toNat), (16, (f.t.expect.toNat / 65536)), (48, f.dst.toNat), (16, f.t.expect.toNat), (48, f.t.caddr.toNat), (16, f.t.cval.toNat)])
  | .gather f => some (.cp, packF [(8, 4), (1, f.t.cw.toNat), (1, f.t.ro.toNat), (2, f.t.ckm.toNat), (1, f.t.chain.toNat), (1, f.t.check.toNat), (1, f.t.spool.toNat), (1, f.t.dpool.toNat), (16, f.rlenM1.toNat), (12, f.countM1.toNat), (20, f.idx.toNat), (48, f.src.toNat), (16, (f.t.expect.toNat / 65536)), (48, f.dst.toNat), (16, f.t.expect.toNat), (48, f.t.caddr.toNat), (16, f.t.cval.toNat)])
  | .scatter f => some (.cp, packF [(8, 5), (1, f.t.cw.toNat), (1, f.t.ro.toNat), (2, f.t.ckm.toNat), (1, f.t.chain.toNat), (1, f.t.check.toNat), (1, f.t.spool.toNat), (1, f.t.dpool.toNat), (16, f.rlenM1.toNat), (12, f.countM1.toNat), (20, f.idx.toNat), (48, f.src.toNat), (16, (f.t.expect.toNat / 65536)), (48, f.dst.toNat), (16, f.t.expect.toNat), (48, f.t.caddr.toNat), (16, f.t.cval.toNat)])
  | .fill f => some (.cp, packF [(8, 6), (1, f.t.cw.toNat), (1, f.t.ro.toNat), (2, f.t.ckm.toNat), (1, f.t.chain.toNat), (1, f.t.check.toNat), (1, f.t.spool.toNat), (1, f.t.dpool.toNat), (16, 0), (32, f.len.toNat), (64, f.patv.toNat), (48, f.dst.toNat), (16, 0), (48, f.t.caddr.toNat), (16, f.t.cval.toNat)])
  | .bind f => some (.cp, packF [(8, 7), (1, f.t.cw.toNat), (1, f.t.ro.toNat), (2, f.t.ckm.toNat), (1, f.t.chain.toNat), (1, f.t.check.toNat), (1, f.t.spool.toNat), (1, f.t.dpool.toNat), (4, f.port.toNat), (1, f.out.toNat), (3, f.pat.toNat), (1, f.raw.toNat), (2, 0), (5, f.efmt.toNat), (4, f.depthM1.toNat), (12, f.buf.toNat), (16, 0), (48, f.addr.toNat), (16, (f.t.expect.toNat / 65536)), (32, f.ops.toNat), (16, 0), (16, f.t.expect.toNat), (48, f.t.caddr.toNat), (16, f.t.cval.toNat)])
  | .unbind port t => some (.cp, packF [(8, 8), (1, t.cw.toNat), (1, t.ro.toNat), (2, t.ckm.toNat), (1, t.chain.toNat), (1, t.check.toNat), (1, t.spool.toNat), (1, t.dpool.toNat), (4, port.toNat), (44, 0), (48, 0), (16, (t.expect.toNat / 65536)), (48, 0), (16, t.expect.toNat), (48, t.caddr.toNat), (16, t.cval.toNat)])
  | .unpack f => some (.cp, packF [(8, 9), (1, f.t.cw.toNat), (1, f.t.ro.toNat), (2, f.t.ckm.toNat), (1, f.t.chain.toNat), (1, f.t.check.toNat), (1, f.t.spool.toNat), (1, f.t.dpool.toNat), (8, f.fbuf.toNat), (4, f.rmax.toNat), (4, 0), (32, f.maxo.toNat), (48, f.src.toNat), (16, (f.t.expect.toNat / 65536)), (48, f.dst.toNat), (16, f.t.expect.toNat), (48, f.t.caddr.toNat), (16, f.t.cval.toNat)])
  | .cbld f => some (.cp, packF [(8, 10), (1, f.t.cw.toNat), (1, f.t.ro.toNat), (2, f.t.ckm.toNat), (1, f.t.chain.toNat), (1, f.t.check.toNat), (1, f.t.spool.toNat), (1, f.t.dpool.toNat), (2, f.bank.toNat), (1, f.side.toNat), (9, f.count.toNat), (36, 0), (48, f.src.toNat), (16, (f.t.expect.toNat / 65536)), (48, 0), (16, f.t.expect.toNat), (48, f.t.caddr.toNat), (16, f.t.cval.toNat)])
  | .itld f => some (.cp, packF [(8, 11), (1, f.t.cw.toNat), (1, f.t.ro.toNat), (2, f.t.ckm.toNat), (1, f.t.chain.toNat), (1, f.t.check.toNat), (1, f.t.spool.toNat), (1, f.t.dpool.toNat), (2, f.table.toNat), (1, 0), (9, f.count.toNat), (36, 0), (48, f.src.toNat), (16, (f.t.expect.toNat / 65536)), (48, 0), (16, f.t.expect.toNat), (48, f.t.caddr.toNat), (16, f.t.cval.toNat)])
  | .cmpl t => some (.cp, packF [(8, 12), (1, t.cw.toNat), (1, t.ro.toNat), (2, t.ckm.toNat), (1, t.chain.toNat), (1, t.check.toNat), (1, t.spool.toNat), (1, t.dpool.toNat), (48, 0), (48, 0), (16, (t.expect.toNat / 65536)), (48, 0), (16, t.expect.toNat), (48, t.caddr.toNat), (16, t.cval.toNat)])
  | .ckst dst t => some (.cp, packF [(8, 13), (1, t.cw.toNat), (1, t.ro.toNat), (2, t.ckm.toNat), (1, t.chain.toNat), (1, t.check.toNat), (1, t.spool.toNat), (1, t.dpool.toNat), (48, 0), (48, 0), (16, (t.expect.toNat / 65536)), (48, dst.toNat), (16, t.expect.toNat), (48, t.caddr.toNat), (16, t.cval.toNat)])
  | .mmul f => some (.mx, packF [(8, 1), (1, f.zacc.toNat), (2, f.bsel.toNat), (5, f.kbm1.toNat), (8, f.acc.toNat), (9, f.aop.toNat), (9, f.bop.toNat), (22, 0), (20, f.asca.toNat), (20, f.bsca.toNat), (20, f.mdat.toNat), (4, 0), (16, f.cmask.toNat), (48, 0), (4, f.t.wsem.toNat), (4, 0), (4, f.t.ssem.toNat), (4, 0), (16, f.t.cseq.toNat), (16, f.t.wval.toNat), (16, f.t.sval.toNat)])
  | .mmuls f => some (.mx, packF [(8, 2), (1, f.zacc.toNat), (2, f.bsel.toNat), (5, f.kbm1.toNat), (8, f.acc.toNat), (9, f.aop.toNat), (9, f.bop.toNat), (22, 0), (20, f.asca.toNat), (20, f.bsca.toNat), (20, f.mdat.toNat), (4, 0), (16, f.cmask.toNat), (48, 0), (4, f.t.wsem.toNat), (4, 0), (4, f.t.ssem.toNat), (4, 0), (16, f.t.cseq.toNat), (16, f.t.wval.toNat), (16, f.t.sval.toNat)])
  | .hrot acc side kind t => some (.mx, packF [(8, 3), (1, kind.toNat), (1, side.toNat), (6, 0), (8, acc.toNat), (40, 0), (64, 0), (64, 0), (4, t.wsem.toNat), (4, 0), (4, t.ssem.toNat), (4, 0), (16, t.cseq.toNat), (16, t.wval.toNat), (16, t.sval.toNat)])
  | .drain f => some (.mx, packF [(8, 4), (1, f.clr.toNat), (1, f.uscl.toNat), (1, f.dsce.toNat), (5, 0), (8, f.acc.toNat), (20, f.dst.toNat), (20, 0), (32, f.scl.toNat), (20, f.dsca.toNat), (12, 0), (64, 0), (4, f.t.wsem.toNat), (4, 0), (4, f.t.ssem.toNat), (4, 0), (16, f.t.cseq.toNat), (16, f.t.wval.toNat), (16, f.t.sval.toNat)])
  | .acclr acc kind t => some (.mx, packF [(8, 5), (1, kind.toNat), (7, 0), (8, acc.toNat), (40, 0), (64, 0), (64, 0), (4, t.wsem.toNat), (4, 0), (4, t.ssem.toNat), (4, 0), (16, t.cseq.toNat), (16, t.wval.toNat), (16, t.sval.toNat)])
  | .accadd src acc kind t => some (.mx, packF [(8, 6), (1, kind.toNat), (7, 0), (8, acc.toNat), (20, src.toNat), (20, 0), (64, 0), (64, 0), (4, t.wsem.toNat), (4, 0), (4, t.ssem.toNat), (4, 0), (16, t.cseq.toNat), (16, t.wval.toNat), (16, t.sval.toNat)])
  | .mxCbswap bank t => some (.mx, packF [(8, 7), (2, bank.toNat), (54, 0), (64, 0), (64, 0), (4, t.wsem.toNat), (4, 0), (4, t.ssem.toNat), (4, 0), (16, t.cseq.toNat), (16, t.wval.toNat), (16, t.sval.toNat)])
  | .msem t => some (.mx, packF [(8, 8), (56, 0), (64, 0), (64, 0), (4, t.wsem.toNat), (4, 0), (4, t.ssem.toNat), (4, 0), (16, t.cseq.toNat), (16, t.wval.toNat), (16, t.sval.toNat)])
  | .lnVadd f => some (.ln, encLn 0x01 f)
  | .lnVsub f => some (.ln, encLn 0x02 f)
  | .lnVmul f => some (.ln, encLn 0x03 f)
  | .lnVmac f => some (.ln, encLn 0x04 f)
  | .lnVmin f => some (.ln, encLn 0x05 f)
  | .lnVmax f => some (.ln, encLn 0x06 f)
  | .lnVand f => some (.ln, encLn 0x07 f)
  | .lnVor f => some (.ln, encLn 0x08 f)
  | .lnVxor f => some (.ln, encLn 0x09 f)
  | .lnVclt f => some (.ln, encLn 0x0A f)
  | .lnVceq f => some (.ln, encLn 0x0B f)
  | .lnVshl f => some (.ln, encLn 0x10 f)
  | .lnVshr f => some (.ln, encLn 0x11 f)
  | .lnVsra f => some (.ln, encLn 0x12 f)
  | .lnVrshr f => some (.ln, encLn 0x13 f)
  | .lnVabs f => some (.ln, encLn 0x14 f)
  | .lnVsel f => some (.ln, encLn 0x15 f)
  | .lnVidx f => some (.ln, encLn 0x16 f)
  | .lnVlut f => some (.ln, encLn 0x17 f)
  | .lnVrsum f => some (.ln, encLn 0x18 f)
  | .lnVrmin f => some (.ln, encLn 0x19 f)
  | .lnVrmax f => some (.ln, encLn 0x1A f)
  | .lld f => some (.ln, encLn 0x20 f)
  | .lst f => some (.ln, encLn 0x21 f)
  | .kli f => some (.ln, encLn 0x30 f)
  | .kadd f => some (.ln, encLn 0x31 f)
  | .ksub f => some (.ln, encLn 0x32 f)
  | .kmul f => some (.ln, encLn 0x33 f)
  | .kmin f => some (.ln, encLn 0x34 f)
  | .kmax f => some (.ln, encLn 0x35 f)
  | .kand f => some (.ln, encLn 0x36 f)
  | .kshl f => some (.ln, encLn 0x37 f)
  | .kshr f => some (.ln, encLn 0x38 f)
  | .ksr f => some (.ln, encLn 0x3C f)
  | .rstat f => some (.ln, encLn 0x3D f)
  | .fmem rule part members => some (.al, packF [(8, 1), (6, rule.toNat), (2, 0), (1, part.toNat), (47, 0), (64, members.toNat)])
  | .ftol rule refpos delta dead => some (.al, packF [(8, 2), (6, rule.toNat), (2, 0), (4, refpos.toNat), (44, 0), (32, dead.toNat), (32, delta.toNat)])
  | .fring rule nrecm1 ring => some (.al, packF [(8, 3), (6, rule.toNat), (2, 0), (8, nrecm1.toNat), (40, 0), (48, ring.toNat), (16, 0)])
  | .fcnt rule cnt => some (.al, packF [(8, 4), (6, rule.toNat), (2, 0), (48, 0), (48, cnt.toNat), (16, 0)])
  | .fpeer rule prule mode port => some (.al, packF [(8, 5), (6, rule.toNat), (2, 0), (1, port.toNat), (5, 0), (2, mode.toNat), (6, prule.toNat), (34, 0), (64, 0)])
  | .farm rule => some (.al, packF [(8, 6), (6, rule.toNat), (2, 0), (48, 0), (64, 0)])
  | .fdis rule => some (.al, packF [(8, 7), (6, rule.toNat), (2, 0), (48, 0), (64, 0)])
  | .fforce rule => some (.al, packF [(8, 8), (6, rule.toNat), (2, 0), (48, 0), (64, 0)])
  | .tret => some (.sq32, packS 0x1B 1 0)
  | .region => some (.sq32, packS 0x1B 2 0)
  | .done => some (.sq32, packS 0x1B 3 0)
  | .exNop => some (.slotA, 0)
  | .lnNop => some (.ln, 0)
  | .stallRelease _ => none
  | .loadValueReturn _ _ => none
  | .divisionResult _ => none
  | .hostWindowReadCompletion _ _ _ _ => none
  | .waitWake _ => none
  | .waitTimeout _ => none
  | .timerInterrupt _ => none
  | .feedbackInterrupt _ => none
  | .regionLengthFault _ => none
  | .preemptionRequest _ => none
  | .workItemRestart _ => none
  | .contextEnded _ => none
  | .blockFetch _ => none
  | .blockStart _ => none
  | .operationRetire _ => none
  | .blockComplete _ => none
  | .slipBudgetFault _ => none
  | .cpCommandComplete _ _ => none
  | .bindingEntryAppend _ _ => none
  | .bindingEntryDrain _ _ => none
  | .bindingEnd _ _ => none
  | .peerRefusal _ _ _ => none
  | .peerWriteAck _ _ _ _ _ => none
  | .flitReceive _ _ => none
  | .flitResend _ => none
  | .lkPeerAccess _ _ => none
  | .lkinjWrite _ _ => none
  | .crierCompare _ => none
  | .mxEnterCompute _ => none
  | .mxCommandComplete _ => none
  | .frameRecording _ => none
  | .ruleDeadline _ => none
  | .broadcastReceipt _ => none
  | .csi2FrameStart _ _ => none
  | .csi2FrameEnd _ _ => none
  | .csi2LongPacketStart _ _ _ => none
  | .csi2LongPacketEnd _ _ _ => none
  | .discardedPacket _ _ => none
  | .lidarDatagram _ _ => none
  | .frameSync _ => none
  | .rowDeadline _ => none
  | .ringRowEnter _ => none
  | .millConfigApply _ => none
  | .stripStart _ => none
  | .outputRowComplete _ => none
  | .tileRowWrite _ => none
  | .slotReset _ => none
  | .doorbell _ _ => none
  | .launchAdmit _ => none
  | .launchPrepared _ _ => none
  | .workItemDispatch => none
  | .launchComplete _ _ => none
  | .exceptionRecordWrite _ => none
  | .xheadWrite _ _ => none
  | .answerResume _ _ => none
  | .answerSkip _ _ => none
  | .answerAbort _ _ => none
  | .qkill _ _ _ => none
  | .coalescingTimer _ => none
  | .priorityRise _ _ => none
  | .slowSwap _ _ _ => none
  | .watchdogT1 _ _ => none
  | .watchdogT2 _ _ => none
  | .partitionReset _ => none
  | .resetTimeout _ => none
  | .selfTestSlot _ _ => none
  | .selfTestDispatchStop _ => none
  | .selfTestOverdue _ => none
  | .liveUpdate _ _ => none
  | .standbyTakeover => none
  | .resynchronisation => none
  | .fwcmdRefused _ => none
  | .gptpFirstLock _ _ => none
  | .gptpSync _ _ => none
  | .holdoverEntry => none
  | .tbnowLowRead _ => none
  | .hostBarRead _ _ _ => none
  | .hostBarWrite _ _ _ => none
  | .hostAtomicop => none
  | .registerWrite _ _ _ => none
  | .attest _ => none
  | .readreg _ => none
  | .stage _ _ => none
  | .stagestat => none
  | .usbRequestStall _ => none
  | .deviceReset _ _ => none
  | .reducedService => none
  | .fullService _ => none
  | .softErrorCorrected _ _ => none
  | .coreEvacuation _ _ => none
  | .channelRemapDone _ => none
  | .thermalRelief _ => none
  | .thermalRestore _ => none
  | .clockStepChange => none
  | .ageLimit _ _ => none
  | .thrumolPortTrained _ _ => none
  | .partitionResetComplete _ => none

/-- The register operations of OP 0x20, by FN (R110). -/
def decodeReg (w : Nat) : Option Instr :=
  let l := unpackF layG w
  let d : Reg := bvAt l 1 5
  let a : Reg := bvAt l 2 5
  let b : Reg := bvAt l 3 5
  match l.getD 4 0 with
  | 0x000 => some (.add d a b)
  | 0x001 => some (.sub d a b)
  | 0x002 => some (.and d a b)
  | 0x003 => some (.or d a b)
  | 0x004 => some (.xor d a b)
  | 0x005 => some (.shl d a b)
  | 0x006 => some (.shr d a b)
  | 0x007 => some (.sar d a b)
  | 0x008 => some (.cmpLt d a b)
  | 0x009 => some (.cmpLtu d a b)
  | 0x00A => some (.min d a b)
  | 0x00B => some (.max d a b)
  | 0x00C => some (.minU d a b)
  | 0x00D => some (.maxU d a b)
  | 0x010 => some (.mul d a b)
  | 0x011 => some (.mulHi d a b)
  | 0x012 => some (.mulHiu d a b)
  | 0x014 => some (.div d a b)
  | 0x015 => some (.divU d a b)
  | 0x016 => some (.rem d a b)
  | 0x017 => some (.remU d a b)
  | 0x018 => some (.clz d a)
  | 0x019 => some (.popc d a)
  | _ => none

/-- The engine interface of OP 0x1C, by FN (R111). -/
def decodeIface (w : Nat) : Option Instr :=
  let l := unpackF layG w
  let d : Reg := bvAt l 1 5
  let a : Reg := bvAt l 2 5
  let b : Reg := bvAt l 3 5
  match l.getD 4 0 with
  | 0 => some (.mbw (bvAt l 1 3) a)
  | 1 => some (.pushf a)
  | 2 => some (.fbpop d)
  | 3 => some (.fbtry d)
  | 4 => some (.semsig (bvAt l 1 4) a)
  | 5 => some (.semwait (bvAt l 1 4) a)
  | 6 => some (.semrd d (bvAt l 2 4))
  | 7 => some (.launch a b)
  | _ => none

/-- The candidate of a 32-bit sequencer word, by OP (R109). -/
def candSq32 (w : Nat) : Option Instr :=
  match w / 2 % 64 with
  | 0x01 => let l := unpackF layK w; some (.addImm (bvAt l 1 5) (bvAt l 2 5) (bvAt l 3 15))
  | 0x02 => let l := unpackF layK w; some (.andImm (bvAt l 1 5) (bvAt l 2 5) (bvAt l 3 15))
  | 0x03 => let l := unpackF layK w; some (.orImm (bvAt l 1 5) (bvAt l 2 5) (bvAt l 3 15))
  | 0x04 => let l := unpackF layK w; some (.xorImm (bvAt l 1 5) (bvAt l 2 5) (bvAt l 3 15))
  | 0x05 => let l := unpackF layK w; some (.cmpLtImm (bvAt l 1 5) (bvAt l 2 5) (bvAt l 3 15))
  | 0x06 => let l := unpackF layK w; some (.cmpLtuImm (bvAt l 1 5) (bvAt l 2 5) (bvAt l 3 15))
  | 0x07 => let l := unpackF layK w; some (.shlImm (bvAt l 1 5) (bvAt l 2 5) (bvAt l 3 15))
  | 0x08 => let l := unpackF layK w; some (.shrImm (bvAt l 1 5) (bvAt l 2 5) (bvAt l 3 15))
  | 0x09 => let l := unpackF layK w; some (.sarImm (bvAt l 1 5) (bvAt l 2 5) (bvAt l 3 15))
  | 0x0A => let l := unpackF layH w; some (.lup (bvAt l 1 5) (bvAt l 2 20))
  | 0x10 => let l := unpackF layK w; some (.brEq (bvAt l 1 5) (bvAt l 2 5) (bvAt l 3 15))
  | 0x11 => let l := unpackF layK w; some (.brNe (bvAt l 1 5) (bvAt l 2 5) (bvAt l 3 15))
  | 0x12 => let l := unpackF layK w; some (.brLt (bvAt l 1 5) (bvAt l 2 5) (bvAt l 3 15))
  | 0x13 => let l := unpackF layK w; some (.brGe (bvAt l 1 5) (bvAt l 2 5) (bvAt l 3 15))
  | 0x14 => let l := unpackF layK w; some (.brLtu (bvAt l 1 5) (bvAt l 2 5) (bvAt l 3 15))
  | 0x15 => let l := unpackF layK w; some (.brGeu (bvAt l 1 5) (bvAt l 2 5) (bvAt l 3 15))
  | 0x16 => let l := unpackF layH w; some (.jmp (bvAt l 1 5) (bvAt l 2 20))
  | 0x17 => let l := unpackF layK w; some (.jmpr (bvAt l 1 5) (bvAt l 2 5) (bvAt l 3 15))
  | 0x18 => let l := unpackF layC w
    match l.getD 3 0 with
    | 0 => some (.crr (bvAt l 1 5) (bvAt l 4 12))
    | 1 => some (.crw (bvAt l 4 12) (bvAt l 2 5))
    | 2 => some (.crs (bvAt l 1 5) (bvAt l 4 12) (bvAt l 2 5))
    | 3 => some (.crc (bvAt l 1 5) (bvAt l 4 12) (bvAt l 2 5))
    | _ => none
  | 0x19 => let l := unpackF layFC w; some (.fenceC (Scope.ofCode (l.getD 2 0)) (bvAt l 4 16))
  | 0x1A => let l := unpackF layFX w; some (.fenceX (Scope.ofCode (l.getD 2 0)) (bvAt l 4 8))
  | 0x1B => let l := unpackF layS w
    match l.getD 2 0 with
    | 0 => some (.trap (bvAt l 3 16))
    | 1 => some .tret
    | 2 => some .region
    | 3 => some .done
    | _ => none
  | 0x1C => decodeIface w
  | 0x20 => decodeReg w
  | _ => none

/-- The candidate of a 64-bit sequencer word, by LOP (R112). -/
def candSq64 (w : Nat) : Option Instr :=
  let l := unpackF lay64 w
  match w / 2 % 64 with
  | 0x00 => some (.ld ⟨AccTy.ofCode (l.getD 5 0), bvAt l 4 4, bvAt l 1 5, bvAt l 2 5, bvAt l 8 32⟩)
  | 0x01 => some (.st ⟨AccTy.ofCode (l.getD 5 0), bvAt l 4 4, bvAt l 3 5, bvAt l 2 5, bvAt l 8 32⟩)
  | 0x02 => some (.ldp ⟨AccTy.ofCode (l.getD 5 0), bvAt l 4 4, bvAt l 1 5, bvAt l 2 5, bvAt l 8 32⟩)
  | 0x03 => some (.stp ⟨AccTy.ofCode (l.getD 5 0), bvAt l 4 4, bvAt l 3 5, bvAt l 2 5, bvAt l 8 32⟩)
  | 0x04 => some (.ldAcq ⟨AccTy.ofCode (l.getD 5 0), Scope.ofCode (l.getD 6 0), bvAt l 1 5, bvAt l 2 5, BitVec.ofNat 16 (l.getD 8 0 / 65536), BitVec.ofNat 16 (l.getD 8 0)⟩)
  | 0x05 => some (.stRel ⟨AccTy.ofCode (l.getD 5 0), Scope.ofCode (l.getD 6 0), bvAt l 3 5, bvAt l 2 5, BitVec.ofNat 16 (l.getD 8 0 / 65536), BitVec.ofNat 16 (l.getD 8 0)⟩)
  | 0x06 => some (.ldSc ⟨AccTy.ofCode (l.getD 5 0), bvAt l 1 5, bvAt l 2 5, bvAt l 8 32⟩)
  | 0x07 => some (.stSc ⟨AccTy.ofCode (l.getD 5 0), bvAt l 3 5, bvAt l 2 5, bvAt l 8 32⟩)
  | 0x08 => let v := unpackF layLW (l.getD 8 0); some (.waitge ⟨AccTy.ofCode (l.getD 5 0), Scope.ofCode (l.getD 6 0), bvAt l 1 5, bvAt l 2 5, bvAt l 3 5, bvAt v 0 5, bvAt v 3 16⟩)
  | 0x09 => let v := unpackF layLW (l.getD 8 0); some (.waiteq ⟨AccTy.ofCode (l.getD 5 0), Scope.ofCode (l.getD 6 0), bvAt l 1 5, bvAt l 2 5, bvAt l 3 5, bvAt v 0 5, bvAt v 3 16⟩)
  | 0x0A => let v := unpackF layLW (l.getD 8 0)
    let f : AtmForm := ⟨AccTy.ofCode (l.getD 5 0), bvAt l 4 4, Scope.ofCode (l.getD 6 0), bvAt l 1 5, bvAt l 2 5, bvAt l 3 5, bvAt v 3 16⟩
    match v.getD 2 0 with
    | 0 => some (.atmAdd f)
    | 1 => some (.atmAnd f)
    | 2 => some (.atmOr f)
    | 3 => some (.atmXor f)
    | 4 => some (.atmMin f)
    | 5 => some (.atmMax f)
    | 6 => some (.atmMinU f)
    | 7 => some (.atmMaxU f)
    | 8 => some (.atmSwap f)
    | 9 => some (.atmCas f (bvAt v 0 5))
    | _ => none
  | 0x0B => let v := unpackF layLW (l.getD 8 0)
    let f : AtmScForm := ⟨AccTy.ofCode (l.getD 5 0), bvAt l 1 5, bvAt l 2 5, bvAt l 3 5, bvAt v 3 16⟩
    match v.getD 2 0 with
    | 0 => some (.atmAddSc f)
    | 1 => some (.atmAndSc f)
    | 2 => some (.atmOrSc f)
    | 3 => some (.atmXorSc f)
    | 4 => some (.atmMinSc f)
    | 5 => some (.atmMaxSc f)
    | 6 => some (.atmMinUSc f)
    | 7 => some (.atmMaxUSc f)
    | 8 => some (.atmSwapSc f)
    | 9 => some (.atmCasSc f (bvAt v 0 5))
    | _ => none
  | 0x10 => some (.li (bvAt l 1 5) (bvAt l 8 32))
  | 0x11 => some (.lih (bvAt l 1 5) (bvAt l 8 32))
  | 0x18 => some (.pushbEx (bvAt l 8 16))
  | 0x19 => let v := unpackF layLQ (l.getD 8 0); some (.pushtMx ⟨bvAt l 2 5, bvAt l 3 5, bvAt v 2 5, bvAt v 1 4, bvAt v 0 16⟩)
  | 0x1A => some (.pushrMx (bvAt l 2 5))
  | 0x1B => let v := unpackF layLQ (l.getD 8 0); some (.pushtCp ⟨bvAt l 2 5, bvAt l 3 5, bvAt v 2 5, bvAt v 1 4, bvAt v 0 16⟩)
  | 0x1C => some (.pushrCp (bvAt l 2 5))
  | 0x1D => let v := unpackF layLQ (l.getD 8 0); some (.pushtAl ⟨bvAt l 2 5, bvAt l 3 5, bvAt v 2 5, bvAt v 1 4, bvAt v 0 16⟩)
  | 0x1E => some (.pushrAl (bvAt l 2 5))
  | _ => none

/-- The candidate of a slot A word, by OP (R175). -/
def candSlotA (w : Nat) : Option Instr :=
  match w / 2 ^ 25 with
  | 0x01 => some (.vaddI32 (decV w))
  | 0x02 => some (.vsubI32 (decV w))
  | 0x03 => some (.vaddsI32 (decV w))
  | 0x04 => some (.vsubsI32 (decV w))
  | 0x05 => some (.vmulI32 (decV w))
  | 0x06 => some (.vmulhI32 (decV w))
  | 0x07 => some (.vminI32 (decV w))
  | 0x08 => some (.vmaxI32 (decV w))
  | 0x09 => some (.vminN32 (decV w))
  | 0x0A => some (.vmaxN32 (decV w))
  | 0x0B => some (.vand (decV w))
  | 0x0C => some (.vor (decV w))
  | 0x0D => some (.vxor (decV w))
  | 0x0E => some (.vandn (decV w))
  | 0x0F => some (.vshl (decV w))
  | 0x10 => some (.vshr (decV w))
  | 0x11 => some (.vsra (decV w))
  | 0x12 => some (.vaddminI32 (decV w))
  | 0x20 => some (.vaddiI32 (decI w))
  | 0x21 => some (.vshli (decI w))
  | 0x22 => some (.vshri (decI w))
  | 0x23 => some (.vsrai (decI w))
  | 0x24 => some (.vminiI32 (decI w))
  | 0x25 => some (.vmaxiI32 (decI w))
  | 0x30 => some (.vceqI32 (decV w))
  | 0x31 => some (.vcltI32 (decV w))
  | 0x32 => some (.vcleI32 (decV w))
  | 0x33 => some (.vcltN32 (decV w))
  | 0x40 => some (.vplrd (decI w))
  | 0x41 => some (.vplwr (decI w))
  | 0x42 => some (.vpladd (decI w))
  | _ => none

/-- The candidate of a slot B word, by OP (R176). -/
def candSlotB (w : Nat) : Option Instr :=
  match w / 2 ^ 25 with
  | 0x01 => some (.vaddF32 (decV w))
  | 0x02 => some (.vsubF32 (decV w))
  | 0x03 => some (.vmulF32 (decV w))
  | 0x04 => some (.vfmaF32 (decV w))
  | 0x05 => some (.vminF32 (decV w))
  | 0x06 => some (.vmaxF32 (decV w))
  | 0x09 => some (.vaddBf (decV w))
  | 0x0A => some (.vsubBf (decV w))
  | 0x0B => some (.vmulBf (decV w))
  | 0x0C => some (.vfmaBf (decV w))
  | 0x0D => some (.vminBf (decV w))
  | 0x0E => some (.vmaxBf (decV w))
  | 0x10 => some (.vceqF32 (decV w))
  | 0x11 => some (.vcltF32 (decV w))
  | 0x12 => some (.vcleF32 (decV w))
  | 0x18 => some (.vcvtF32 (decV w))
  | 0x19 => some (.vcvtBf (decV w))
  | 0x1A => some (.vcvtI32 (decV w))
  | 0x1B => some (.vcvtF8 (decV w))
  | 0x1C => some (.vcvtBp (decV w))
  | 0x20 => some (.vitpBf (decV w))
  | 0x21 => some (.vcbxBp16 (decV w))
  | 0x22 => some (.vcbxBf (decV w))
  | 0x23 => some (.vcbxVq4 (decV w))
  | 0x28 => some (.cbswap (decW w))
  | _ => none

/-- The candidate of a slot C word, by OP (R177). -/
def candSlotC (w : Nat) : Option Instr :=
  match w / 2 ^ 25 with
  | 0x01 => some (.vsel (decV w))
  | 0x02 => some (.vslu (decI w))
  | 0x03 => some (.vsld (decI w))
  | 0x04 => some (.vperm (decV w))
  | 0x05 => some (.vbcst (decI w))
  | 0x06 => some (.vfsu (decV w))
  | 0x10 => some (.qand (decV w))
  | 0x11 => some (.qor (decV w))
  | 0x12 => some (.qxor (decV w))
  | 0x13 => some (.qandn (decV w))
  | 0x14 => some (.qnot (decV w))
  | 0x15 => some (.qleni (decW w))
  | 0x16 => some (.qlen (decV w))
  | 0x17 => some (.qset (decV w))
  | 0x20 => some (.vraddI32 (decV w))
  | 0x21 => some (.vrminI32 (decV w))
  | 0x22 => some (.vrmaxI32 (decV w))
  | 0x23 => some (.vraddF32 (decV w))
  | 0x24 => some (.vrminF32 (decV w))
  | 0x25 => some (.vrmaxF32 (decV w))
  | 0x26 => some (.vraddBf (decV w))
  | _ => none

/-- The candidate of a slot D word, by OP (R178). -/
def candSlotD (w : Nat) : Option Instr :=
  match w / 2 ^ 25 with
  | 0x01 => some (.vpop (decV w))
  | 0x02 => some (.vpush (decV w))
  | 0x03 => some (.vpushc (decV w))
  | 0x04 => some (.vpopx (decV w))
  | 0x08 => some (.vmov (decV w))
  | 0x09 => some (.vmovi (decW w))
  | 0x0A => some (.vmovmb (decV w))
  | 0x0B => some (.vmovlc (decV w))
  | 0x10 => some (.loop (decL w))
  | 0x11 => some (.loopm (decL w))
  | 0x12 => some (.loopc (decL w))
  | 0x18 => some (.vxi (decW w))
  | 0x19 => some (.vxa (decW w))
  | 0x20 => some (.semw (decW w))
  | 0x21 => some (.sems (decW w))
  | 0x22 => some (.fbput (decI w))
  | _ => none

/-- The candidate of a matrix command, by OP (R269). -/
def candMx (w : Nat) : Option Instr :=
  match w % 256 with
  | 0x01 => let l := unpackF [8, 1, 2, 5, 8, 9, 9, 22, 20, 20, 20, 4, 16, 48, 4, 4, 4, 4, 16, 16, 16] w; some (.mmul ⟨bvAt l 6 9, bvAt l 5 9, bvAt l 4 8, bvAt l 3 5, bvAt l 2 2, boolAt l 1, bvAt l 10 20, bvAt l 9 20, bvAt l 8 20, bvAt l 12 16, ⟨bvAt l 20 16, bvAt l 19 16, bvAt l 18 16, bvAt l 16 4, bvAt l 14 4⟩⟩)
  | 0x02 => let l := unpackF [8, 1, 2, 5, 8, 9, 9, 22, 20, 20, 20, 4, 16, 48, 4, 4, 4, 4, 16, 16, 16] w; some (.mmuls ⟨bvAt l 6 9, bvAt l 5 9, bvAt l 4 8, bvAt l 3 5, bvAt l 2 2, boolAt l 1, bvAt l 10 20, bvAt l 9 20, bvAt l 8 20, bvAt l 12 16, ⟨bvAt l 20 16, bvAt l 19 16, bvAt l 18 16, bvAt l 16 4, bvAt l 14 4⟩⟩)
  | 0x03 => let l := unpackF [8, 1, 1, 6, 8, 40, 64, 64, 4, 4, 4, 4, 16, 16, 16] w; some (.hrot (bvAt l 4 8) (boolAt l 2) (boolAt l 1) ⟨bvAt l 14 16, bvAt l 13 16, bvAt l 12 16, bvAt l 10 4, bvAt l 8 4⟩)
  | 0x04 => let l := unpackF [8, 1, 1, 1, 5, 8, 20, 20, 32, 20, 12, 64, 4, 4, 4, 4, 16, 16, 16] w; some (.drain ⟨bvAt l 6 20, bvAt l 5 8, boolAt l 3, boolAt l 2, boolAt l 1, bvAt l 9 20, bvAt l 8 32, ⟨bvAt l 18 16, bvAt l 17 16, bvAt l 16 16, bvAt l 14 4, bvAt l 12 4⟩⟩)
  | 0x05 => let l := unpackF [8, 1, 7, 8, 40, 64, 64, 4, 4, 4, 4, 16, 16, 16] w; some (.acclr (bvAt l 3 8) (boolAt l 1) ⟨bvAt l 13 16, bvAt l 12 16, bvAt l 11 16, bvAt l 9 4, bvAt l 7 4⟩)
  | 0x06 => let l := unpackF [8, 1, 7, 8, 20, 20, 64, 64, 4, 4, 4, 4, 16, 16, 16] w; some (.accadd (bvAt l 4 20) (bvAt l 3 8) (boolAt l 1) ⟨bvAt l 14 16, bvAt l 13 16, bvAt l 12 16, bvAt l 10 4, bvAt l 8 4⟩)
  | 0x07 => let l := unpackF [8, 2, 54, 64, 64, 4, 4, 4, 4, 16, 16, 16] w; some (.mxCbswap (bvAt l 1 2) ⟨bvAt l 11 16, bvAt l 10 16, bvAt l 9 16, bvAt l 7 4, bvAt l 5 4⟩)
  | 0x08 => let l := unpackF [8, 56, 64, 64, 4, 4, 4, 4, 16, 16, 16] w; some (.msem ⟨bvAt l 10 16, bvAt l 9 16, bvAt l 8 16, bvAt l 6 4, bvAt l 4 4⟩)
  | _ => none

/-- The candidate of a copy command, by OP (R235). -/
def candCp (w : Nat) : Option Instr :=
  match w % 256 with
  | 0x01 => let l := unpackF [8, 8, 3, 45, 16, 16, 16, 16, 32, 32, 32, 32] w; some (.pat ⟨bvAt l 2 3, bvAt l 4 16, bvAt l 5 16, bvAt l 6 16, bvAt l 7 16, bvAt l 8 32, bvAt l 9 32, bvAt l 10 32⟩)
  | 0x02 => let l := unpackF [8, 1, 1, 2, 1, 1, 1, 1, 5, 5, 1, 5, 32, 48, 16, 48, 16, 48, 16] w; some (.copy ⟨bvAt l 12 32, boolAt l 10, bvAt l 9 5, bvAt l 8 5, bvAt l 13 48, bvAt l 15 48, ⟨boolAt l 7, boolAt l 6, boolAt l 5, boolAt l 4, bvAt l 3 2, boolAt l 2, boolAt l 1, BitVec.ofNat 32 (l.getD 14 0 * 65536 + l.getD 16 0), bvAt l 18 16, bvAt l 17 48⟩⟩)
  | 0x03 => let l := unpackF [8, 1, 1, 2, 1, 1, 1, 1, 5, 5, 1, 3, 3, 31, 48, 16, 48, 16, 48, 16] w; some (.copya ⟨bvAt l 12 3, bvAt l 11 3, boolAt l 10, bvAt l 9 5, bvAt l 8 5, bvAt l 14 48, bvAt l 16 48, ⟨boolAt l 7, boolAt l 6, boolAt l 5, boolAt l 4, bvAt l 3 2, boolAt l 2, boolAt l 1, BitVec.ofNat 32 (l.getD 15 0 * 65536 + l.getD 17 0), bvAt l 19 16, bvAt l 18 48⟩⟩)
  | 0x04 => let l := unpackF [8, 1, 1, 2, 1, 1, 1, 1, 16, 12, 20, 48, 16, 48, 16, 48, 16] w; some (.gather ⟨bvAt l 10 20, bvAt l 9 12, bvAt l 8 16, bvAt l 11 48, bvAt l 13 48, ⟨boolAt l 7, boolAt l 6, boolAt l 5, boolAt l 4, bvAt l 3 2, boolAt l 2, boolAt l 1, BitVec.ofNat 32 (l.getD 12 0 * 65536 + l.getD 14 0), bvAt l 16 16, bvAt l 15 48⟩⟩)
  | 0x05 => let l := unpackF [8, 1, 1, 2, 1, 1, 1, 1, 16, 12, 20, 48, 16, 48, 16, 48, 16] w; some (.scatter ⟨bvAt l 10 20, bvAt l 9 12, bvAt l 8 16, bvAt l 11 48, bvAt l 13 48, ⟨boolAt l 7, boolAt l 6, boolAt l 5, boolAt l 4, bvAt l 3 2, boolAt l 2, boolAt l 1, BitVec.ofNat 32 (l.getD 12 0 * 65536 + l.getD 14 0), bvAt l 16 16, bvAt l 15 48⟩⟩)
  | 0x06 => let l := unpackF [8, 1, 1, 2, 1, 1, 1, 1, 16, 32, 64, 48, 16, 48, 16] w; some (.fill ⟨bvAt l 9 32, bvAt l 10 64, bvAt l 11 48, ⟨boolAt l 7, boolAt l 6, boolAt l 5, boolAt l 4, bvAt l 3 2, boolAt l 2, boolAt l 1, 0, bvAt l 14 16, bvAt l 13 48⟩⟩)
  | 0x07 => let l := unpackF [8, 1, 1, 2, 1, 1, 1, 1, 4, 1, 3, 1, 2, 5, 4, 12, 16, 48, 16, 32, 16, 16, 48, 16] w; some (.bind ⟨bvAt l 15 12, bvAt l 14 4, bvAt l 13 5, boolAt l 11, bvAt l 10 3, boolAt l 9, bvAt l 8 4, bvAt l 17 48, bvAt l 19 32, ⟨boolAt l 7, boolAt l 6, boolAt l 5, boolAt l 4, bvAt l 3 2, boolAt l 2, boolAt l 1, BitVec.ofNat 32 (l.getD 18 0 * 65536 + l.getD 21 0), bvAt l 23 16, bvAt l 22 48⟩⟩)
  | 0x08 => let l := unpackF [8, 1, 1, 2, 1, 1, 1, 1, 4, 44, 48, 16, 48, 16, 48, 16] w; some (.unbind (bvAt l 8 4) ⟨boolAt l 7, boolAt l 6, boolAt l 5, boolAt l 4, bvAt l 3 2, boolAt l 2, boolAt l 1, BitVec.ofNat 32 (l.getD 11 0 * 65536 + l.getD 13 0), bvAt l 15 16, bvAt l 14 48⟩)
  | 0x09 => let l := unpackF [8, 1, 1, 2, 1, 1, 1, 1, 8, 4, 4, 32, 48, 16, 48, 16, 48, 16] w; some (.unpack ⟨bvAt l 11 32, bvAt l 9 4, bvAt l 8 8, bvAt l 12 48, bvAt l 14 48, ⟨boolAt l 7, boolAt l 6, boolAt l 5, boolAt l 4, bvAt l 3 2, boolAt l 2, boolAt l 1, BitVec.ofNat 32 (l.getD 13 0 * 65536 + l.getD 15 0), bvAt l 17 16, bvAt l 16 48⟩⟩)
  | 0x0A => let l := unpackF [8, 1, 1, 2, 1, 1, 1, 1, 2, 1, 9, 36, 48, 16, 48, 16, 48, 16] w; some (.cbld ⟨bvAt l 10 9, boolAt l 9, bvAt l 8 2, bvAt l 12 48, ⟨boolAt l 7, boolAt l 6, boolAt l 5, boolAt l 4, bvAt l 3 2, boolAt l 2, boolAt l 1, BitVec.ofNat 32 (l.getD 13 0 * 65536 + l.getD 15 0), bvAt l 17 16, bvAt l 16 48⟩⟩)
  | 0x0B => let l := unpackF [8, 1, 1, 2, 1, 1, 1, 1, 2, 1, 9, 36, 48, 16, 48, 16, 48, 16] w; some (.itld ⟨bvAt l 10 9, bvAt l 8 2, bvAt l 12 48, ⟨boolAt l 7, boolAt l 6, boolAt l 5, boolAt l 4, bvAt l 3 2, boolAt l 2, boolAt l 1, BitVec.ofNat 32 (l.getD 13 0 * 65536 + l.getD 15 0), bvAt l 17 16, bvAt l 16 48⟩⟩)
  | 0x0C => let l := unpackF [8, 1, 1, 2, 1, 1, 1, 1, 48, 48, 16, 48, 16, 48, 16] w; some (.cmpl ⟨boolAt l 7, boolAt l 6, boolAt l 5, boolAt l 4, bvAt l 3 2, boolAt l 2, boolAt l 1, BitVec.ofNat 32 (l.getD 10 0 * 65536 + l.getD 12 0), bvAt l 14 16, bvAt l 13 48⟩)
  | 0x0D => let l := unpackF [8, 1, 1, 2, 1, 1, 1, 1, 48, 48, 16, 48, 16, 48, 16] w; some (.ckst (bvAt l 11 48) ⟨boolAt l 7, boolAt l 6, boolAt l 5, boolAt l 4, bvAt l 3 2, boolAt l 2, boolAt l 1, BitVec.ofNat 32 (l.getD 10 0 * 65536 + l.getD 12 0), bvAt l 14 16, bvAt l 13 48⟩)
  | _ => none

/-- The candidate of a line-processor word, by OP (R320). -/
def candLn (w : Nat) : Option Instr :=
  match w / 2 ^ 56 with
  | 0x01 => some (.lnVadd (decLn w))
  | 0x02 => some (.lnVsub (decLn w))
  | 0x03 => some (.lnVmul (decLn w))
  | 0x04 => some (.lnVmac (decLn w))
  | 0x05 => some (.lnVmin (decLn w))
  | 0x06 => some (.lnVmax (decLn w))
  | 0x07 => some (.lnVand (decLn w))
  | 0x08 => some (.lnVor (decLn w))
  | 0x09 => some (.lnVxor (decLn w))
  | 0x0A => some (.lnVclt (decLn w))
  | 0x0B => some (.lnVceq (decLn w))
  | 0x10 => some (.lnVshl (decLn w))
  | 0x11 => some (.lnVshr (decLn w))
  | 0x12 => some (.lnVsra (decLn w))
  | 0x13 => some (.lnVrshr (decLn w))
  | 0x14 => some (.lnVabs (decLn w))
  | 0x15 => some (.lnVsel (decLn w))
  | 0x16 => some (.lnVidx (decLn w))
  | 0x17 => some (.lnVlut (decLn w))
  | 0x18 => some (.lnVrsum (decLn w))
  | 0x19 => some (.lnVrmin (decLn w))
  | 0x1A => some (.lnVrmax (decLn w))
  | 0x20 => some (.lld (decLn w))
  | 0x21 => some (.lst (decLn w))
  | 0x30 => some (.kli (decLn w))
  | 0x31 => some (.kadd (decLn w))
  | 0x32 => some (.ksub (decLn w))
  | 0x33 => some (.kmul (decLn w))
  | 0x34 => some (.kmin (decLn w))
  | 0x35 => some (.kmax (decLn w))
  | 0x36 => some (.kand (decLn w))
  | 0x37 => some (.kshl (decLn w))
  | 0x38 => some (.kshr (decLn w))
  | 0x3C => some (.ksr (decLn w))
  | 0x3D => some (.rstat (decLn w))
  | _ => none

/-- What to make of each alignment command's fields (R340): a family of functions to one type. With the constructors of
`Instr` it gives the instruction; with the meanings it gives the next state. -/
structure AlCases (α : Type) where
  fmem : BitVec 6 → Bool → W64 → α
  ftol : BitVec 6 → BitVec 4 → W32 → W32 → α
  fring : BitVec 6 → Byte → Addr → α
  fcnt : BitVec 6 → Addr → α
  fpeer : BitVec 6 → BitVec 6 → BitVec 2 → Bool → α
  farm : BitVec 6 → α
  fdis : BitVec 6 → α
  fforce : BitVec 6 → α

def layFmem : List Nat := [8, 6, 2, 1, 47, 64]
def layFtol : List Nat := [8, 6, 2, 4, 44, 32, 32]
def layFring : List Nat := [8, 6, 2, 8, 40, 48, 16]
def layFcnt : List Nat := [8, 6, 2, 48, 48, 16]
def layFpeer : List Nat := [8, 6, 2, 1, 5, 2, 6, 34, 64]

/-- A field list whose named positions hold zero. -/
def zerosAt (l : List Nat) (is : List Nat) : Bool := is.all fun i => l.getD i 0 == 0

/-- Decodes an alignment command (R340): `none` where R350 calls it illegal. -/
def decodeAlWith {α : Type} (k : AlCases α) (w : Nat) : Option α :=
  let rule : BitVec 6 := bvAt (unpackF layFcnt w) 1 6
  match w % 256 with
  | 0x01 =>
    let l := unpackF layFmem w
    if zerosAt l [2, 4] && membersOk (bvAt l 5 64) then some (k.fmem rule (boolAt l 3) (bvAt l 5 64)) else none
  | 0x02 =>
    let l := unpackF layFtol w
    if zerosAt l [2, 4] then some (k.ftol rule (bvAt l 3 4) (bvAt l 6 32) (bvAt l 5 32)) else none
  | 0x03 =>
    let l := unpackF layFring w
    if zerosAt l [2, 4, 6] then some (k.fring rule (bvAt l 3 8) (bvAt l 5 48)) else none
  | 0x04 =>
    let l := unpackF layFcnt w
    if zerosAt l [2, 3, 5] then some (k.fcnt rule (bvAt l 4 48)) else none
  | 0x05 =>
    let l := unpackF layFpeer w
    if zerosAt l [2, 4, 7, 8] && l.getD 5 0 != 3 && (l.getD 5 0 == 1 || zerosAt l [3, 6]) then
      some (k.fpeer rule (bvAt l 6 6) (bvAt l 5 2) (boolAt l 3))
    else none
  | 0x06 => if zerosAt (unpackF layFcnt w) [2, 3, 4, 5] then some (k.farm rule) else none
  | 0x07 => if zerosAt (unpackF layFcnt w) [2, 3, 4, 5] then some (k.fdis rule) else none
  | 0x08 => if zerosAt (unpackF layFcnt w) [2, 3, 4, 5] then some (k.fforce rule) else none
  | _ => none

/-- The candidate instruction of a word of a stream other than the alignment commands'. -/
def candidate : EncUnit → Nat → Option Instr
  | .sq32, w => candSq32 w
  | .sq64, w => candSq64 w
  | .slotA, w => candSlotA w
  | .slotB, w => candSlotB w
  | .slotC, w => candSlotC w
  | .slotD, w => candSlotD w
  | .mx, w => candMx w
  | .cp, w => candCp w
  | .al, _ => none
  | .ln, w => candLn w

/-- The instruction a word of a stream is, or none where the spec refuses it; alignment commands are decoded by
`decodeAl`. The all-zero slot and the all-zero line-processor word are `nop` (R173, R319). -/
def decode (u : EncUnit) (w : Nat) : Option Instr :=
  if w = 0 ∧ (u = .slotA ∨ u = .slotB ∨ u = .slotC ∨ u = .slotD) then some .exNop
  else if w = 0 ∧ u = .ln then some .lnNop
  else match candidate u w with
    | some i => if i.wf && encode i == some (u, w) then some i else none
    | none => none

/-- The constructors of the alignment commands. Lean's run time builds no constructor numbered above 244, so this and
`decodeAl` are for statements; the machine runs `decodeAlWith` on the meanings. -/
noncomputable def alInstrs : AlCases Instr :=
  ⟨.fmem, .ftol, .fring, .fcnt, .fpeer, .farm, .fdis, .fforce⟩

/-- The alignment command a 128-bit word is (R340). -/
noncomputable def decodeAl (w : Nat) : Option Instr := decodeAlWith alInstrs w

/-- A little-endian number of a list of bytes (R1). -/
def leNat : List Byte → Nat
  | [] => 0
  | b :: r => b.toNat + 256 * leNat r

/-- The `n` little-endian bytes of a number (R1). -/
def leBytes : Nat → Nat → List Byte
  | 0, _ => []
  | n + 1, x => BitVec.ofNat 8 x :: leBytes n (x / 256)

/-- The sequencer instruction whose first word is `w0` and, when bit 0 of `w0` is 1, whose second word is `w1`; with its
length in bytes (R105). -/
def decodeSeqWords (w0 w1 : Nat) : Option (Instr × Nat) :=
  if w0 % 2 = 0 then (decode .sq32 w0).map fun i => (i, 4)
  else (decode .sq64 (w0 + 2 ^ 32 * w1)).map fun i => (i, 8)

/-- The sequencer instruction at the head of a list of bytes in memory order. -/
def decodeSeqBytes (l : List Byte) : Option (Instr × Nat) :=
  decodeSeqWords (leNat (l.take 4)) (leNat ((l.drop 4).take 4))

/-- The bytes of an instruction of the opcode table: `w` in 8 bytes, little-endian, the first word at the lowest
address; the bits above `nbits` are zero. -/
def tableBytes (nbits w : Nat) : List Byte := leBytes 8 (w % 2 ^ nbits)

/-- The instruction the decoder reads from a word of the opcode table. -/
def decodeTableWord (nbits w : Nat) : Option Instr := (decodeSeqBytes (tableBytes nbits w)).map (·.1)

end Sys2Proof
end

