-- ==== Sys2Proof/Machine/Bits.lean ====
section
/-! DEFINITION. Numbers, planes and codebooks (spec/02): the formats of R36, floating point of R46 and R47, the one
rounding of R48, balanced digits of R37 to R41, and the small integer helpers the engines share. -/

namespace Sys2Proof.Machine

/-! ## Integers -/

/-- The low `n` bits of `x` read as two's complement. -/
def sextN (n x : Nat) : Int :=
  let y := x % 2 ^ n
  if y < 2 ^ (n - 1) then (y : Int) else (y : Int) - (2 ^ n : Nat)

/-- An integer modulo 2^n. -/
def wrapN (n : Nat) (x : Int) : Nat := (x % ((2 ^ n : Nat) : Int)).toNat

/-- `x` held between `lo` and `hi`. -/
def satI (x lo hi : Int) : Int := if x < lo then lo else if hi < x then hi else x

/-- The number of bits of a natural number: 0 for 0, else 1 + floor log2. -/
def bitLen (x : Nat) : Nat := if x = 0 then 0 else Nat.log2 x + 1

/-- Bits `hi` down to `lo` of `x`. -/
def bitsOf (x hi lo : Nat) : Nat := x / 2 ^ lo % 2 ^ (hi + 1 - lo)

/-- The ceiling of `a / b`. -/
def cdiv (a b : Nat) : Nat := (a + b - 1) / b

/-! ## Rounding -/

/-- `m / 2^s` rounded to nearest, ties to even (R9), and whether it was inexact. -/
def rneShift (m s : Nat) : Nat × Bool :=
  let q := m / 2 ^ s
  let r := m % 2 ^ s
  if r = 0 then (q, false)
  else if 2 * r < 2 ^ s then (q, true)
  else if 2 ^ s < 2 * r then (q + 1, true)
  else (q + q % 2, true)

/-- The value `m · 2^e` rounded to a multiple of `2^q`, as that multiple's count, and whether it was inexact. -/
def rneAt (m : Nat) (e q : Int) : Nat × Bool :=
  if q ≤ e then (m * 2 ^ (e - q).toNat, false) else rneShift m (q - e).toNat

/-! ## Flags of R47 -/

/-- NX, UF, OF, NV, SA from bit 0. -/
abbrev FlagSet := BitVec 5
def flNX : FlagSet := 1
def flUF : FlagSet := 2
def flOF : FlagSet := 4
def flNV : FlagSet := 8
def flSA : FlagSet := 16
/-- Saturation of a conversion or a floating-point result: SA never without NX (R47). -/
def flSaNx : FlagSet := 17
/-- A flag raised under a condition. -/
def flagIf (c : Bool) (f : FlagSet) : FlagSet := if c then f else 0

/-! ## Floating-point values -/

/-- A floating-point format of R46: exponent bits, fraction bits, bias. -/
structure FFmt where
  eb : Nat
  mb : Nat
  bias : Nat
  deriving DecidableEq, Repr

def fp32 : FFmt := ⟨8, 23, 127⟩
def bf16 : FFmt := ⟨8, 7, 127⟩
def fp8 : FFmt := ⟨4, 3, 7⟩

/-- FP8 E4M3 has no infinity (R46). -/
def FFmt.noInf (f : FFmt) : Bool := f.eb == 4

/-- An exact value: a NaN, signalling or not; an infinity; or (−1)^neg · m · 2^e. -/
inductive FVal
  | nan (signalling : Bool)
  | inf (neg : Bool)
  | fin (neg : Bool) (m : Nat) (e : Int)
  deriving DecidableEq, Repr

/-- The canonical quiet NaN of R47. -/
def FFmt.qnan (f : FFmt) : Nat :=
  if f.noInf then 0x7F else (2 ^ f.eb - 1) * 2 ^ f.mb + 2 ^ (f.mb - 1)

/-- The largest finite magnitude's bits (R46). -/
def FFmt.maxFin (f : FFmt) : Nat :=
  if f.noInf then 0x7E else (2 ^ f.eb - 1) * 2 ^ f.mb - 1

/-- The sign bit of a format. -/
def FFmt.signBit (f : FFmt) (neg : Bool) : Nat := if neg then 2 ^ (f.mb + f.eb) else 0

/-- The value of an encoding (R46). A NaN is signalling when its highest fraction bit is 0; the FP8 NaN is quiet. -/
def FFmt.dec (f : FFmt) (w : Nat) : FVal :=
  let neg := w / 2 ^ (f.mb + f.eb) % 2 == 1
  let ex := w / 2 ^ f.mb % 2 ^ f.eb
  let fr := w % 2 ^ f.mb
  if f.noInf && ex == 15 && fr == 7 then .nan false
  else if !f.noInf && ex == 2 ^ f.eb - 1 then
    if fr = 0 then .inf neg else .nan (fr < 2 ^ (f.mb - 1))
  else if ex = 0 then .fin neg fr (1 - (f.bias : Int) - f.mb)
  else .fin neg (2 ^ f.mb + fr) ((ex : Int) - f.bias - f.mb)

/-- Rounds `(−1)^neg · m · 2^e` once into a format (R47, R48): round to nearest even, subnormals kept, tininess after
rounding. FP8 saturates to ±448 with SA and NX; the other formats overflow to infinity with OF and NX. -/
def FFmt.round (f : FFmt) (neg : Bool) (m : Nat) (e : Int) : Nat × FlagSet :=
  if m = 0 then (f.signBit neg, 0)
  else
    let top : Int := (bitLen m : Int) - 1 + e
    let emin : Int := 1 - f.bias
    let ee : Int := if top < emin then emin else top
    let r := rneAt m e (ee - f.mb)
    let ul := rneAt m e (top - f.mb)
    let tiny := decide (top < emin) && !(decide (2 ^ f.mb * 2 ^ (emin - top).toNat ≤ ul.1))
    let carry := 2 ^ (f.mb + 1) ≤ r.1
    let mant := if carry then r.1 / 2 else r.1
    let ee' : Int := if carry then ee + 1 else ee
    let biased : Nat := if 2 ^ f.mb ≤ mant then (ee' + f.bias).toNat else 0
    let mag := biased * 2 ^ f.mb + mant % 2 ^ f.mb
    if f.maxFin < mag then
      if f.noInf then (f.signBit neg + 0x7E, flSaNx)
      else (f.signBit neg + (2 ^ f.eb - 1) * 2 ^ f.mb, flOF ||| flNX)
    else (f.signBit neg + mag, flagIf r.2 flNX ||| flagIf (r.2 && tiny) flUF)

/-- Writes an exact value into a format (R47, R48). -/
def FFmt.enc (f : FFmt) : FVal → Nat × FlagSet
  | .nan s => (f.qnan, flagIf s flNV)
  | .inf neg =>
    if f.noInf then (f.signBit neg + 0x7E, flSaNx) else (f.signBit neg + (2 ^ f.eb - 1) * 2 ^ f.mb, 0)
  | .fin neg m e => f.round neg m e

def FVal.isNaN : FVal → Bool
  | .nan _ => true
  | _ => false
def FVal.isSNaN : FVal → Bool
  | .nan s => s
  | _ => false
def FVal.neg : FVal → FVal
  | .nan s => .nan s
  | .inf n => .inf (!n)
  | .fin n m e => .fin (!n) m e
/-- The value times 2^k. -/
def FVal.scale (k : Int) : FVal → FVal
  | .nan s => .nan s
  | .inf n => .inf n
  | .fin n m e => .fin n m (e + k)
/-- The value of an integer. -/
def FVal.ofInt (x : Int) : FVal := .fin (x < 0) x.natAbs 0

/-- The signed significand of a finite value at exponent `q ≤ e`. -/
def signedAt (neg : Bool) (m : Nat) (e q : Int) : Int :=
  let a : Int := (m * 2 ^ (e - q).toNat : Nat)
  if neg then -a else a

/-- A result that may be the invalid operation of R47. -/
def FVal.addV : FVal → FVal → Option FVal
  | .inf a, .inf b => if a == b then some (.inf a) else none
  | .inf a, _ => some (.inf a)
  | _, .inf b => some (.inf b)
  | .fin na ma ea, .fin nb mb eb =>
    let q := if ea < eb then ea else eb
    let s := signedAt na ma ea q + signedAt nb mb eb q
    if s = 0 then some (.fin (na && nb) 0 0) else some (.fin (s < 0) s.natAbs q)
  | .nan s, _ => some (.nan s)
  | _, .nan s => some (.nan s)

def FVal.isZero : FVal → Bool
  | .fin _ m _ => m == 0
  | _ => false

def FVal.sign : FVal → Bool
  | .nan _ => false
  | .inf n => n
  | .fin n _ _ => n

/-- The exact product, none for 0 × ∞. -/
def FVal.mulV (a b : FVal) : Option FVal :=
  match a, b with
  | .fin na ma ea, .fin nb mb eb => some (.fin (na != nb) (ma * mb) (ea + eb))
  | .nan s, _ => some (.nan s)
  | _, .nan s => some (.nan s)
  | x, y => if x.isZero || y.isZero then none else some (.inf (x.sign != y.sign))

/-- Rounds an operation's exact result into a format; the invalid operation gives the canonical NaN with NV (R196). -/
def FFmt.result (f : FFmt) : Option FVal → Nat × FlagSet
  | none => (f.qnan, flNV)
  | some v => f.enc v

/-- A NaN among the operands gives the canonical NaN, with NV when one of them is signalling (R47). -/
def FFmt.withNaN (f : FFmt) (vs : List FVal) (r : Option FVal) : Nat × FlagSet :=
  if vs.any FVal.isNaN then (f.qnan, flagIf (vs.any FVal.isSNaN) flNV) else f.result r

/-- rne(a + b) (R196). -/
def FFmt.add (f : FFmt) (a b : Nat) : Nat × FlagSet :=
  let x := f.dec a; let y := f.dec b; f.withNaN [x, y] (x.addV y)
/-- rne(a − b) (R196). -/
def FFmt.sub (f : FFmt) (a b : Nat) : Nat × FlagSet :=
  let x := f.dec a; let y := f.dec b; f.withNaN [x, y] (x.addV y.neg)
/-- rne(a × b) (R196). -/
def FFmt.mul (f : FFmt) (a b : Nat) : Nat × FlagSet :=
  let x := f.dec a; let y := f.dec b; f.withNaN [x, y] (x.mulV y)
/-- rne(a × b + c), one rounding; a product 0 × ∞ is invalid whatever the addend (R196). -/
def FFmt.fma (f : FFmt) (a b c : Nat) : Nat × FlagSet :=
  let x := f.dec a; let y := f.dec b; let z := f.dec c
  if !x.isNaN && !y.isNaN && (x.mulV y).isNone then (f.qnan, flNV)
  else f.withNaN [x, y, z] (match x.mulV y with | some p => p.addV z | none => none)

/-- The order of R197 on encodings that are no NaN: −0 below +0. -/
def FFmt.key (f : FFmt) (w : Nat) : Int :=
  let mag : Int := (w % 2 ^ (f.mb + f.eb) : Nat)
  if w / 2 ^ (f.mb + f.eb) % 2 == 1 then -mag - 1 else mag

/-- The smaller or, with `max`, the larger (R197). -/
def FFmt.minmax (f : FFmt) (max : Bool) (a b : Nat) : Nat × FlagSet :=
  let x := f.dec a
  let y := f.dec b
  if x.isNaN || y.isNaN then (f.qnan, flagIf (x.isSNaN || y.isSNaN) flNV)
  else if max then (if f.key a < f.key b then b else a, 0)
  else (if f.key b < f.key a then b else a, 0)

/-- The relations of R198. -/
inductive FRel | eq | lt | le
  deriving DecidableEq, Repr

/-- An ordered value in which −0 = +0. -/
def FFmt.cmpKey (f : FFmt) (w : Nat) : Int :=
  let mag : Int := (w % 2 ^ (f.mb + f.eb) : Nat)
  if w / 2 ^ (f.mb + f.eb) % 2 == 1 then -mag else mag

/-- A comparison of R198 with its NV. -/
def FFmt.cmp (f : FFmt) (r : FRel) (a b : Nat) : Bool × FlagSet :=
  let x := f.dec a
  let y := f.dec b
  if x.isNaN || y.isNaN then (false, flagIf (x.isSNaN || y.isSNaN || r != .eq) flNV)
  else
    (match r with
      | .eq => decide (f.cmpKey a = f.cmpKey b)
      | .lt => decide (f.cmpKey a < f.cmpKey b)
      | .le => decide (f.cmpKey a ≤ f.cmpKey b), 0)

/-! ## Integers from values -/

/-- A finite value rounded to an integer, and whether a fraction was rounded away. -/
def rneInt (neg : Bool) (m : Nat) (e : Int) : Int × Bool :=
  let r := rneAt m e 0
  (if neg then -(r.1 : Int) else r.1, r.2)

/-- A value rounded to an integer and saturated to [lo, hi] (R48): NaN gives 0 with NV. -/
def toIntSat (lo hi : Int) : FVal → Int × FlagSet
  | .nan _ => (0, flNV)
  | .inf neg => (if neg then lo else hi, flSaNx)
  | .fin neg m e =>
    let r := rneInt neg m e
    if r.1 < lo ∨ hi < r.1 then (satI r.1 lo hi, flSaNx) else (r.1, flagIf r.2 flNX)

/-! ## Balanced digits -/

/-- The range of an element of `n` planes, balanced or natural (R36, R38). -/
def planeLo (signed : Bool) (n : Nat) : Int := if signed then -8 * ((16 ^ n - 1 : Nat) / 15 : Nat) else 0
def planeHi (signed : Bool) (n : Nat) : Int :=
  if signed then 7 * ((16 ^ n - 1 : Nat) / 15 : Nat) else ((16 ^ n - 1 : Nat) : Int)

/-- The digits of an integer, `n` of them, packed with d0 highest (R40). -/
def packDigits (signed : Bool) : Nat → Int → Nat
  | 0, _ => 0
  | n + 1, y =>
    let d : Int := if signed then (y + 8) % 16 - 8 else y % 16
    16 * packDigits signed n ((y - d) / 16) + (d % 16).toNat

/-- bp_encode of R40 for a value in digit-integer units: digits packed with d0 highest, and flags. -/
def bpEncode (signed : Bool) (n : Nat) (v : FVal) : Nat × FlagSet :=
  let r := toIntSat (planeLo signed n) (planeHi signed n) v
  (packDigits signed n r.1, r.2)

/-- A digit's value (R37). -/
def digitVal (signed : Bool) (nib : Nat) : Int := if signed then sextN 4 nib else (nib % 16 : Nat)

/-- The digit integer of `s` packed digits, d0 highest (R38). -/
def planeVal (signed : Bool) : Nat → Nat → Int
  | 0, _ => 0
  | s + 1, p => planeVal signed s (p / 16) * 16 + digitVal signed p

/-- The digit integer with only the leading `n` of `s` planes read (R38). -/
def planeRead (signed : Bool) (s n p : Nat) : Int :=
  let m := s - (if n < s then n else s)
  planeVal signed s (p / 16 ^ m * 16 ^ m)

/-- bp_pladd of R41 on `s` packed digits: adds `delta` into plane `j`. -/
def bpPladd (s j p : Nat) (delta : Int) : Nat × FlagSet :=
  let low := 16 ^ (s - 1 - j)
  let u := planeVal true (j + 1) (p / low) + delta
  let lo := planeLo true (j + 1)
  let hi := planeHi true (j + 1)
  (packDigits true (j + 1) (satI u lo hi) * low + p % low, flagIf (u < lo || hi < u) flSA)

/-- The stride of a plane block of `s` planes (R42). -/
def planeStride (s : Nat) : Nat := if s = 1 then 16 else if s = 2 then 32 else 64

/-! ## Planes in bytes (R42) and index streams (R50) -/

/-- The digits of element `el` of a plane vector of `sp` planes, d0 highest (R42, R209). -/
def elemDigits (bs : List Byte) (sp el : Nat) : Nat :=
  let b := el / 32
  let i := el % 32
  (List.range sp).foldl (fun acc j =>
    acc * 16 + (bs.getD (planeStride sp * b + 16 * j + i / 2) 0).toNat / 16 ^ (i % 2) % 16) 0

/-- The bytes of planes 0 to `np` − 1 of block `b`, from the packed digits of its 32 elements (R42). -/
def blockBytes (base sp np b : Nat) (el : Nat → Nat) : List (Nat × Byte) :=
  (List.range np).flatMap fun j => (List.range 16).map fun k =>
    let dig (i : Nat) : Nat := el i / 16 ^ (sp - 1 - j) % 16
    (base + planeStride sp * b + 16 * j + k, BitVec.ofNat 8 (dig (2 * k) + 16 * dig (2 * k + 1)))

/-- Index `t` of width `w` in a little-endian bit stream (R50). -/
def indexAt (bs : Nat) (w t : Nat) : Nat := bs / 2 ^ (w * t) % 2 ^ w

/-- The index width of a code (R215). -/
def idxWidth (wc : Nat) : Nat := if wc = 0 then 4 else if wc = 1 then 6 else 8

/-- The consecutive `w`-byte numbers of a byte list. -/
def numsOf (w : Nat) (bs : List Byte) : List Nat := (List.range (bs.length / w)).map fun i => leNat ((bs.drop (w * i)).take w)

/-! ## Formats by code (R36) -/

def fmtIsPlane (c : Nat) : Bool := c < 8
def fmtIsFloat (c : Nat) : Bool := c == 0x10 || c == 0x11 || c == 0x12
def fmtIsInt (c : Nat) : Bool := c == 0x08 || c == 0x09 || c == 0x0A || c == 0x0B
def fmtIsNat (c : Nat) : Bool := c == 0x0C || c == 0x0D || c == 0x0E
def fmtPlanes (c : Nat) : Nat := c % 4 + 1
def fmtSigned (c : Nat) : Bool := c / 4 % 2 == 0
def fmtFloat (c : Nat) : FFmt := if c = 0x10 then bf16 else if c = 0x11 then fp32 else fp8
/-- Bits of an element (R36). -/
def fmtBits (c : Nat) : Nat :=
  match c with
  | 0x08 => 8 | 0x09 => 16 | 0x0A => 32 | 0x0B => 64 | 0x0C => 8 | 0x0D => 16 | 0x0E => 32
  | 0x10 => 16 | 0x11 => 32 | 0x12 => 8 | 0x13 => 4 | 0x14 => 6 | 0x15 => 8
  | _ => if c < 8 then 4 * (c % 4 + 1) else 0
/-- Bytes of a format's element, 0 for the plane formats. -/
def fmtBytes (c : Nat) : Nat := if c < 8 then 0 else fmtBits c / 8

/-- The exact value of an element's bits; plane digits packed with d0 highest. -/
def decVal (c bits : Nat) : FVal :=
  if fmtIsFloat c then (fmtFloat c).dec bits
  else if fmtIsInt c then .ofInt (sextN (fmtBits c) bits)
  else if fmtIsPlane c then .ofInt (planeVal (fmtSigned c) (fmtPlanes c) bits)
  else .ofInt ((bits % 2 ^ fmtBits c : Nat) : Int)

/-- Writes a value into a format, rounding once (R40, R48). -/
def encVal (c : Nat) (v : FVal) : Nat × FlagSet :=
  if fmtIsFloat c then (fmtFloat c).enc v
  else if fmtIsPlane c then bpEncode (fmtSigned c) (fmtPlanes c) v
  else
    let w := fmtBits c
    let lo : Int := if fmtIsInt c then -(2 ^ (w - 1) : Nat) else 0
    let hi : Int := if fmtIsInt c then ((2 ^ (w - 1) - 1 : Nat) : Int) else ((2 ^ w - 1 : Nat) : Int)
    let r := toIntSat lo hi v
    (wrapN w r.1, r.2)

/-- A conversion of R48, R201, R202 and R242: from format `sc` to format `dc`, once, from the exact source value. Equal
formats copy, except that a NaN becomes the canonical NaN. Between plane formats the crema keeps its place. -/
def convertVal (sc dc bits : Nat) : Nat × FlagSet :=
  let v := decVal sc bits
  if sc = dc then
    if v.isNaN then ((fmtFloat sc).qnan, flagIf v.isSNaN flNV) else (bits % 2 ^ fmtBits sc, 0)
  else if fmtIsPlane sc && fmtIsPlane dc then
    encVal dc (v.scale (4 * ((fmtPlanes dc : Int) - fmtPlanes sc)))
  else encVal dc v

end Sys2Proof.Machine
end

