-- ==== Sys2Proof/Config.lean ====
section
/-! DEFINITION. What the spec leaves open and what an implementation fixes: free values (log entry 2), the fuses (log
entry 7) and the random numbers of signatures (log entry 8). Nothing here has a body: no proof can see a value. -/

namespace Sys2Proof.Config

/-- The free byte drawn `n`-th: an undefined byte of R8 (log entry 2). -/
opaque freeByte : Nat → Byte
/-- The free dword drawn `n`-th: an undefined value of R8 (log entry 2). -/
opaque freeWord : Nat → W64
/-- Where in DRAM, in pages, firmware keeps what a slow swap saves, for the swap drawn `n`-th (R369; log entry 31). -/
opaque swapPage : Nat → Nat
/-- Whether the second port refuses an operand read of a context's matrix engine in a clock of compute, as the 16-clock rule of R66
may (R279; log entry 94). -/
opaque portRefused : Nat → Nat → Bool
/-- The 64-bit device identity of the fuses (R391; log entry 7). -/
opaque fuseDevId : W64
/-- The private half of the identity key pair (R391; log entry 7). -/
opaque idPrivate : Nat
/-- The fuse minimum version before any update raises it (R389; log entry 7). -/
opaque fuseMinVer : W32
/-- The digest of key slots 0 to 3 with its revoke bit (R387; log entry 7). -/
opaque fuseSlot : Fin 4 → List Byte × Bool
/-- The random number of the signature drawn `n`-th (R391; log entry 8). -/
opaque signRandom : Nat → Nat

end Sys2Proof.Config
end

