-- ==== Sys2Proof/Machine/State.lean ====
section
/-! DEFINITION. The state of the device, as plain data, and the state after reset.

Sparse parts (contexts, streams, processors) are tables of (index, value) pairs; an index not listed stands for the
part's reset value. -/

namespace Sys2Proof.Machine

/-- Bytes by address, addresses strictly rising, no 0x00 listed; an unlisted byte reads 0x00 (log entry 1). -/
abbrev Mem := List Host.Cell
/-- A sparse table. -/
abbrev Tab (α : Type) := List (Nat × α)

/-- A lease entry of R68. -/
structure Lease where
  base : Nat
  npage : Nat
  w : Bool
  rd : Bool
  deriving DecidableEq, Repr

/-- A read-only range of R69: an Apern image (R28) or a compressed tensor. -/
structure RoRange where
  base : Nat
  len : Nat
  deriving DecidableEq, Repr

/-- A section of an image: its address and length (R27, R115). -/
structure Section where
  base : Nat
  len : Nat
  deriving DecidableEq, Repr

/-- A kernel table entry of R116, with the places of the sections it names. -/
structure Kernel where
  wheel : Bool
  entry : Nat
  sq : Section
  ex : Section
  mx : Section
  cp : Section
  al : Section
  exBase : Nat
  exN : Nat
  mxBase : Nat
  mxN : Nat
  cpBase : Nat
  cpN : Nat
  alBase : Nat
  alN : Nat
  vbase : Nat
  vn : Nat
  abase : Nat
  an : Nat
  mbase : Nat
  mn : Nat
  deriving DecidableEq, Repr

/-- What a context holds of the work item it runs: the launch parameters of R22, the identifier of R19 and the kernel
(R25, R91). -/
structure Job where
  q : Nat
  lseq : W32
  part : Nat
  wid : W64
  last : W64
  widths : List Nat
  place : Nat
  regmax : Nat
  slipb : Nat
  strict : Bool
  cv1 : Nat
  cv2 : Nat
  cv3 : Nat
  args : W64
  leases : List Lease
  k : Kernel
  deriving DecidableEq, Repr

/-- The run states of R94, and a context that holds no work item. -/
inductive RunState | idle | run | stall | sleep | halt | done | ended
  deriving DecidableEq, Repr

/-- A sequencer access whose value has not landed (R119). `host` marks a host-window read: its value comes with its PCIe
completion (R61), read as `ty`, from `addr`, by the instruction at `pc`, and until then accesses of the classes of
`mask` wait (R76). `acq` marks an acquire (R82). -/
structure OutLoad where
  num : Nat
  d : Reg
  val : W64
  host : Bool
  ty : AccTy
  addr : Nat
  pc : Addr
  det0 : W64
  mask : BitVec 16
  acq : Bool
  deriving DecidableEq, Repr

/-- A division in flight (R119): destination, result and the clock of its issue. -/
structure DivFlight where
  d : Reg
  val : W64
  issued : Nat
  deriving DecidableEq, Repr

/-- A sleeping wait (R83): whether it is `waiteq`, its destination, its width, the address and value it waits for, its
deadline in CLK, whether its word lies in the host window, the number of its outstanding host read, what a completed host read
brought and the wait has not yet tested (whether it succeeded, and the word), the clock of its last read, and the DETAIL0 of
its access. -/
structure SleepWait where
  eq : Bool
  d : Reg
  bytes : Nat
  addr : Nat
  sv : W64
  deadline : Nat
  host : Bool
  pending : Option Nat
  got : Option (Bool × Nat)
  lastRead : Nat
  det0 : W64
  deriving DecidableEq, Repr

/-- What the region mark shadows of a codebook bank (R95): side select and valid counts. -/
structure BankSel where
  front : Bool
  valid0 : Nat
  valid1 : Nat
  deriving DecidableEq, Repr

/-- The region shadow of R95. -/
structure Shadow where
  x : Vector W64 32
  tvec : Addr
  ie : BitVec 3
  tcmp : W64
  tscr : W64
  mb : Vector W32 8
  sem : Vector (BitVec 16) 16
  q : Vector W64 8
  banks : List BankSel
  deriving DecidableEq, Repr

/-- An execute-queue entry (R137): the kernel-relative block index and the mailbox snapshot. -/
structure ExEntry where
  blk : Nat
  mb : Vector W32 8
  deriving DecidableEq, Repr

/-- A fetched block in the block buffer (R161): its bundles as 128-bit words. -/
structure BlockBuf where
  blk : Nat
  bundles : List (BitVec 128)
  deriving DecidableEq, Repr

/-- A loop counter of R170. -/
structure LoopCtr where
  active : Bool
  count : W32
  first : Nat
  last : Nat
  deriving DecidableEq, Repr

/-- The block that runs (R159, R161): its index, its bundles, the offset of the bundle to issue next, the next issue
cycle, VX, the loop counters, the mailbox snapshot and the slip count. `jump` is the end of a
body that a zero count skips (R170); `draining` is set once its last bundle issued; `seq` numbers the
operations issued. -/
structure RunBlock where
  blk : Nat
  bundles : List (BitVec 128)
  off : Nat
  icyc : Nat
  vx : Nat
  lc : List LoopCtr
  mb : Vector W32 8
  slip : Nat
  jump : Option Nat
  draining : Bool
  seq : Nat
  deriving DecidableEq, Repr

/-- An operation in flight (R162): how many advancing clocks remain, its slot and issue order, the pool bytes it will
write, the mask bits it will write, a new VX, a bank swap, and its flags; `hold` marks a plane write of R213. -/
structure InFlight where
  left : Nat
  slot : Nat
  seq : Nat
  bytes : List (Nat × Byte)
  mask : Option (Nat × W64 × W64)
  vx : Option Nat
  swap : Option Nat
  flags : BitVec 5
  hold : Bool
  deriving DecidableEq, Repr

/-- A stream-port entry (R222): 256 bytes, its lane count, and the clock in which it was appended (R157). -/
structure PortEntry where
  data : List Byte
  count : Nat
  born : Nat
  deriving DecidableEq, Repr

/-- A stream port (R157, R222): its direction once bound (true is output), whether a binding is active on it, its entries,
its read cursor, its depth and the pool address of its buffer. -/
structure Port where
  dir : Option Bool
  bound : Bool
  entries : List PortEntry
  cursor : Nat
  depth : Nat
  buf : Nat
  deriving DecidableEq, Repr

/-- A codebook bank (R158, R252): two sides of 256 entries, the front side, and each side's valid count. -/
structure Bank where
  side0 : List (BitVec 16)
  side1 : List (BitVec 16)
  sel : BankSel
  deriving DecidableEq, Repr

/-- An interpolation table (R158). -/
structure ITable where
  entries : List W32
  valid : Nat
  deriving DecidableEq, Repr

/-- Who made a second-port write that R213 holds: the sequencer, with the classes of its store and the number its loads had then, the
matrix engine, or copy command `num`. -/
inductive HeldBy
  | sq (mask : BitVec 16) (after : Nat)
  | mx
  | cp (num : W32)
  deriving DecidableEq, Repr

/-- A byte that the second port is to write and R213 holds. -/
structure HeldWrite where
  addr : Nat
  byte : Byte
  src : HeldBy
  deriving DecidableEq, Repr

/-- The execute state of a context (R159). -/
structure ExState where
  q : Vector W64 8
  block : Option RunBlock
  buffer : List BlockBuf
  pipe : List InFlight
  held : List HeldWrite
  halted : Bool
  deriving DecidableEq, Repr

/-- A fault found but not yet raised: CODE, STATE, ADDR, DETAIL0 and DETAIL1 (R31). -/
structure FaultInfo where
  code : Nat
  st : Nat
  addr : W64
  det0 : W64
  det1 : W64
  deriving DecidableEq, Repr

/-- A fault found while an earlier one of its engine awaits its answer (R34): the fault with its WHERE, and the device time and
the clock of its detection, which its record will hold (R31, R34). -/
structure LateFault where
  f : FaultInfo
  loc : W64
  time : W64
  clk : Nat
  deriving DecidableEq, Repr

/-- The stages of R279. -/
inductive MxStage | setup | compute | writeback
  deriving DecidableEq, Repr

/-- A begun matrix command (R278, R279): its number and fields; its stage, and the clock from which it can leave that stage
(for writeback: its last clock); the clocks of its compute stage without folding and of its writeback; what the begin
clock fixed (format word, plane counts, folding, the captured codebook sides, as entries and as (bank, side), and the
index, scale, accumulator and source bytes read); the contexts of its crier group; the pool ranges it will write; and,
from compute on, the bytes it will write, its flags and the STATE 1 fault it found (code, DETAIL1). -/
structure MxRun where
  num : W32
  i : Instr
  stage : MxStage
  due : Nat
  clen : Nat
  wlen : Nat
  fmt : W64
  na : Nat
  nb : Nat
  fold : Nat
  codeA : List (BitVec 16)
  codeB : List (BitVec 16)
  reads : List (Nat × Bool)
  idxA : List Byte
  idxB : List Byte
  scaleA : List Byte
  scaleB : List Byte
  acc0 : List Byte
  src0 : List Byte
  group : List Nat
  span : List (Nat × Nat)
  writes : List (Nat × Byte)
  flags : BitVec 5
  undef : Option (Nat × W64)
  deriving DecidableEq, Repr

/-- The matrix engine of a context (R267): the begun commands, oldest first; MSEQ; whether a fault awaits its answer; signals that
fall in the next clock (R280) with their command's number and DETAIL0; faults found and not yet reported (R34); whether
its own conditions held while its crier group's did not (R283); and the clock from which the setup stage is free. -/
structure MxState where
  runs : List MxRun
  mseq : W32
  halted : Bool
  sigs : List (W32 × W64 × Nat × Nat)
  late : List LateFault
  held : Bool
  free : Nat
  deriving DecidableEq, Repr

/-- A pattern slot (R240). -/
structure PatSlot where
  run : Nat
  c1 : Nat
  c2 : Nat
  c3 : Nat
  s1 : Int
  s2 : Int
  s3 : Int
  deriving DecidableEq, Repr

/-- What a begun copy command does when its source bytes are at hand (R240-R254): a move with its conversion, a fill, the
store of CKR, the two stages of `unpack` (the second with OLEN and CLEN), a load of a codebook side (`lost`: that side became
the front one, R219) or of a table, a stream binding, or nothing. -/
inductive CpKind
  | move (cvt : Bool) (sf df : Nat)
  | fill (v : W64)
  | ckst
  | unpackHead (f : UnpackForm)
  | unpackBody (f : UnpackForm) (olen clen : Nat)
  | bank (b : Nat) (side : Bool) (count : Nat) (lost : Bool)
  | table (n count : Nat)
  | stream
  | mark
  deriving DecidableEq, Repr

/-- A begun copy command (R233, R239). Its number, dword 0 and common fields; what it does; source and destination as
runs (address, length) in logical order; whether its remote source bytes have been asked for, the reads not yet
answered (host: tag, address, length; peer: address, length) and the bytes that came; whether its moves are made; the
pieces of its checksum stream (offset, length, sum), a peer's without a sum until acknowledged (R264); the checksum's
start value, the saturations and flags; the clock of its last write; whether its completion word awaits a peer; a fault
found but not yet reported (R34), and whether its STATE 1 record awaits an answer. -/
structure CpRun where
  num : W32
  w0 : W64
  t : CpTail
  kind : CpKind
  src : List (Nat × Nat)
  dst : List (Nat × Nat)
  asked : Bool
  host : List (Nat × Nat × Nat)
  peer : List (Nat × Nat)
  got : Mem
  moved : Bool
  sums : List (Nat × Nat × Option W32)
  start : W32
  satn : Nat
  flags : BitVec 5
  wclk : Nat
  cwSent : Bool
  late : Option LateFault
  faulted : Bool
  deriving DecidableEq, Repr

/-- An active stream binding (R245-R248): its command's number and fields, the pattern it walks and how many pattern bytes it
has done. -/
structure Binding where
  num : W32
  f : BindForm
  pat : PatSlot
  pos : Nat
  deriving DecidableEq, Repr

/-- A pending update of CKR in queue order (R257): the command's number, its mode, and its checksum once known. -/
structure CkUpdate where
  num : W32
  ckm : BitVec 2
  val : Option W32
  deriving DecidableEq, Repr

/-- The copy engine of a context (R232). -/
structure CpState where
  pats : List PatSlot
  ckr : W32
  ckrm : BitVec 2
  cseq : W32
  runs : List CpRun
  binds : List Binding
  cks : List CkUpdate
  halted : Bool
  deriving DecidableEq, Repr

/-- A matrix-queue entry: its number (MSEQ at its push, R267) and its 256 bits. -/
structure MxEntry where
  num : W32
  w : BitVec 256
  deriving DecidableEq, Repr

/-- A copy-queue entry: its number (CSEQ at its push, R232) and its 256 bits. -/
structure CpEntry where
  num : W32
  w : BitVec 256
  deriving DecidableEq, Repr

/-- An alignment-queue entry: its number (R350), its 128 bits, the clock of its push (R141), and the number the sequencer's next
access had then: those of a lower number were issued before the push. -/
structure AlEntry where
  num : Nat
  w : BitVec 128
  born : Nat
  after : Nat
  deriving DecidableEq, Repr

/-- What the current clock has done to a context, for the same-clock rules: the clock, the pool bytes written in it with
their values before it, the bytes the execute port wrote and those the second port wrote with their writers, latest first (R66,
R213), how much its waits have taken from each semaphore
(R144), the codebook banks swapped in it (R219), the matrix commands that completed in it (R278 to R280), and the pool bytes of
plane writes that retired in it, which the second port may write from the next clock on (R213); whether its `done` issued
in it (R370); and whether a matrix command left compute in it (R276). -/
structure ClockNote where
  clk : Nat
  prior : List (Nat × Byte)
  exw : List Nat
  second : List (Nat × HeldBy)
  taken : List Nat
  swaps : List Nat
  gone : List MxRun
  landed : List Nat
  done : Bool
  boundary : Bool
  deriving DecidableEq, Repr

/-- One context: sequencer (R88), execute core (R159), matrix engine (R267), copy engine (R232), its queues (R136), its
pool (R63) and the work item it holds. `await` marks a foreground item that waits for the background's discard (R368);
`flgNew` holds the flags raised in the present clock, which FLG shows from the next (R188); `preq` is the clock in which a
pre-emption request falls whose outcome is still open (R99); `seqLate` are sequencer faults that an unanswered one holds back
(R34). -/
structure Context where
  run : RunState
  pc : Addr
  x : Vector W64 32
  loads : List OutLoad
  loadNum : Nat
  divs : List DivFlight
  sleep : Option SleepWait
  job : Option Job
  lastLaunch : Option (Nat × W32)
  await : Bool
  tcmp : W64
  slipc : W64
  slipBlk : BitVec 16
  slipCnt : W32
  rcnt : BitVec 16
  fcnt : BitVec 16
  flg : BitVec 15
  flgNew : BitVec 15
  ccyc : W32
  pend : Bool
  preq : Option Nat
  seqLate : List LateFault
  cmt : Bool
  raddr : Addr
  tvec : Addr
  tepc : Addr
  intr : Bool
  cause : BitVec 16
  tval : W64
  pie : Bool
  inh : Bool
  ie : BitVec 3
  tscr : W64
  shadow : Shadow
  mb : Vector W32 8
  sem : Vector (BitVec 16) 16
  fb : List (BitVec 48 × Nat)
  exq : List ExEntry
  mxq : List MxEntry
  fq : List W64
  cpq : List CpEntry
  alq : List AlEntry
  alNum : Nat
  alHalted : Bool
  failed : Bool
  wheel : List Nat
  pool : Mem
  ex : ExState
  ports : List Port
  banks : List Bank
  tables : List ITable
  mx : MxState
  cp : CpState
  note : ClockNote
  deriving DecidableEq, Repr

/-! ## Ingress, mills, alignment -/

/-- A finalized input row (R308-R310): frame id, row, its number in the stream's running count, status, row time, samples, and the
clock from which it is present once it is in the ring. -/
structure InRow where
  frame : Nat
  row : Nat
  seq : Nat
  status : Nat
  time : W64
  samples : List (BitVec 16)
  born : Nat
  deriving DecidableEq, Repr

/-- The open frame of a stream at its port (R306, R307): its id, T0, the lowest row not finalized, the packet that row receives, if
it is in RECV (whether its data type is the stream's), the last lidar row number received, and the row whose datagram a lidar port
receives. -/
structure OpenFrame where
  frame : Nat
  t0 : Int
  next : Nat
  recv : Option Bool
  lastRow : Option Nat
  lrow : Option Nat
  deriving DecidableEq, Repr

/-- A row-kernel descriptor of R314 with its code and lookup table. -/
structure RowKernel where
  code : List W64
  wmask : Nat
  rstep : Nat
  odly : Nat
  nstrip : Nat
  ow : Nat
  osign : Bool
  ospan : Nat
  reach : Nat
  ispan : Nat
  lut : Option (List (BitVec 16))
  deriving DecidableEq, Repr

/-- The applied configuration of a stream (R311), with its kernels. -/
structure MillCfg where
  mark : BitVec 16
  pol : Nat
  dt : Nat
  first : Nat
  height : Nat
  width : Nat
  rper : Nat
  doff : Nat
  fsper : Nat
  nslot : Nat
  slotbase : Nat
  slotsz : Nat
  rowpitch : Nat
  ofmt : Nat
  fsbase : Nat
  udp : Nat
  tsoff : Nat
  roff : Nat
  poff : Nat
  kernels : List RowKernel
  deriving DecidableEq, Repr

/-- An output row of a processor (R318): frame, row, status so far, samples written with the strip that wrote them, strips
completed, row complete. -/
structure OutRow where
  frame : Nat
  row : Nat
  status : Nat
  samples : Tab (Nat × BitVec 16)
  strips : Nat
  complete : Bool
  deriving DecidableEq, Repr

/-- A frame in flight (R312): its id, the row times of its first and last input rows once known, whether its slot is reset, the
output rows advanced, the counts of R330, and of the row its writer writes, the next of the three writes of R332 with the
clock from which it can be made. -/
structure FrameRun where
  frame : Nat
  tstart : Option W64
  tend : Option W64
  slotReset : Bool
  rowcnt : Nat
  ndrop : Nat
  nlate : Nat
  ncorr : Nat
  stage : Nat
  due : Nat
  deriving DecidableEq, Repr

/-- A frame whose last row was counted and that is not yet recorded (R337): its id, the clock and device time of the advance, and its
slot's address and index. -/
structure FrameRec where
  frame : Nat
  clk : Nat
  te : W64
  addr : Nat
  idx : Nat
  deriving DecidableEq, Repr

/-- What ends the packet a row receives, after that packet's last byte if both fall in one clock (R308): a close of the frame, the
opening of the next with its T0, or the first byte of the next packet (whether its data type is the stream's). -/
inductive Cut
  | close
  | frame (t0 : Int)
  | packet (ty : Bool)
  deriving DecidableEq, Repr

/-- A stream (R303-R312, R333): its configuration, the records that wait for it (queue, LSEQ, dwords), FRAME and its counters, the
next sync number, whether a Frame Start may still be accepted for the last sync (R306), the count of rows finalized, its
open frame, the input ring, the rows that wait to enter it, the content of the last row finalized, the frames in
flight, the recordings not yet processed (R337), the base of the image its configuration holds (R29), and what has ended in this
clock the packet of the row in RECV. -/
structure Stream where
  cfg : Option MillCfg
  pending : List (Nat × W32 × List W64)
  sframe : W64
  dropc : W32
  latec : W32
  corrc : W32
  latep : W32
  eccc : W32
  stray : W32
  ovrc : W32
  satc : W32
  syncNo : Nat
  fsOk : Bool
  rowSeq : Nat
  openF : Option OpenFrame
  ring : List InRow
  waiting : List InRow
  prev : List (BitVec 16)
  frames : List FrameRun
  recs : List FrameRec
  image : Option Nat
  cut : Option Cut
  deriving DecidableEq, Repr

/-- A line processor (R313, R316): its registers; its output rows, of which the last 16 hold samples; the frame, output row and
strip it runs next, the next instruction, whether a strip runs; the next output row to complete; and the clock in which its strip
started (R317). -/
structure Proc where
  x : List (List W32)
  k : List W32
  out : List OutRow
  frame : Nat
  orow : Nat
  strip : Nat
  ip : Nat
  busy : Bool
  dframe : Nat
  drow : Nat
  begun : Option Nat
  deriving DecidableEq, Repr

/-- An almanac entry (R337). -/
structure AlmEntry where
  frame : W64
  tstart : W64
  tend : W64
  trec : W64
  slot : BitVec 8
  rows : BitVec 16
  ndrop : BitVec 16
  nlate : BitVec 16
  ncorr : BitVec 16
  deriving DecidableEq, Repr

/-- A fuse rule (R339). `ringSet` and `cntSet` say whether RING and CNT were set since reset (R343 check 5); `dlAt` is the first
clock in which device time exceeds DL, and that time (R344). -/
structure Rule where
  members : List (Option Nat)
  refpos : Nat
  delta : Nat
  dead : Nat
  ring : Addr
  nrec : Nat
  ringSet : Bool
  cnt : Addr
  cntSet : Bool
  mode : Nat
  port : Nat
  prule : Nat
  st : Nat
  pend : Bool
  topen : W64
  dl : W64
  floor : W64
  counter : W32
  npart : W32
  ign : W32
  dlAt : Option (Nat × W64)
  deriving DecidableEq, Repr

/-- A write of the alignment unit that is due (R342, R346, R347): its clock, address and bytes, and with a counter advance the
broadcast that follows it (port, peer rule, record; R349). -/
structure AlWrite where
  due : Nat
  addr : Nat
  data : List Byte
  bcast : Option (Nat × Nat × List Byte)
  deriving DecidableEq, Repr

/-! ## Thrumol link -/

/-- A Thrumol port (R263-R266, R349): its registers; the clock of the last write of LKINJ and the payload flits passed since
(R265); by flit number the resends of flits not acknowledged (R263); write flits received for peer accesses; the broadcast flits
received so far for a rule, and the complete broadcasts with their clocks; the number of the next broadcast flit, and of each
broadcast sent the flits not yet acknowledged. -/
structure Link where
  up : Bool
  down : Bool
  lanes : BitVec 4
  retry : W32
  crce : W32
  arm : Bool
  flit : BitVec 8
  bit : BitVec 8
  inj : W32
  armClk : Nat
  passed : Nat
  resends : Tab Nat
  rx : List (Nat × BitVec 256)
  fuseRule : Nat
  fuse : List (BitVec 256)
  rxReady : List (Nat × List Byte × Nat)
  flitNo : Nat
  bcast : List (List Nat)
  deriving DecidableEq, Repr

/-! ## Scheduler -/

/-- The states of a launch (R358). -/
inductive LState | waiting | preparing | ready | running | completing | done
  deriving DecidableEq, Repr

/-- The states of a work item (R367). -/
inductive IState | pending | dispatched | discarded | ended | killed
  deriving DecidableEq, Repr

/-- A work item that has been dispatched once: its identifier, state and context. -/
structure Item where
  wid : W64
  st : IState
  ctx : Nat
  deriving DecidableEq, Repr

/-- An admitted launch (R358-R367): its record as sixteen dwords, effective priority, the clock of its append, its pinned
leases and kernel, its items dispatched so far, its open groups with their clusters, its first dispatch, its completion
code, the CODE of the first STATE 2 record of its items by RSEQ (R33), its stamp, watchdog steps fired, the
device time from which the priority counter runs, and the one from which it has found no free foreground context (R369). -/
structure Launch where
  q : Nat
  lseq : W32
  dw : List W64
  st : LState
  prio : Nat
  appended : Nat
  leases : List Lease
  kernel : Option Kernel
  items : List Item
  groups : List (Nat × Nat)
  tstart : Option W64
  code : BitVec 16
  err : Option Nat
  canc : Bool
  tend : Option W64
  fired : Nat
  idleFrom : W64
  noFree : Option W64
  deriving DecidableEq, Repr

/-- A launch queue (R353, R355). -/
structure Queue where
  qcfg : W64
  qring : W64
  head : W32
  tail : W32
  qwda : W64
  qwdb : W64
  qxring : W64
  xhead : W32
  xtail : W32
  badans : BitVec 16
  ovf : BitVec 16
  frozen : Bool
  qint : W64
  born : List (W32 × Nat)
  coalPending : Nat
  coalAt : Option W64
  deriving DecidableEq, Repr

/-- A kill that drains a partition (R376, R377): the device time of its reset, the launch whose kill it was, and the cores that ran
a killed item with CMT = 1. -/
structure Drain where
  due : W64
  q : Nat
  lseq : W32
  cores : List Nat
  deriving DecidableEq, Repr

/-- A partition (R356, R357, R376-R378): its registers, its drains, the device time at which its reset took effect, and whether
that reset ran out of time. -/
structure Part where
  pclu : W64
  pfeed : W64
  prules : W64
  drains : List Drain
  resetting : Option W64
  timedOut : Bool
  deriving DecidableEq, Repr

/-- Where a fault comes from: an engine of a context, one whose work item has been discarded since, a stream's record, a queue, or the
device. -/
inductive FaultSrc
  | ctx (c : Nat)
  | old (c : Nat)
  | stream (s : Nat)
  | queue (q : Nat)
  | device
  deriving DecidableEq, Repr

/-- A fault record of R31 without its TIME-independent packing: the fields as the engine reports them. -/
structure FaultRec where
  state : Nat
  unit : Nat
  core : Nat
  ctx : Bool
  eng : Nat
  code : Nat
  wid : W64
  time : W64
  loc : W64
  addr : W64
  det0 : W64
  det1 : W64
  lseq : W32
  deriving DecidableEq, Repr

/-- A fault record with its queue, its clock of detection, whether it has been counted as waiting for a slot (R35), and its RSEQ once
written; entries stay until answered. `dead` marks one whose work item was killed: an answer to it is a bad one (R370). -/
structure FaultEntry where
  q : Nat
  src : FaultSrc
  r : FaultRec
  clk : Nat
  counted : Bool
  rseq : Option W32
  dead : Bool
  deriving DecidableEq, Repr

/-- A core: its MXCORE counters and slices (R277), its placement (R377, R380, R394), its self-test (R396) and the device times
of its corrected errors in the window (R393). -/
structure Core where
  clamp : BitVec 24
  crst : W32
  slv : BitVec 4
  newSlv : Option (BitVec 4)
  retired : Bool
  fenced : Bool
  stopped : Bool
  testDue : Bool
  lastTest : W64
  fail : BitVec 16
  pass : W32
  total : W32
  errs : List (Nat × W64)
  winMax : List Nat
  deriving DecidableEq, Repr

/-- An LPDDR6 channel (R395, R396). -/
structure Channel where
  total : W32
  ret : Bool
  errs : List W64
  winMax : Nat
  deriving DecidableEq, Repr

/-- The ageing registers of a cluster (R396). -/
structure Age where
  limit : BitVec 16
  min : BitVec 16
  margin : BitVec 16
  fresh : Bool
  deriving DecidableEq, Repr

/-! ## The agenda -/

/-- A part that takes one turn a clock. The matrix engine takes two: `mx` for its signals, stages and completions, `mxb` for the
begin of a command. `ev` stands for an event of an engine of a context that the agenda places. -/
inductive Actor
  | sq (c : CtxId) | ex (c : CtxId) | mx (c : CtxId) | mxb (c : CtxId) | cp (c : CtxId) | al | ln (p : ProcId) | ev (c : CtxId)
  deriving DecidableEq, Repr

/-- A move of the device: the next array clock, one part's turn, or an event of the opcode table (log entry 3). -/
inductive Turn
  | clock
  | act (a : Actor)
  | ev (i : Instr)
  deriving DecidableEq, Repr

/-- What the device sends outside (log entry 10). -/
inductive Out
  | msix (vec : Nat)
  | hostWrite (addr : Nat) (data : List Byte) (ro : Bool)
  | hostRead (c : Nat) (num : Nat) (addr : Nat) (len : Nat)
  | barData (data : List Byte)
  | unsupported
  | peerWrite (p : Nat) (addr : Nat) (data : List Byte)
  | peerRead (p : Nat) (addr : Nat) (len : Nat)
  | peerReply (p : Nat) (ok : Bool) (data : List Byte)
  | peerAck (p : Nat) (ok : Bool) (crc sum : W32)
  | resend (p : Nat)
  | broadcast (p : Nat) (prule : Nat) (data : List Byte)
  | frameSync (s : Nat) (n : Nat)
  | usb (data : List Byte)
  | usbStall
  deriving DecidableEq, Repr

/-- Why the machine's own step stops. The spec's faults are no faults here: they are taken (log entry 12). -/
inductive Fault
  /-- Raised by `step` when the agenda's next event is no well-formed row of the opcode table: no move of the device. Safe. -/
  | illFormedTurn
  deriving DecidableEq, Repr

/-- Why an instruction has no meaning. -/
inductive Refusal
  /-- Raised by an arm of `exec` for an instruction not modelled yet; names it. Safe. -/
  | notModelled (mnemonic : String)
  deriving DecidableEq, Repr

/-- The device. -/
structure State where
  /-- the model's own: moves to come, the place in the default round, the context and processor in focus, the counter of
  free values, what was sent outside, and the parts that have acted in this clock, each with its place in the clock's order
(log entries 2, 3, 10) -/
  agenda : List Turn
  phase : Nat
  focus : CtxId
  lnFocus : ProcId
  free : Nat
  out : List Out
  acted : List (Actor × Nat)
  /-- time: CLK, device time in units of 1/6000000 ns, the time a forward step gives it in the next clock, its course so far as
  stretches (first clock, its time, gain per clock; newest first), its rate in ppm, and TBSTAT (R15-R18) -/
  clk : Nat
  timeU : Nat
  timeStep : Option W64
  timeLog : List (Nat × Nat × Nat)
  ppm : Int
  lock : Bool
  hold : Bool
  stepped : Bool
  tbPort : BitVec 3
  offs : BitVec 8
  steps : BitVec 8
  everLocked : Bool
  latches : Tab (BitVec 32)
  /-- memory: DRAM and granary bytes, read-only ranges, verified images (R59, R69, R29) -/
  mem : Mem
  ro : List RoRange
  verified : List RoRange
  /-- contexts, cores, MXCAP with a change to come and with firmware's own setting (R277, R397) -/
  ctxs : Tab Context
  cores : Tab Core
  mxcap : Byte
  mxcapNew : Option (Nat × Byte)
  mxcapCfg : Byte
  /-- ingress, mills, alignment (with the clock from which the unit is free, whether it would take a command in this clock, and its
  writes to come, R344, R346), link -/
  streams : Tab Stream
  procs : Tab Proc
  almanac : Tab AlmEntry
  rules : Tab Rule
  alFree : Nat
  alTake : Bool
  alWrites : List AlWrite
  bdrop : W32
  bfail : W32
  links : Tab Link
  /-- scheduler; `zeroed` keeps, by graph record, the stamp of the completion that set its DEP to 0 (R362), `swapReq` the swaps
  requested (victim, queue, LSEQ), `swapped` the contexts swapped out (R369), `dispClk` the clock of the last dispatch (R364) -/
  queues : Tab Queue
  parts : Tab Part
  launches : List Launch
  faults : List FaultEntry
  zeroed : Tab W64
  swapReq : List (Nat × Nat × W32)
  swapped : Tab Context
  dispClk : Option Nat
  /-- firmware (R381), with the image a live update brings and the device time at which admission paused (R382) -/
  act : Bool
  sby : BitVec 3
  cmdst : BitVec 2
  tsver : BitVec 16
  imgver : W32
  fwdig : List Byte
  newImg : Option FwImage
  fwimg : Addr
  fwbufN : BitVec 16
  fwbufA : Addr
  pausedAt : Option W64
  /-- device summary (R386), host map (R384), MSI-X (R385) and staging (R390) -/
  remap : List Nat
  boot : BitVec 3
  phaseDev : BitVec 2
  rsvw : W32
  dual : W32
  sint : Byte
  sintNow : Byte
  svec : BitVec 11
  sien : Byte
  hwbase : W64
  href : W32
  stageN : BitVec 16
  stageA : Addr
  staged : Nat
  minVer : Option W32
  hostMap : Tab (BitVec 2)
  msix : Tab W64
  msixPend : List Nat
  msixMask : Bool
  msixDue : List Nat
  /-- health (R396, R397) -/
  clkStep : BitVec 2
  clkStepNew : Option (BitVec 2)
  clkStepCfg : BitVec 2
  tj : Byte
  coolFrom : Option W64
  relief : Bool
  channels : Tab Channel
  ages : Tab Age
  deriving DecidableEq, Repr

/-! ## Reset -/

/-- The region shadow of a context that holds no work item (log entry 6). -/
def Shadow.reset : Shadow :=
  ⟨Vector.replicate 32 0, 0, 0, BitVec.allOnes 64, 0, Vector.replicate 8 0, Vector.replicate 16 0, Vector.replicate 8 0,
    List.replicate 4 ⟨false, 0, 0⟩⟩

/-- An unbound port (R159). -/
def Port.reset : Port := ⟨none, false, [], 0, 0, 0⟩
/-- A bank: contents zero (log entry 6), side 0 in front, valid counts 0 (R25, R252). -/
def Bank.reset : Bank := ⟨List.replicate 256 0, List.replicate 256 0, ⟨false, 0, 0⟩⟩
/-- A table: contents zero (log entry 6), valid count 0 (R25). -/
def ITable.reset : ITable := ⟨List.replicate 256 0, 0⟩
/-- R159. -/
def ExState.reset : ExState := ⟨Vector.replicate 8 0, none, [], [], [], false⟩
/-- R267. -/
def MxState.reset : MxState := ⟨[], 0, false, [], [], false, 0⟩
/-- R232: RUN 1, every count 1, every stride 0. -/
def PatSlot.reset : PatSlot := ⟨1, 1, 1, 1, 0, 0, 0⟩
/-- R232. -/
def CpState.reset : CpState := ⟨List.replicate 8 PatSlot.reset, 0, 0, 0, [], [], [], false⟩

/-- A context before any dispatch (R91; log entry 6 for what R25 first sets at a dispatch). -/
def Context.reset : Context where
  run := .idle
  pc := 0
  x := Vector.replicate 32 0
  loads := []
  loadNum := 0
  divs := []
  sleep := none
  job := none
  lastLaunch := none
  await := false
  tcmp := BitVec.allOnes 64
  slipc := 0
  slipBlk := 0
  slipCnt := 0
  rcnt := 0
  fcnt := 0
  flg := 0
  flgNew := 0
  ccyc := 0
  pend := false
  preq := none
  seqLate := []
  cmt := false
  raddr := 0
  tvec := 0
  tepc := 0
  intr := false
  cause := 0
  tval := 0
  pie := false
  inh := false
  ie := 0
  tscr := 0
  shadow := Shadow.reset
  mb := Vector.replicate 8 0
  sem := Vector.replicate 16 0
  fb := []
  exq := []
  mxq := []
  fq := []
  cpq := []
  alq := []
  alNum := 0
  alHalted := false
  failed := false
  wheel := []
  pool := []
  ex := ExState.reset
  ports := List.replicate 16 Port.reset
  banks := List.replicate 4 Bank.reset
  tables := List.replicate 4 ITable.reset
  mx := MxState.reset
  cp := CpState.reset
  note := ⟨0, [], [], [], List.replicate 16 0, [], [], [], false, false⟩

/-- A stream that is off (R312, R333). -/
def Stream.reset : Stream where
  cfg := none
  pending := []
  sframe := 0
  dropc := 0
  latec := 0
  corrc := 0
  latep := 0
  eccc := 0
  stray := 0
  ovrc := 0
  satc := 0
  syncNo := 0
  fsOk := false
  rowSeq := 0
  openF := none
  ring := []
  waiting := []
  prev := []
  frames := []
  recs := []
  image := none
  cut := none

/-- A line processor before any record is applied (log entry 6; R313 gives zero at an application). -/
def Proc.reset : Proc :=
  ⟨List.replicate 16 (List.replicate 32 0), List.replicate 8 0, [], 0, 0, 0, 0, false, 0, 0, none⟩

/-- R338. -/
def AlmEntry.reset : AlmEntry := ⟨0, 0, 0, 0, 0, 0, 0, 0, 0⟩

/-- R339. -/
def Rule.reset : Rule :=
  ⟨List.replicate 16 none, 0, 0, 0, 0, 0, false, 0, false, 0, 0, 0, 0, false, 0, 0, 0, 0, 0, 0, none⟩

/-- R266. -/
def Link.reset : Link := ⟨false, false, 0, 0, 0, false, 0, 0, 0, 0, 0, [], [], 0, [], [], 0, []⟩

/-- R355: the firmware fields at 0 (log entry 5), COAL 50. -/
def Queue.reset : Queue := ⟨0, 0, 0, 0, 0, 0, 0, 0, 0, 0, 0, false, 50, [], 0, none⟩

/-- R356, R357: the firmware fields at 0 (log entry 5). -/
def Part.reset : Part := ⟨0, 0, 0, [], none, false⟩

/-- R277 with SLV all in service (log entry 5), R396. -/
def Core.reset : Core := ⟨0, 0, 0xF, none, false, false, false, false, 0, 0, 0, 0, [], []⟩

/-- R396. -/
def Channel.reset : Channel := ⟨0, false, [], 0⟩

/-- R396: LIMIT by log entry 5; MIN the greatest margin, before any is measured, and MARGIN 0 (log entry 6). -/
def Age.reset : Age := ⟨0, 0x7FFF, 0, true⟩

/-- The device right after reset: time base in holdover at 0 (R15, R18), MXCAP with every CAP 3 (R277), memory with
nothing listed, and every other field as its rule or log entry says. -/
def State.reset : State where
  agenda := []
  phase := 0
  focus := 0
  lnFocus := 0
  free := 0
  out := []
  acted := []
  clk := 0
  timeU := 0
  timeStep := none
  timeLog := []
  ppm := 0
  lock := false
  hold := true
  stepped := false
  tbPort := 0
  offs := 0
  steps := 0
  everLocked := false
  latches := []
  mem := []
  ro := []
  verified := []
  ctxs := []
  cores := []
  mxcap := 0xFF
  mxcapNew := none
  mxcapCfg := 0xFF
  streams := []
  procs := []
  almanac := []
  rules := []
  alFree := 0
  alTake := false
  alWrites := []
  bdrop := 0
  bfail := 0
  links := []
  queues := []
  parts := []
  launches := []
  faults := []
  zeroed := []
  swapReq := []
  swapped := []
  dispClk := none
  act := false
  sby := 0
  cmdst := 0
  tsver := 0
  imgver := 0
  fwdig := List.replicate 32 0
  newImg := none
  fwimg := 0
  fwbufN := 0
  fwbufA := 0
  pausedAt := none
  remap := []
  boot := 0
  phaseDev := 0
  rsvw := 0
  dual := 0
  sint := 0
  sintNow := 0
  svec := 0
  sien := 0
  hwbase := 0
  href := 0
  stageN := 0
  stageA := 0
  staged := 0
  minVer := none
  hostMap := []
  msix := []
  msixPend := []
  msixMask := false
  msixDue := []
  clkStep := 0
  clkStepNew := none
  clkStepCfg := 0
  tj := 0
  coolFrom := none
  relief := false
  channels := []
  ages := []

end Sys2Proof.Machine
end

