-- ==== Sys2Proof/Machine/Ops.lean ====
section
/-! DEFINITION. The named operations over the state: memory, tables, registers, the address map and leases (spec/03), device
time (spec/01), raising a fault (R31-R35), and taking and leaving a trap (R100, R101). -/

namespace Sys2Proof.Machine

/-! ## Tables -/

/-- The value of a table at an index, `d` where it is not listed. -/
def tabGet {α : Type} (d : α) (t : Tab α) (i : Nat) : α :=
  match t with
  | [] => d
  | (j, v) :: r => if j = i then v else tabGet d r i

/-- The table with the value at an index replaced; indices stay in rising order. -/
def tabSet {α : Type} (t : Tab α) (i : Nat) (v : α) : Tab α :=
  match t with
  | [] => [(i, v)]
  | (j, u) :: r => if i < j then (i, v) :: (j, u) :: r else if i = j then (i, v) :: r else (j, u) :: tabSet r i v

/-! ## Memory -/

/-- One byte: 0x00 where nothing is listed (log entry 1). -/
def memGet (m : Mem) (a : Nat) : Byte := tabGet 0 m a

/-- The memory with one byte listed. -/
def memIns (m : Mem) (a : Nat) (b : Byte) : Mem := tabSet m a b

/-- The memory with an address no longer listed. -/
def memDel (m : Mem) (a : Nat) : Mem := m.filter fun c => c.1 != a

/-- Writes one byte, keeping the canonical form. -/
def memPut (m : Mem) (a : Nat) (b : Byte) : Mem := if b = 0 then memDel m a else memIns m a b

/-- `n` bytes from an address. -/
def memRead (m : Mem) (a n : Nat) : List Byte := (List.range n).map fun i => memGet m (a + i)

/-- Writes bytes from an address upward. -/
def memWrite (m : Mem) (a : Nat) : List Byte → Mem
  | [] => m
  | b :: r => memWrite (memPut m a b) (a + 1) r

/-- Writes bytes each at its own address, later ones over earlier ones. -/
def memScatter (m : Mem) : List (Nat × Byte) → Mem
  | [] => m
  | (a, b) :: r => memScatter (memPut m a b) r

/-- A little-endian number of `n` bytes (R1). -/
def memNat (m : Mem) (a n : Nat) : Nat := leNat (memRead m a n)

/-- Writes `n` bytes of a number, little-endian (R1). -/
def memPutNat (m : Mem) (a n x : Nat) : Mem := memWrite m a (leBytes n x)

/-- The canonical form: addresses strictly rising, no 0x00 listed. -/
def Memory.wf : Mem → Bool
  | [] => true
  | (_, b) :: [] => b != 0
  | (a, b) :: (a', b') :: r => b != 0 && decide (a < a') && Memory.wf ((a', b') :: r)

/-! ## Parts of the device -/

def State.ctx (s : State) (c : CtxId) : Context := tabGet Context.reset s.ctxs c.val
def State.setCtx (s : State) (c : CtxId) (x : Context) : State := { s with ctxs := tabSet s.ctxs c.val x }
def State.modCtx (s : State) (c : CtxId) (f : Context → Context) : State := s.setCtx c (f (s.ctx c))
def State.core (s : State) (g : Nat) : Core := tabGet Core.reset s.cores g
def State.setCore (s : State) (g : Nat) (x : Core) : State := { s with cores := tabSet s.cores g x }
def State.stream (s : State) (i : Nat) : Stream := tabGet Stream.reset s.streams i
def State.setStream (s : State) (i : Nat) (x : Stream) : State := { s with streams := tabSet s.streams i x }
def State.proc (s : State) (p : Nat) : Proc := tabGet Proc.reset s.procs p
def State.setProc (s : State) (p : Nat) (x : Proc) : State := { s with procs := tabSet s.procs p x }
/-- Almanac entry `e` of a stream (R338). -/
def State.alm (s : State) (stream e : Nat) : AlmEntry := tabGet AlmEntry.reset s.almanac (4 * stream + e)
def State.setAlm (s : State) (stream e : Nat) (x : AlmEntry) : State :=
  { s with almanac := tabSet s.almanac (4 * stream + e) x }
def State.rule (s : State) (q : Nat) : Rule := tabGet Rule.reset s.rules q
def State.setRule (s : State) (q : Nat) (x : Rule) : State := { s with rules := tabSet s.rules q x }
def State.link (s : State) (p : Nat) : Link := tabGet Link.reset s.links p
def State.setLink (s : State) (p : Nat) (x : Link) : State := { s with links := tabSet s.links p x }
def State.queue (s : State) (q : Nat) : Queue := tabGet Queue.reset s.queues q
def State.setQueue (s : State) (q : Nat) (x : Queue) : State := { s with queues := tabSet s.queues q x }
def State.part (s : State) (p : Nat) : Part := tabGet Part.reset s.parts p
def State.setPart (s : State) (p : Nat) (x : Part) : State := { s with parts := tabSet s.parts p x }
def State.channel (s : State) (c : Nat) : Channel := tabGet Channel.reset s.channels c
def State.age (s : State) (c : Nat) : Age := tabGet Age.reset s.ages c

/-- What the device sends outside. -/
def State.send (s : State) (o : Out) : State := { s with out := s.out ++ [o] }

/-- Every context number. -/
def allCtx : List CtxId := List.finRange 384

/-- A context number taken modulo the number of contexts. -/
def ctxOf (n : Nat) : CtxId := ⟨n % 384, Nat.mod_lt _ (by decide)⟩

/-! ## Time (R11, R15) -/

/-- Device time in ns. -/
def State.now (s : State) : W64 := BitVec.ofNat 64 (s.timeU / 6000000)

/-- Sixths of a ns in an array clock at a clock step (R11, R396): 600, 500, 400, 300 MHz. -/
def clockSixths (step : BitVec 2) : Nat :=
  match step.toNat with
  | 0 => 10 | 1 => 12 | 2 => 15 | _ => 20

/-- A counter one higher, kept at its maximum (R3, R18, R355). -/
def satInc {n : Nat} (x : BitVec n) : BitVec n := if x = BitVec.allOnes n then x else x + 1

/-- A counter raised by `k`, kept at its maximum. -/
def satAdd {n : Nat} (x : BitVec n) (k : Nat) : BitVec n :=
  if x.toNat + k < 2 ^ n then BitVec.ofNat n (x.toNat + k) else BitVec.allOnes n

/-! ## Free values (log entry 2) -/

/-- The next free dword. -/
def State.drawWord (s : State) : W64 × State := (Config.freeWord s.free, { s with free := s.free + 1 })

/-- `n` free bytes. -/
def State.drawBytes (s : State) (n : Nat) : List Byte × State :=
  ((List.range n).map fun i => Config.freeByte (s.free + i), { s with free := s.free + n })

/-! ## The address map (R59) -/

inductive Region | dram | granary | peer0 | peer1 | host
  deriving DecidableEq, Repr

/-- The region an address lies in, with the address just past it (R59). -/
def regionOf (a : Nat) : Option (Region × Nat) :=
  if a < 0x2000000000 then some (.dram, 0x2000000000)
  else if 0x10000000000 ≤ a ∧ a < 0x10030000000 then some (.granary, 0x10030000000)
  else if 0x100000000000 ≤ a ∧ a < 0x120000000000 then some (.peer0, 0x120000000000)
  else if 0x120000000000 ≤ a ∧ a < 0x140000000000 then some (.peer1, 0x140000000000)
  else if 0x400000000000 ≤ a ∧ a < 0x800000000000 then some (.host, 0x800000000000)
  else none

/-- The first byte of an access of `n` bytes at which the address fault of R59 lies, none where there is no fault. -/
def addrFault (a n : Nat) : Option Nat :=
  match regionOf a with
  | none => some a
  | some (_, e) => if e < a + n then some e else none

/-- The access paths, by their ENG code (R79). -/
abbrev pathSQ : Nat := 0
abbrev pathEX : Nat := 1
abbrev pathMX : Nat := 2
abbrev pathCP : Nat := 3
abbrev pathLN : Nat := 4
abbrev pathAL : Nat := 5
abbrev pathHS : Nat := 8
abbrev pathLK : Nat := 7

/-- The paths that reach a region (R59). -/
def pathReaches (r : Region) (p : Nat) : Bool :=
  match r with
  | .dram => p == pathSQ || p == pathCP || p == pathHS || p == pathLK
  | .granary => p == pathSQ || p == pathCP || p == pathLN || p == pathAL || p == pathHS || p == pathLK
  | .peer0 => p == pathCP
  | .peer1 => p == pathCP
  | .host => p == pathSQ || p == pathCP

/-- An address in DRAM or the granary. -/
def inDevice (a : Nat) : Bool :=
  match regionOf a with
  | some (.dram, _) => true
  | some (.granary, _) => true
  | _ => false

/-- A range of `n` bytes wholly in DRAM or wholly in the granary. -/
def rangeInDevice (a n : Nat) : Bool := inDevice a && (addrFault a n).isNone

/-! ## Leases (R68, R69) -/

/-- One address lies in an entry that gives the rights asked for. -/
def Lease.covers (l : Lease) (r w : Bool) (a : Nat) : Bool :=
  decide (l.base ≤ a) && decide (a < l.base + 4096 * l.npage) && (!r || l.rd) && (!w || l.w)

/-- How far from `a` the entries that cover `a` reach. -/
def leaseReach (ls : List Lease) (r w : Bool) (a : Nat) : Nat :=
  ls.foldl (fun e l => if l.covers r w a then Nat.max e (l.base + 4096 * l.npage) else e) a

/-- The first byte of a range without a right, walking from entry to entry; `fuel` bounds the entries. -/
def leaseFirst (ls : List Lease) (r w : Bool) (a e : Nat) : Nat → Option Nat
  | 0 => if a < e then some a else none
  | fuel + 1 =>
    if e ≤ a then none
    else
      let b := leaseReach ls r w a
      if b = a then some a else leaseFirst ls r w b e fuel

/-- The lease fault's address for an access of `n` bytes: the rights of an address are the union over entries, so reading
and writing are asked for one by one (R68). -/
def leaseFault (ls : List Lease) (r w : Bool) (a n : Nat) : Option Nat :=
  let fr := if r then leaseFirst ls true false a (a + n) (ls.length + 1) else none
  let fw := if w then leaseFirst ls false true a (a + n) (ls.length + 1) else none
  match fr, fw with
  | none, none => none
  | some x, none => some x
  | none, some y => some y
  | some x, some y => some (Nat.min x y)

/-- The first byte of a range that is read-only whatever its lease (R69). -/
def roFault (ro : List RoRange) (a n : Nat) : Option Nat :=
  ro.foldl (fun acc x =>
    if x.base < a + n ∧ a < x.base + x.len then
      let f := Nat.max a x.base
      match acc with
      | none => some f
      | some y => some (Nat.min y f)
    else acc) none

/-! ## Writes to device memory -/

/-- The bytes that a write by a unit of the device performs: none where it meets a range that R69 holds read-only (R28, log entry
92). -/
def guardRo (ro : List RoRange) (a : Nat) (l : List Byte) : List Byte := if (roFault ro a l.length).isSome then [] else l

/-- A number of `n` bytes written so, little-endian (R1). -/
def memPutRo (ro : List RoRange) (m : Mem) (a n x : Nat) : Mem := memWrite m a (guardRo ro a (leBytes n x))

/-- The slot ring's first and last-plus-one bytes (R330). -/
def MillCfg.slotRange (m : MillCfg) : Nat × Nat := (m.slotbase, m.slotbase + 4096 * m.slotsz * m.nslot)

/-- A byte of a slot of a stream that is on (R330). -/
def State.inSlot (s : State) (a : Nat) : Bool :=
  s.streams.any fun p =>
    match p.2.cfg with
    | some m => decide (m.slotRange.1 ≤ a) && decide (a < m.slotRange.2)
    | none => false

/-- Bytes for the addresses from `a`, each replaced by a free byte where it lies in a slot of a stream that is on (R336). -/
def State.slotBytes (s : State) (a : Nat) (l : List Byte) : List Byte :=
  l.zipIdx.map fun b => if s.inSlot (a + b.2) then Config.freeByte (s.free + b.2) else b.1

/-- Writes DRAM or the granary by a path other than LN: a byte so written in a slot of a stream that is on is undefined (R336). -/
def State.store (s : State) (a : Nat) (l : List Byte) : State :=
  if (List.range l.length).any fun i => s.inSlot (a + i) then
    { s with mem := memWrite s.mem a (s.slotBytes a l), free := s.free + l.length }
  else { s with mem := memWrite s.mem a l }

/-- The same by the scheduler, the alignment unit or a work item's `launch` (R28, R69). -/
def State.storeRo (s : State) (a : Nat) (l : List Byte) : State := s.store a (guardRo s.ro a l)

/-! ## Pool regions (R63) -/

/-- The first byte of a pool access that the path may not reach: SQ reaches the three regions, MX the register region and
the scratchpad, CP all three. A pool address has 20 bits. -/
def poolFault (cv1 cv2 cv3 path a n : Nat) : Option Nat :=
  if path == pathMX && decide (Nat.max a (cv1 * 4096) < Nat.min (a + n) (cv2 * 4096)) then some (Nat.max a (cv1 * 4096))
  else if cv3 * 4096 < a + n then some (Nat.max a (cv3 * 4096))
  else none

/-! ## Same-clock rules (R66, R144) -/

/-- The note of a clock: the stored one, or an empty one where the stored one is of an earlier clock. -/
def Context.noteAt (x : Context) (clk : Nat) : ClockNote :=
  if x.note.clk = clk then x.note else ⟨clk, [], [], [], List.replicate 16 0, [], [], [], false, false⟩

/-- The first value a list of (address, byte) pairs gives an address. -/
def noted (l : List (Nat × Byte)) (a : Nat) : Option Byte :=
  match l with
  | [] => none
  | (b, v) :: r => if b = a then some v else noted r a

/-- A pool byte as a read in clock `clk` returns it: the value before any write of that clock (R66). -/
def Context.poolByte (x : Context) (clk a : Nat) : Byte :=
  match noted (x.noteAt clk).prior a with
  | some v => v
  | none => memGet x.pool a

/-- `n` pool bytes as a read in clock `clk` returns them. -/
def Context.poolGet (x : Context) (clk a n : Nat) : List Byte :=
  (List.range n).map fun i => x.poolByte clk (a + i)

/-- Whether a plane write in flight of the execute core will write a pool byte (R213). -/
def Context.heldByte (x : Context) (a : Nat) : Bool :=
  x.ex.pipe.any fun o => o.hold && o.bytes.any fun c => c.1 == a

/-- The second port may not write a pool byte in clock `clk`: a plane write in flight will write it, or one wrote it in this
clock, or an earlier write to it is still held (R213). -/
def Context.barred (x : Context) (clk a : Nat) : Bool :=
  x.heldByte a || (x.noteAt clk).landed.contains a || x.ex.held.any fun h => h.addr == a

/-- The 64-byte blocks, a bank's port width (R66), in which a list of second-port writes meets a barred byte: the port grants
none of what the write has in such a block (R43, R213). -/
def Context.barredBlocks (x : Context) (clk : Nat) (l : List (Nat × Byte)) : List Nat :=
  (l.filter fun c => x.barred clk c.1).map fun c => c.1 / 64

/-- Notes the addresses of a write with their values before the clock (R66), and who wrote those of the second port. -/
def Context.notePrior (x : Context) (clk : Nat) (exw : List Nat) (second : List (Nat × HeldBy)) : ClockNote :=
  let n := x.noteAt clk
  let fresh := (exw ++ second.map Prod.fst).filter fun a => (noted n.prior a).isNone
  { n with prior := fresh.map (fun a => (a, memGet x.pool a)) ++ n.prior, exw := exw ++ n.exw, second := second ++ n.second }

/-- Writes pool bytes through the execute port in clock `clk`. -/
def Context.exPut (x : Context) (clk : Nat) (l : List (Nat × Byte)) : Context :=
  { x with pool := memScatter x.pool l, note := x.notePrior clk (l.map Prod.fst) [] }

/-- Writes pool bytes through the second port for `src` in clock `clk`. Those in a block that a plane write bars are held (R213), and
one that the execute port wrote in the same clock keeps the execute port's value (R66). -/
def Context.poolPut (x : Context) (clk : Nat) (src : HeldBy) (l : List (Nat × Byte)) : Context :=
  let bars := x.barredBlocks clk l
  let w := l.filter fun c => !bars.contains (c.1 / 64) && !(x.noteAt clk).exw.contains c.1
  { x with
    pool := memScatter x.pool w,
    ex := { x.ex with held := x.ex.held ++ (l.filter fun c => bars.contains (c.1 / 64)).map fun c => ⟨c.1, c.2, src⟩ },
    note := x.notePrior clk [] (w.map fun c => (c.1, src)) }

/-- A plane write issues in clock `clk`: what the second port wrote in this clock into a block it will write is held for it, and
the block has its bytes of before the clock again (R213: the hold begins with the clock of issue). -/
def Context.claim (x : Context) (clk : Nat) (o : InFlight) : Context :=
  let n := x.noteAt clk
  let hit := (n.prior.filter fun c => !n.exw.contains c.1 && o.bytes.any fun b => b.1 == c.1).map fun c => c.1 / 64
  if !o.hold || hit.isEmpty then x
  else
    let back := n.prior.filter fun c => !n.exw.contains c.1 && hit.contains (c.1 / 64)
    { x with
      pool := memScatter x.pool back,
      ex := { x.ex with held := x.ex.held ++ back.map fun c => ⟨c.1, memGet x.pool c.1, tabGet .mx n.second c.1⟩ } }

/-- At the start of clock `clk` the held writes that no plane write bars any longer land, a block's bytes together (R43,
R213); for a copy command this is then the clock of its last write to the pool (R239). -/
def Context.landHeld (x : Context) (clk : Nat) : Context :=
  let bars := (x.ex.held.filter fun h => x.heldByte h.addr).map fun h => h.addr / 64
  let go := x.ex.held.filter fun h => !bars.contains (h.addr / 64)
  if go.isEmpty then x
  else
    { x with
      pool := memScatter x.pool (go.map fun h => (h.addr, h.byte)),
      ex := { x.ex with held := x.ex.held.filter fun h => bars.contains (h.addr / 64) },
      cp := { x.cp with runs := x.cp.runs.map fun r => if go.any fun h => h.src == .cp r.num then { r with wclk := clk } else r },
      note := x.notePrior clk [] (go.map fun h => (h.addr, h.src)) }

/-! ## Pool writes that have not performed (R73, R213) -/

/-- A pool write of the matrix engine is held. -/
def Context.heldMx (x : Context) : Bool := x.ex.held.any fun h => h.src == .mx

/-- A pool write of copy command `num` is held. -/
def Context.heldCp (x : Context) (num : W32) : Bool := x.ex.held.any fun h => h.src == .cp num

/-- A held write of a pool store of the sequencer: its classes and the number loads had then. -/
def HeldWrite.store? (h : HeldWrite) : Option (BitVec 16 × Nat) :=
  match h.src with
  | .sq mask after => some (mask, after)
  | _ => none

/-- A pool store of the sequencer is held. -/
def Context.heldSq (x : Context) : Bool := x.ex.held.any fun h => h.store?.isSome

/-- A pool store of one of these classes is held. -/
def Context.heldClass (x : Context) (mask : BitVec 16) : Bool :=
  x.ex.held.any fun h => h.store?.any fun u => u.1 &&& mask != 0

/-- A pool store that overlaps these bytes is held. -/
def Context.heldAt (x : Context) (a n : Nat) : Bool :=
  x.ex.held.any fun h => h.store?.isSome && decide (a ≤ h.addr) && decide (h.addr < a + n)

/-- Bytes placed from an address upward. -/
def placed (a : Nat) : List Byte → List (Nat × Byte)
  | [] => []
  | b :: r => (a, b) :: placed (a + 1) r

/-- Semaphore `n` (R143). -/
def Context.semVal (x : Context) (n : Nat) : Nat := (x.sem.getD n 0).toNat

/-- The value a signal of clock `clk` is tested against: the value at the start of the clock with the signals applied
since, whatever waits have taken (R144). -/
def Context.semTest (x : Context) (clk n : Nat) : Nat := x.semVal n + (x.noteAt clk).taken.getD n 0

/-- Applies a signal; none where the sum would exceed 65535 (R143, R144). -/
def Context.semSignal (x : Context) (clk n v : Nat) : Option Context :=
  if 65535 < x.semTest clk n + v then none
  else some { x with sem := x.sem.setIfInBounds n (BitVec.ofNat 16 (x.semVal n + v)) }

/-- Grants a wait (R143, R144). -/
def Context.semTake (x : Context) (clk n v : Nat) : Context :=
  let m := x.noteAt clk
  { x with
    sem := x.sem.setIfInBounds n (BitVec.ofNat 16 (x.semVal n - v)),
    note := { m with taken := m.taken.set n (m.taken.getD n 0 + v) } }

/-! ## Fault records (R31, R72) -/

/-- DETAIL0 of a memory fault (R72). -/
def memDet0 (pool atom wr : Bool) (scope : Nat) (sc : Bool) (path cls size : Nat) : W64 :=
  BitVec.ofNat 64 (pool.toNat * 2 ^ 23 + atom.toNat * 2 ^ 22 + wr.toNat * 2 ^ 21 + scope * 2 ^ 19 + sc.toNat * 2 ^ 18 +
    path * 2 ^ 12 + cls * 2 ^ 8 + (if 256 ≤ size then 255 else size - 1))

/-- The STATE of a memory fault (R72). -/
def memFaultState (code : Nat) : Nat := if code = 0x0101 ∨ code = 0x0102 ∨ code = 0x0103 then 2 else 0

/-- Work item `wid` of a launch enters state `st` on context `c` (R367). -/
def Launch.setItem (l : Launch) (wid : W64) (st : IState) (c : Nat) : Launch :=
  if l.items.any fun i => i.wid == wid then
    { l with items := l.items.map fun i => if i.wid == wid then ⟨wid, st, c⟩ else i }
  else { l with items := l.items ++ [⟨wid, st, c⟩] }

/-- Changes the launch of a queue with a sequence number. -/
def State.modLaunch (s : State) (q : Nat) (lseq : W32) (f : Launch → Launch) : State :=
  { s with launches := s.launches.map fun l => if l.q == q && l.lseq == lseq then f l else l }

/-- The launch of a queue with a sequence number, if admitted. -/
def State.launchOf (s : State) (q : Nat) (lseq : W32) : Option Launch :=
  s.launches.find? fun l => l.q == q && l.lseq == lseq

/-- The work item a context holds enters a state of R367. -/
def State.setItemOf (s : State) (c : CtxId) (st : IState) : State :=
  match (s.ctx c).job with
  | some j => s.modLaunch j.q j.lseq fun l => l.setItem j.wid st c.val
  | none => s

/-- A STATE 2 record of a launch's work items is written: the first, by RSEQ, gives the launch its completion code (R33). -/
def Launch.noteErr (l : Launch) (code : Nat) : Launch := { l with err := some (l.err.getD code) }

/-- Adds a record detected in clock `clk` to those awaiting a slot of their exception queue (R34, R35). -/
def State.addFaultAt (s : State) (q : Nat) (src : FaultSrc) (r : FaultRec) (clk : Nat) : State :=
  { s with faults := s.faults ++ [⟨q, src, r, clk, false, none, false⟩] }

/-- Adds a record detected now. -/
def State.addFault (s : State) (q : Nat) (src : FaultSrc) (r : FaultRec) : State := s.addFaultAt q src r s.clk

/-- What a STATE 2 fault does to a context (R33, log entry 13): its item has ended, so its sequencer issues nothing more and
the faulting engine drops its queue; the other engines finish theirs. -/
def Context.endItem (x : Context) (eng : Nat) : Context :=
  let x := { x with run := if x.run = .ended then .ended else .done, failed := true, sleep := none, fb := [] }
  if eng = 1 then { x with exq := [], ex := { x.ex with block := none, buffer := [], pipe := [] } }
  else if eng = 2 then { x with mxq := [], fq := [], mx := { x.mx with runs := [], sigs := [], late := [] } }
  else if eng = 3 then { x with cpq := [], cp := { x.cp with runs := [], binds := [], cks := [] } }
  else if eng = 5 then { x with alq := [] }
  else x

/-- Halts the faulting engine of a context (R33). -/
def Context.haltEng (x : Context) (eng : Nat) : Context :=
  if eng = 0 then { x with run := .halt, sleep := none }
  else if eng = 1 then { x with ex := { x.ex with halted := true } }
  else if eng = 2 then { x with mx := { x.mx with halted := true } }
  else if eng = 3 then { x with cp := { x.cp with halted := true } }
  else if eng = 5 then { x with alHalted := true }
  else x

/-- A fault found now at WHERE `loc`. -/
def State.lateOf (s : State) (loc : W64) (f : FaultInfo) : LateFault := ⟨f, loc, s.now, s.clk⟩

/-- Raises a fault of an engine of a context (R31-R34, R91 FCNT): the record, with the time of its detection, goes to the
exception queue of the work item's launch queue, and the engine stops. -/
def State.raiseAt (s : State) (c : CtxId) (eng unit : Nat) (l : LateFault) : State :=
  let x := s.ctx c
  let q := match x.job with
    | some j => j.q
    | none => 0
  let lseq := match x.job with
    | some j => j.lseq
    | none => 0
  let wid := match x.job with
    | some j => j.wid
    | none => 0
  let f := l.f
  let r : FaultRec :=
    { state := f.st, unit := unit, core := c.core, ctx := c.bg, eng := eng, code := f.code, wid := wid, time := l.time,
      loc := l.loc, addr := f.addr, det0 := f.det0, det1 := f.det1, lseq := lseq }
  let s := s.addFaultAt q (.ctx c.val) r l.clk
  s.modCtx c fun x =>
    let x := { x with fcnt := satInc x.fcnt }
    if f.st = 2 then x.endItem eng else x.haltEng eng

/-- Raises a fault found now. -/
def State.raise (s : State) (c : CtxId) (eng unit : Nat) (loc : W64) (f : FaultInfo) : State :=
  s.raiseAt c eng unit (s.lateOf loc f)

/-- A fault of the sequencer in focus; WHERE is its pc (R103). -/
def State.seqFault (s : State) (c : CtxId) (f : FaultInfo) : State := s.raise c 0 0 ((s.ctx c).pc.zeroExtend 64) f

/-! ## Sequencer registers and fetch -/

/-- Register `r`; s0 reads zero (R88). -/
def Context.reg (x : Context) (r : Reg) : W64 := if r = 0 then 0 else x.x[r.toNat]

/-- Writes register `r`; a write to s0 is discarded (R88). -/
def Context.setReg (x : Context) (r : Reg) (v : W64) : Context :=
  if r = 0 then x else { x with x := x.x.set r.toNat v }

/-- A result for register `r` is still outstanding (R119). -/
def Context.busy (x : Context) (r : Reg) : Bool :=
  r != 0 && (x.loads.any (fun l => l.d == r) || x.divs.any (fun l => l.d == r))

/-- Whether a byte range lies in the kernel's sequencer section (R89). -/
def Context.inCode (x : Context) (a n : Nat) : Bool :=
  match x.job with
  | some j => decide (j.k.sq.base ≤ a) && decide (a + n ≤ j.k.sq.base + j.k.sq.len)
  | none => false

/-- A transfer target R89 allows: aligned, 48 bits, inside the section (R126). -/
def Context.okTarget (x : Context) (t : W64) : Bool :=
  decide (t.toNat % 4 = 0) && decide (t.toNat < 2 ^ 48) && x.inCode t.toNat 1

/-- The instruction words at the pc: word 0 and word 1 (R105). -/
def State.fetchWords (s : State) (x : Context) : Nat × Nat :=
  (memNat s.mem x.pc.toNat 4, memNat s.mem (x.pc.toNat + 4) 4)

/-- The length of the instruction whose first word is `w0` (R105). -/
def lenOf (w0 : Nat) : Nat := if w0 % 2 = 1 then 8 else 4

/-- The instruction at the pc as a DETAIL0, zero-extended if 32-bit (R103). -/
def State.insnWord (s : State) (x : Context) : W64 :=
  let w := s.fetchWords x
  BitVec.ofNat 64 (if w.1 % 2 = 1 then w.1 + 2 ^ 32 * w.2 else w.1)

/-- The fetch fault (R89, R126) with its ADDR, whose bits 63:48 a record holds as zero (R31; log entry 21). -/
def fetchFault (a : W64) : FaultInfo := ⟨0x0202, 0, BitVec.ofNat 64 (a.toNat % 2 ^ 48), 0, 0⟩

/-- The illegal-instruction fault (R103). -/
def State.illegalFault (s : State) (x : Context) : FaultInfo := ⟨0x0201, 0, 0, s.insnWord x, 0⟩

/-- A memory fault as it is raised (R72). -/
def memFault (code : Nat) (addr : Nat) (det0 : W64) : FaultInfo :=
  ⟨code, memFaultState code, BitVec.ofNat 64 (addr % 2 ^ 48), det0, 0⟩

/-! ## Traps (R100, R101) -/

/-- Trap entry, shared by `trap` and the two interrupts (R100, R102, R126): TEPC, TCAUSE, TVAL, TSTAT and IE, then the pc.
`epc` is the saved address. A faulting entry changes nothing else. -/
def State.trapEnter (s : State) (c : CtxId) (intr : Bool) (cause : BitVec 16) (val : W64) (epc : Addr) : State :=
  let x := s.ctx c
  if x.tvec = 0 then
    s.seqFault c ⟨0x0204, 0, 0, BitVec.ofNat 64 (cause.toNat + intr.toNat * 2 ^ 31), val⟩
  else if x.inh then
    s.seqFault c ⟨0x0203, 0, 0, BitVec.ofNat 64 (x.cause.toNat + x.intr.toNat * 2 ^ 31), x.tepc.zeroExtend 64⟩
  else if !x.okTarget (x.tvec.zeroExtend 64) then s.seqFault c (fetchFault (x.tvec.zeroExtend 64))
  else
    s.setCtx c { x with
      tepc := epc, intr := intr, cause := cause, tval := val, pie := x.ie.getLsbD 0, inh := true,
      ie := x.ie &&& 6#3, pc := x.tvec, run := .run, sleep := none }

/-- Return from a trap (R101): with INH = 0 an illegal instruction; with a bad TEPC a fetch fault (R126). -/
def State.trapReturn (s : State) (c : CtxId) : State :=
  let x := s.ctx c
  if !x.inh then s.seqFault c (s.illegalFault x)
  else if !x.okTarget (x.tepc.zeroExtend 64) then s.seqFault c (fetchFault (x.tepc.zeroExtend 64))
  else
    s.setCtx c { x with
      pc := x.tepc, ie := (x.ie &&& 6#3) ||| (if x.pie then 1#3 else 0#3), inh := false, run := .run }

/-- The timer is pending (R100). -/
def State.timerPending (s : State) (x : Context) : Bool := decide (x.tcmp.toNat ≤ s.now.toNat)
/-- The feedback source is pending (R100). -/
def Context.fbPending (x : Context) : Bool := !x.fb.isEmpty

/-! ## Discard (R98) -/

/-- Abandons everything in flight of a context and frees its wheel positions (R98, R185, R261, R299). The EX writes and
stores already made stay, and the sequencer's stores that R213 holds perform; the copy engine's do not (R98, R261). -/
def Context.discard (x : Context) : Context :=
  { x with
    loads := [], divs := [], sleep := none, exq := [], mxq := [], fq := [], cpq := [], alq := [], fb := [], wheel := [],
    alHalted := false, preq := none, seqLate := [], pool := memScatter x.pool ((x.ex.held.filter fun h => h.store?.isSome).map fun h => (h.addr, h.byte)),
    ex := { x.ex with block := none, buffer := [], pipe := [], held := [], halted := false },
    ports := x.ports.map fun p => { p with entries := [], cursor := 0, dir := none, bound := false, depth := 0 },
    mx := { x.mx with runs := [], halted := false, sigs := [], late := [], held := false },
    cp := { x.cp with runs := [], binds := [], cks := [], halted := false } }

/-- The pool addresses of a port's buffer while it holds it (R157). -/
def Port.range (p : Port) : List Nat :=
  if p.bound || !p.entries.isEmpty then (List.range (256 * p.depth)).map (p.buf + ·) else []

/-- Bytes of a released buffer hold no defined value (R157): each becomes free. -/
def State.freePool (s : State) (c : CtxId) (addrs : List Nat) : State :=
  let d := s.drawBytes addrs.length
  d.2.modCtx c fun x => { x with pool := memScatter x.pool (addrs.zip d.1) }

/-- A word of a copy of each 64-byte block: its old or its new bytes (R299), as a free value says. -/
def mixBlocks (pool : Mem) (free : Nat) (l : List (Nat × Byte)) : Mem :=
  memScatter pool (l.filter fun c => (Config.freeByte (free + c.1 / 64)).getLsbD 0)

/-- The matrix commands of a context are abandoned: of a writeback, each 64-byte block is old or new (R299). -/
def State.mxAbandon (s : State) (c : CtxId) : State :=
  let l := ((s.ctx c).mx.runs.filter fun r => r.stage == .writeback).flatMap (·.writes)
  if l.isEmpty then s
  else ({ s with free := s.free + 16384 }).modCtx c fun x => { x with pool := mixBlocks x.pool s.free l }

/-- The tile of a matrix command: first byte and length (R53, R54, R273). -/
def tileRange (j : Job) (acc : Byte) (f32 : Bool) : Nat × Nat :=
  (4096 * (j.k.abase + acc.toNat), if f32 then 4096 else 8192)

/-- WHERE of a matrix fault (R295). -/
def mxWhere (num : W32) : W64 := BitVec.ofNat 64 (num.toNat % 16 * 2 ^ 32 + num.toNat)

/-- DETAIL0 of a matrix fault (R295). -/
def mxDet0 (op acc undef : Nat) : W64 := BitVec.ofNat 64 (op * 2 ^ 56 + undef * 2 ^ 48 + acc * 2 ^ 40)

/-- Reports a matrix fault, or keeps it while another awaits its answer (R34). -/
def State.mxReport (s : State) (c : CtxId) (num : W32) (f : FaultInfo) : State :=
  if (s.ctx c).mx.halted then
    s.modCtx c fun x => { x with mx := { x.mx with late := x.mx.late ++ [s.lateOf (mxWhere num) f] } }
  else s.raise c 2 0 (mxWhere num) f

/-- The multiply of a crier command: its fields and its OP (R282). -/
def crierOf (i : Instr) : Option (MulForm × Nat) :=
  match i with
  | .mmul f => if f.bsel = 0 then none else some (f, 1)
  | .mmuls f => if f.bsel = 0 then none else some (f, 2)
  | _ => none

/-- A crier member whose group lost another member in compute: it stops, its tile is undefined, and it raises the crier fault,
reason 6 (R299). -/
def State.crierLost (s : State) (d : CtxId) (num : W32) : State :=
  let x := s.ctx d
  match x.job, x.mx.runs.find? fun r => r.num == num with
  | some j, some r =>
    match crierOf r.i with
    | some (f, op) =>
      let f32 := r.fmt.getLsbD 26
      let t := tileRange j f.acc f32
      let other := ((r.group.filter (· != d.val)).foldl Nat.min 383) / 2 % 16
      let s := s.freePool d ((List.range t.2).map (t.1 + ·))
      let s := s.modCtx d fun x =>
        { x with mxq := x.mxq.filter fun e => e.num != num, mx := { x.mx with runs := x.mx.runs.filter fun r => r.num != num } }
      s.mxReport d num ⟨0x0506, 1, 0, mxDet0 op f.acc.toNat (if f32 then 1 else 2),
        BitVec.ofNat 64 (6 * 2 ^ 52 + other * 2 ^ 48 + f.t.cseq.toNat * 2 ^ 32 + f.t.cseq.toNat * 2 ^ 16 + f.cmask.toNat)⟩
    | none => s
  | _, _ => s

/-- The other members of a crier group that computes with context `c` are lost with it (R299). -/
def State.crierBreak (s : State) (c : CtxId) : State :=
  ((s.ctx c).mx.runs.filter fun r => r.stage == .compute).foldl (fun s r =>
    (r.group.filter (· != c.val)).foldl (fun s d =>
      match (s.ctx (ctxOf d)).mx.runs.find? fun u => u.stage == .compute && u.group == r.group with
      | some u => s.crierLost (ctxOf d) u.num
      | none => s) s) s

/-- The faults an engine of a context has found and not yet raised, because an earlier one awaits its answer (R34). -/
def Context.lates (x : Context) : List (Nat × LateFault) :=
  x.seqLate.map (fun l => (0, l)) ++ x.mx.late.map (fun l => (2, l)) ++ x.cp.runs.filterMap fun r => r.late.map fun l => (3, l)

/-- Records of a context's engines that await an answer no longer hold anything: what faulted is abandoned; and faults found and held
back get their records in their turn, for no record is lost (R34, R35, log entry 40). -/
def State.detach (s : State) (c : CtxId) : State :=
  let s := (s.ctx c).lates.foldl (fun s l => s.raiseAt c l.1 0 l.2) s
  let f : FaultEntry → FaultEntry := fun e => if e.src = .ctx c.val then { e with src := .old c.val } else e
  { s with faults := s.faults.map f }

/-- Everything in flight of a context is abandoned, with what that does to the pool and to other cores (R98, R157, R261,
R299). -/
def State.abandon (s : State) (c : CtxId) : State :=
  let s := ((s.detach c).crierBreak c).mxAbandon c
  (s.freePool c ((s.ctx c).ports.flatMap Port.range)).modCtx c Context.discard

/-- Discards the work item of a context (R98): it waits, holding its context, until the scheduler dispatches it again. -/
def State.discardItem (s : State) (c : CtxId) : State :=
  ((s.abandon c).modCtx c fun x => { x with run := .idle }).setItemOf c .discarded

/-- Restores what the mark shadowed and starts again at RADDR (R98). -/
def Context.restore (x : Context) (wheel : List Nat) : Context :=
  { x with
    x := x.shadow.x, tvec := x.shadow.tvec, ie := x.shadow.ie, tcmp := x.shadow.tcmp, tscr := x.shadow.tscr,
    mb := x.shadow.mb, sem := x.shadow.sem, ex := { x.ex with q := x.shadow.q },
    banks := (x.banks.zip x.shadow.banks).map fun p => { p.1 with sel := p.2 },
    tepc := 0, intr := false, cause := 0, tval := 0, pie := false, inh := false, cmt := false, ccyc := 0, pend := false,
    wheel := wheel, pc := x.raddr, run := .run }

end Sys2Proof.Machine
end

