-- ==== Sys2Proof/Machine/Flags.lean ====
section
/-! DEFINITION. The sticky flags of FLG (R91): each engine raises the flags of R47 in its own group. -/

namespace Sys2Proof.Machine

/-- The group of FLG an engine's flags lie in: EX 4:0, MX 9:5, CP 14:10 (R91). -/
def flagShift (eng : Nat) : Nat := if eng = 1 then 0 else if eng = 2 then 5 else 10

/-- Raises flags of R47 in an engine's group (R91). FLG shows them from the next clock, and a write that clears FLG in this one does
not reach them (R188). -/
def Context.raiseFlags (x : Context) (eng : Nat) (f : FlagSet) : Context :=
  { x with flgNew := x.flgNew ||| (f.zeroExtend 15 <<< flagShift eng) }

/-- At the start of a clock FLG shows what the clock before raised (R188, R280). -/
def Context.showFlags (x : Context) : Context := { x with flg := x.flg ||| x.flgNew, flgNew := 0 }

/-- The union of flags of several lanes or elements. -/
def flagUnion (l : List FlagSet) : FlagSet := l.foldl (· ||| ·) 0

end Sys2Proof.Machine
end

