-- ==== Sys2Proof/Machine/Operands.lean ====
section
/-! DEFINITION. How instructions take their operands: the interlock of R119 and the sequencer's addresses and transfers. -/

namespace Sys2Proof.Machine

/-- What a meaning answers. -/
abbrev Answer := Host.Outcome State Fault Refusal

/-! ## Contexts of a core -/

/-- The core's engines serve this context: the background while the foreground holds no work item, or one that waits for the
background's discard (R368). -/
def State.serves (s : State) (c : CtxId) : Bool :=
  if c.bg then
    (s.ctx (ctxOf (c.val - 1))).await ||
      (match (s.ctx (ctxOf (c.val - 1))).run with
      | .idle => true
      | .ended => true
      | _ => false)
  else !(s.ctx c).await

/-! ## Sequencer -/

/-- Issues a sequencer instruction of the context in focus, which reads and writes the registers `rs`: it waits while one
of them is outstanding, staying in RUN (R119), and otherwise has the effect `f`. -/
def State.issue (s : State) (rs : List Reg) (f : CtxId → Context → State) : Answer :=
  if rs.any (s.ctx s.focus).busy then .next s else .next (f s.focus (s.ctx s.focus))

/-- The next instruction: the pc moves past this one and a stall ends (R94). -/
def Context.advance (x : Context) (len : Nat) : Context := { x with pc := x.pc + BitVec.ofNat 48 len, run := .run }

/-- Ends an instruction of `len` bytes that left the context as `x`. -/
def State.finish (s : State) (c : CtxId) (x : Context) (len : Nat) : State := s.setCtx c (x.advance len)

/-- An instruction that waits (R94): the context is in STALL and nothing else changes. -/
def State.stall (s : State) (c : CtxId) : State := s.modCtx c fun x => { x with run := .stall }

/-- Runs an operation with context `c` in focus, and puts the focus back. -/
def State.onFocus (s : State) (c : CtxId) (f : State → Answer) : Answer :=
  match f { s with focus := c } with
  | .next t => .next { t with focus := s.focus }
  | .fault r => .fault r
  | .refused r => .refused r

/-- The state an answer leads to; `s` where it stops. -/
def Answer.stateOr (s : State) : Answer → State
  | .next t => t
  | .fault _ => s
  | .refused _ => s

/-- A register operation on two registers (R120). -/
def State.alu (s : State) (d a b : Reg) (f : W64 → W64 → W64) : Answer :=
  s.issue [a, b, d] fun c x => s.finish c (x.setReg d (f (x.reg a) (x.reg b))) 4

/-- An operation on one register and a constant (R122). -/
def State.alu1 (s : State) (d a : Reg) (f : W64 → W64) : Answer :=
  s.issue [a, d] fun c x => s.finish c (x.setReg d (f (x.reg a))) 4

/-- A division (R119, R121): its result lands through DIVISION_RESULT. -/
def State.divide (s : State) (d a b : Reg) (f : W64 → W64 → W64) : Answer :=
  s.issue [a, b, d] fun c x =>
    s.finish c (if d = 0 then x else { x with divs := x.divs ++ [⟨d, f (x.reg a) (x.reg b), s.clk⟩] }) 4

/-- 1 for true, 0 for false (R120). -/
def boolW (b : Bool) : W64 := if b then 1 else 0

/-- A target relative to the pc in instruction words, as 64 bits (R106). -/
def Context.rel {n : Nat} (x : Context) (off : BitVec n) : W64 := x.pc.zeroExtend 64 + 4 * off.signExtend 64

/-- A transfer to `t` with the link register written first (R124 to R126); a target that R89 does not allow is a fetch
fault with no effect. -/
def State.jumpTo (s : State) (c : CtxId) (x : Context) (link : Reg) (t : W64) : State :=
  if x.okTarget t then
    s.setCtx c { x.setReg link ((x.pc + 4).zeroExtend 64) with pc := t.setWidth 48, run := .run }
  else s.seqFault c (fetchFault t)

/-- A conditional branch (R124). -/
def State.branch (s : State) (a b : Reg) (off : BitVec 15) (p : W64 → W64 → Bool) : Answer :=
  s.issue [a, b] fun c x =>
    if p (x.reg a) (x.reg b) then s.jumpTo c x 0 (x.rel off) else s.finish c x 4

/-! ## Sequencer accesses (R128 to R133) -/

/-- Bytes of an access type (R128). -/
def accBytes : AccTy → Nat
  | .i8 => 1 | .n8 => 1 | .i16 => 2 | .n16 => 2 | .i32 => 4 | .n32 => 4 | .i64 => 8 | .n64 => 8

/-- The register value of `n` bytes read as a type: sign-extended for `.iN`, zero-extended for `.nN` (R128). -/
def accExt (t : AccTy) (v : Nat) : W64 :=
  match t with
  | .i8 => BitVec.ofInt 64 (sextN 8 v) | .i16 => BitVec.ofInt 64 (sextN 16 v) | .i32 => BitVec.ofInt 64 (sextN 32 v)
  | .i64 => BitVec.ofNat 64 v
  | .n8 => BitVec.ofNat 64 (v % 2 ^ 8) | .n16 => BitVec.ofNat 64 (v % 2 ^ 16) | .n32 => BitVec.ofNat 64 (v % 2 ^ 32)
  | .n64 => BitVec.ofNat 64 v

/-- A sequencer access as its checks and its fault record see it: address, size, whether it writes, is an atomic, is a
`.sc` form, may reach the host window (R61), its scope and its class (R72). -/
structure Acc where
  ea : W64
  n : Nat
  align : Nat
  wr : Bool
  atom : Bool
  sc : Bool
  host : Bool
  scope : Nat
  cls : Nat
  deriving DecidableEq, Repr

/-- DETAIL0 of an access's memory fault (R72); an atomic also counts as a write. -/
def Acc.det0 (a : Acc) (pool : Bool) : W64 := memDet0 pool a.atom (a.wr || a.atom) a.scope a.sc pathSQ a.cls a.n

/-- The fault record of an access with its ADDR. -/
def Acc.fault (a : Acc) (pool : Bool) (code addr : Nat) : FaultInfo := memFault code addr (a.det0 pool)

/-- The lease list of a context's launch; none without a work item (R69). -/
def Context.leases (x : Context) : List Lease :=
  match x.job with
  | some j => j.leases
  | none => []

/-- Whether a path-SQ access may reach its region (R59, R61). -/
def Acc.pathOk (a : Acc) (r : Region) : Bool := pathReaches r pathSQ && (r != .host || a.host)

/-- The first fault of a device access, in the order of R128 and R151: address, access path, alignment, lease,
write-protect. -/
def State.devFault (s : State) (x : Context) (a : Acc) : Option FaultInfo :=
  let ea := a.ea.toNat
  if 2 ^ 48 ≤ ea then some (a.fault false 0x0101 ea)
  else
    match regionOf ea, addrFault ea a.n with
    | none, _ => some (a.fault false 0x0101 ea)
    | some _, some f => some (a.fault false 0x0101 f)
    | some (r, _), none =>
      if !a.pathOk r then some (a.fault false 0x0105 ea)
      else if ea % a.align != 0 then some (a.fault false 0x0104 ea)
      else
        match leaseFault x.leases (!a.wr || a.atom) (a.wr || a.atom) ea a.n with
        | some f => some (a.fault false 0x0102 f)
        | none =>
          if a.wr || a.atom then (roFault s.ro ea a.n).map (a.fault false 0x0103) else none

/-- The carve-out of a context; without a work item no pool address is open (R63). -/
def Context.carve (x : Context) : Nat × Nat × Nat :=
  match x.job with
  | some j => (j.cv1, j.cv2, j.cv3)
  | none => (0, 0, 0)

/-- The first fault of a pool access: pool range, then alignment (R128). -/
def Context.poolAccFault (x : Context) (a : Acc) : Option FaultInfo :=
  let ea := a.ea.toNat
  if 2 ^ 20 ≤ ea then some (a.fault true 0x0106 ea)
  else
    match poolFault x.carve.1 x.carve.2.1 x.carve.2.2 pathSQ ea a.n with
    | some f => some (a.fault true 0x0106 f)
    | none => if ea % a.align != 0 then some (a.fault true 0x0104 ea) else none

/-- Whether an address lies in the host window. -/
def inHost (a : Nat) : Bool :=
  match regionOf a with
  | some (.host, _) => true
  | _ => false

/-- Whether an access of the classes `mask` at `n` bytes from `ea` must wait for an access that has not performed: a host-window read of
a class in the mask or of overlapping bytes, or a held pool store of a class in the mask (R74, R76, R213). -/
def Context.hostWait (x : Context) (mask : BitVec 16) (ea n : Nat) : Bool :=
  x.heldClass mask || x.loads.any fun l => l.host && ((l.mask &&& mask) != 0 ||
    (decide (l.addr < ea + n) && decide (ea < l.addr + accBytes l.ty)))

/-- The same of a pool access at `n` bytes from `ea`: it also waits for a held store of one of its bytes (R74). -/
def Context.poolWait (x : Context) (mask : BitVec 16) (ea n : Nat) : Bool := x.heldAt ea n || x.hostWait mask 0 0

/-- No host-window read is outstanding. -/
def Context.readsIn (x : Context) : Bool := x.loads.all fun l => !l.host

/-- Every earlier access has performed (R73): no host-window read is outstanding and no pool store is held (every other access performs
at issue, log entry 4). -/
def Context.performed (x : Context) : Bool := x.readsIn && !x.heldSq

/-- Every entry pushed to the execute queue has completed (R81, R95). -/
def Context.exIdle (x : Context) : Bool := x.exq.isEmpty && x.ex.block.isNone && x.ex.pipe.isEmpty
/-- Every entry pushed to the matrix queue has completed and its writes have performed (R81, R95, R213). -/
def Context.mxIdle (x : Context) : Bool := x.mxq.isEmpty && x.mx.runs.isEmpty && !x.heldMx
/-- Every entry pushed to the copy queue has completed and no stream binding is active (R81, R95). -/
def Context.cpIdle (x : Context) : Bool := x.cpq.isEmpty && x.cp.binds.isEmpty

/-- The mask of one class. -/
def clsMask (c : BitVec 4) : BitVec 16 := 1#16 <<< c.toNat

/-- The bus address of a host-window address (R61). -/
def State.bus (s : State) (a : Nat) : Nat := (s.hwbase.toNat + (a - 0x400000000000)) % 2 ^ 64

/-- Records a load: its value is fixed now and lands later (R119); a load into s0 leaves nothing outstanding. -/
def Context.record (x : Context) (d : Reg) (t : AccTy) (v : Nat) : Context :=
  if d = 0 then x
  else { x with loads := x.loads ++ [⟨x.loadNum, d, accExt t v, false, t, 0, 0, 0, 0, false⟩], loadNum := x.loadNum + 1 }

/-- Issues a host-window read (R61). -/
def State.hostLoad (s : State) (c : CtxId) (x : Context) (d : Reg) (t : AccTy) (a : Acc) (mask : BitVec 16) (acq : Bool) :
    State :=
  let l : OutLoad := ⟨x.loadNum, d, 0, true, t, a.ea.toNat, x.pc, a.det0 false, mask, acq⟩
  (s.finish c { x with loads := x.loads ++ [l], loadNum := x.loadNum + 1 } 8).send
    (.hostRead c.val x.loadNum (s.bus a.ea.toNat) (accBytes t))

/-- A load from device memory or the host window (R128 to R130). -/
def State.load (s : State) (c : CtxId) (x : Context) (d : Reg) (t : AccTy) (a : Acc) (mask : BitVec 16) (acq : Bool) :
    State :=
  if inHost a.ea.toNat then s.hostLoad c x d t a mask acq
  else s.finish c (x.record d t (memNat s.mem a.ea.toNat (accBytes t))) 8

/-- Writes `n` bytes of a register to device memory, or posts them to the host (R61, R128). -/
def State.put (s : State) (ea n : Nat) (v : W64) : State :=
  if inHost ea then s.send (.hostWrite (s.bus ea) (leBytes n v.toNat) false)
  else s.store ea (leBytes n v.toNat)

/-- The region becomes committed (R96). -/
def Context.commit (x : Context) : Context := { x with cmt := true }

/-- Whether a wheel position of this clock belongs to the context (R84, R85). -/
def State.onWheel (s : State) (x : Context) : Bool := x.wheel.contains (s.clk % 512)

/-! ## The order of a clock (log entry 3) -/

/-- The context whose engine an actor is. -/
def Actor.ctx? (a : Actor) : Option CtxId :=
  match a with
  | .sq c => some c | .ex c => some c | .mx c => some c | .mxb c => some c | .cp c => some c | .ev c => some c
  | .al => none | .ln _ => none

/-- No engine of a context has yet acted in this clock at a place after `k`. -/
def State.placeOk (s : State) (c : CtxId) (k : Nat) : Bool := s.acted.all fun a => a.1.ctx? != some c || decide (a.2 ≤ k)

/-- Notes that a part acts at place `k` of this clock. -/
def State.noteActed (s : State) (a : Actor) (k : Nat) : State := { s with acted := s.acted ++ [(a, k)] }

/-! ## The matrix queue -/

/-- The matrix-queue entry at the head of the unbegun part (R278). -/
def Context.mxHead (x : Context) : Option MxEntry := x.mxq.find? fun e => !x.mx.runs.any fun r => r.num == e.num

/-! ## Pool accesses of the second port (R66, R157) -/

/-- A pool byte lies in a buffer that a port holds (R157). -/
def Context.inBuffer (x : Context) (a : Nat) : Bool :=
  x.ports.any fun p => (p.bound || !p.entries.isEmpty) && decide (p.buf ≤ a) && decide (a < p.buf + 256 * p.depth)

/-- Reads pool bytes in the present clock: a byte of a buffer that a port holds is free (R157). -/
def State.poolRead (s : State) (x : Context) (a n : Nat) : List Byte × State :=
  let v := x.poolGet s.clk a n
  if (List.range n).any fun i => x.inBuffer (a + i) then
    let d := s.drawBytes n
    ((v.zip d.1).zipIdx.map fun b => if x.inBuffer (a + b.2) then b.1.2 else b.1.1, d.2)
  else (v, s)

/-- The lanes of a port's buffer units that a write touches (R157). -/
def Port.touched (p : Port) (l : List (Nat × Byte)) : List Nat :=
  if p.bound || !p.entries.isEmpty then
    (l.filter fun c => decide (p.buf ≤ c.1) && decide (c.1 < p.buf + 256 * p.depth)).map fun c => (c.1 - p.buf) % 256 / 4
  else []

/-- The port with those lanes of every entry replaced by free bytes drawn from `k` on (R157: which unit holds which entry is
not defined). -/
def Port.spoil (p : Port) (lanes : List Nat) (k : Nat) : Port :=
  if lanes.isEmpty then p
  else
    { p with entries := p.entries.zipIdx.map fun e =>
        { e.1 with data := e.1.data.zipIdx.map fun b =>
            if lanes.contains (b.2 / 4) then Config.freeByte (k + 256 * e.2 + b.2) else b.1 } }

/-- Writes pool bytes through the second port for `src` in the present clock, with what that does to a buffer a port holds (R157). -/
def State.poolStore (s : State) (x : Context) (src : HeldBy) (l : List (Nat × Byte)) : Context × State :=
  let y := x.poolPut s.clk src l
  if l.any fun c => x.inBuffer c.1 then
    ({ y with ports := y.ports.zipIdx.map fun p => p.1.spoil (p.1.touched l) (s.free + 65536 * p.2) },
      { s with free := s.free + 65536 * 16 })
  else (y, s)

/-! ## Execute operands (R152 to R156, R174, R186) -/

/-- What a slot reads at issue: the context, its work item and its running block. -/
structure ExIn where
  c : CtxId
  x : Context
  j : Job
  b : RunBlock
  clk : Nat

/-- The view a vector field names, with VX where X is set (R156, R187). -/
def ExIn.view (e : ExIn) (field : BitVec 7) (xf : Bool) : Nat := field.toNat + if xf then e.b.vx else 0
/-- The pool address of a view (R65). -/
def ExIn.addr (e : ExIn) (v : Nat) : Nat := 256 * (e.j.k.vbase + v)
/-- The 256 bytes of a view (R152). -/
def ExIn.vec (e : ExIn) (v : Nat) : List Byte := e.x.poolGet e.clk (e.addr v) 256
/-- Mask `q`; q0 reads as all ones (R154). -/
def ExIn.mask (e : ExIn) (q : BitVec 3) : W64 := if q = 0 then BitVec.allOnes 64 else e.x.ex.q[q.toNat]

/-- The elements of `w` bytes of a vector. -/
def lanesOf (w : Nat) (bs : List Byte) : List Nat :=
  (List.range (256 / w)).map fun i => leNat ((bs.drop (w * i)).take w)

/-- The side of a bank in front at the start of the present clock (R219). -/
def Context.frontOf (x : Context) (clk bank : Nat) : Bool :=
  let sel := (x.banks.getD bank Bank.reset).sel
  if ((x.noteAt clk).swaps.filter (· == bank)).length % 2 = 1 then !sel.front else sel.front

/-- A bank's entries and valid count on its front side: side 1 when `front` (R158, R252). -/
def Context.frontSide (x : Context) (clk bank : Nat) : List (BitVec 16) × Nat :=
  let b := x.banks.getD bank Bank.reset
  if x.frontOf clk bank then (b.side1, b.sel.valid1) else (b.side0, b.sel.valid0)

end Sys2Proof.Machine
end

