-- ==== Sys2Proof/Machine/ExPipe.lean ====
section
/-! DEFINITION. The execute core's pipeline: fetching and starting a block (R160, R161), issuing a slot, frozen clocks
(R165 to R168), retiring (R162, R164), loops (R170 to R172), completing a block, and its faults (R182 to R184). -/

namespace Sys2Proof.Machine

/-! ## Slots -/

/-- What a slot's operation answers at issue: a fault of R183 with its DETAIL1, a clock in which it cannot issue (R165), or
the state after its effects of the issue clock with the operation that goes into the pipeline. -/
inductive ExRes
  | fault (code : Nat) (det1 : W64)
  | freeze
  | run (s : State) (o : Option InFlight)

/-- The word of slot `k` of a bundle (R173). -/
def slotWord (bundle : BitVec 128) (k : Nat) : Nat := bundle.toNat / 2 ^ (32 * k) % 2 ^ 32

/-- The bundle to issue next. -/
def RunBlock.bundle (b : RunBlock) : BitVec 128 := b.bundles.getD b.off 0

/-- WHERE of an execute fault (R182). -/
def exWhere (b : RunBlock) : W64 := BitVec.ofNat 64 (b.blk % 65536 * 2 ^ 32 + b.off % 65536 * 2 ^ 16)

/-- Raises an execute fault found at slot `slot` (R182, R184): the core halts. -/
def State.exFault (s : State) (c : CtxId) (b : RunBlock) (slot code : Nat) (word : Nat) (det1 : W64) : State :=
  s.raise c 1 0 (exWhere b)
    ⟨code, 0, 0, BitVec.ofNat 64 (word * 2 ^ 32 + slot * 2 ^ 16 + b.icyc % 65536), det1⟩

/-- A frozen clock (R166, R167): one more slip, in the block and in SLIPC. -/
def State.exFrozen (s : State) (c : CtxId) : State :=
  s.modCtx c fun x =>
    match x.ex.block with
    | some b => { x with ex := { x.ex with block := some { b with slip := b.slip + 1 } }, slipc := x.slipc + 1 }
    | none => x

/-- The first view beyond the kernel's, or beyond 127 (R156), in the order D, A, B of the fields (log entry 80). -/
def ExIn.badView (e : ExIn) (vs : List Nat) : Option Nat := vs.find? fun v => decide (128 ≤ v) || decide (e.j.k.vn ≤ v)

/-- DETAIL1 of a view-range fault (R183). -/
def ExIn.viewDet (e : ExIn) (v : Nat) : W64 := BitVec.ofNat 64 (e.j.k.vn % 256 * 256 + v % 256)

/-- Puts an operation into the pipeline (R162); a plane write takes its blocks from the second port (R213). -/
def State.exEnter (s : State) (c : CtxId) (slot : Nat) (o : InFlight) : State :=
  s.modCtx c fun x =>
    match x.ex.block with
    | some b =>
      let x := x.claim s.clk o
      { x with ex := { x.ex with
          pipe := x.ex.pipe ++ [{ o with slot := slot, seq := b.seq }], block := some { b with seq := b.seq + 1 } } }
    | none => x

/-- Issues a slot's operation in the running block of the context in focus: the views its fields reach are checked first
(R156), then its own conditions. -/
def State.exOp (s : State) (slot : Nat) (views : ExIn → List Nat) (f : ExIn → ExRes) : Answer :=
  let c := s.focus
  let x := s.ctx c
  match x.job, x.ex.block with
  | some j, some b =>
    if x.ex.halted || b.draining then .next s
    else
      let e : ExIn := ⟨c, x, j, b, s.clk⟩
      let word := slotWord b.bundle slot
      match e.badView (views e) with
      | some v => .next (s.exFault c b slot 0x0302 word (e.viewDet v))
      | none =>
        match f e with
        | .fault code det1 => .next (s.exFault c b slot code word det1)
        | .freeze => .next (s.exFrozen c)
        | .run t none => .next t
        | .run t (some o) => .next (t.exEnter c slot o)
  | _, _ => .next s

/-- An operation of latency `left` that writes nothing yet. -/
def InFlight.start (left : Nat) : InFlight := ⟨left, 0, 0, [], none, none, none, 0, false⟩

/-- The operation that writes elements of `w` bytes from pool address `base`: (element, value, flags), each governed by a
mask bit (R186). Elements not selected write nothing and raise no flag. -/
def laneWrite (left w base : Nat) (m : W64) (gov : Nat → Nat) (res : List (Nat × Nat × FlagSet)) : InFlight :=
  let sel := res.filter fun r => m.getLsbD (gov r.1)
  { InFlight.start left with
    bytes := sel.flatMap fun r => placed (base + w * r.1) (leBytes w r.2.1), flags := flagUnion (sel.map (·.2.2)) }

/-- Results numbered by lane. -/
def numbered {α : Type} (l : List α) : List (Nat × α) := l.zipIdx.map fun p => (p.2, p.1)

/-- A mask write (R194, R205): q0 discards it. -/
def maskWrite (left : Nat) (q : Nat) (sel bits : W64) (fl : FlagSet) : InFlight :=
  { InFlight.start left with mask := if q = 0 then none else some (q, sel, bits), flags := fl }

/-- The 64-bit mask of a list of lane bits. -/
def maskOf (l : List Bool) : W64 := BitVec.ofNat 64 (l.zipIdx.foldl (fun a b => if b.1 then a + 2 ^ b.2 else a) 0)

/-! ## Retiring (R162, R164, R188, R213) -/

/-- The banks with the sides of bank `k` exchanged (R218, R219). -/
def swapBank (banks : List Bank) (k : Nat) : List Bank :=
  banks.zipIdx.map fun (b : Bank × Nat) =>
    if b.2 = k then { b.1 with sel := { b.1.sel with front := !b.1.sel.front } } else b.1

/-- One operation writes its destinations, in clock `clk`. -/
def Context.retireOp (x : Context) (clk : Nat) (o : InFlight) : Context :=
  let x := x.exPut clk o.bytes
  let x := match o.mask with
    | some (q, sel, bits) =>
      { x with ex := { x.ex with
          q := x.ex.q.setIfInBounds q ((x.ex.q.getD q 0 &&& ~~~sel) ||| (bits &&& sel)) } }
    | none => x
  let x := match o.vx, x.ex.block with
    | some v, some b => { x with ex := { x.ex with block := some { b with vx := v } } }
    | _, _ => x
  let x := match o.swap with
    | some k =>
      { x with
        banks := swapBank x.banks k,
        note := let n := x.noteAt clk; { n with swaps := k :: n.swaps } }
    | none => x
  let x := if o.hold then
      { x with note := let n := x.noteAt clk; { n with landed := o.bytes.map Prod.fst ++ n.landed } }
    else x
  x.raiseFlags 1 o.flags

/-- Every operation whose last step is done writes, slot A first so that D wins, and in one slot in issue order (R164). -/
def Context.retire (x : Context) (clk : Nat) : Context :=
  let due := x.ex.pipe.filter fun o => o.left == 0
  let x := { x with ex := { x.ex with pipe := x.ex.pipe.filter fun o => o.left != 0 } }
  [0, 1, 2, 3].foldl (fun x k => (due.filter fun o => o.slot == k).foldl (fun x o => x.retireOp clk o) x) x

/-- The pipelines advance by one clock (R162). -/
def Context.pipeAdvance (x : Context) : Context :=
  { x with ex := { x.ex with pipe := x.ex.pipe.map fun o => { o with left := o.left - 1 } } }

/-- OPERATION_RETIRE: operations whose latency has run retire (R162). -/
def execOperationRetire (c : CtxId) (s : State) : Answer := .next (s.modCtx c fun x => x.retire s.clk)

/-! ## Loops (R170 to R172, R227) -/

/-- The innermost active loop whose last bundle is `b` (R171): the one whose body begins latest. -/
def innermost (lc : List LoopCtr) (b : Nat) : Option Nat :=
  (lc.zipIdx.foldl (fun (acc : Option (Nat × Nat)) l =>
    if l.1.active && l.1.last == b then
      match acc with
      | some (_, f) => if f < l.1.first then some (l.2, l.1.first) else acc
      | none => some (l.2, l.1.first)
    else acc) none).map Prod.fst

/-- The end test of R171 for a bundle at `b`: the loop counters after it and the next offset; `fuel` bounds the loops. -/
def endTest (lc : List LoopCtr) (b : Nat) : Nat → List LoopCtr × Nat
  | 0 => (lc, b + 1)
  | fuel + 1 =>
    match innermost lc b with
    | none => (lc, b + 1)
    | some k =>
      let l := lc.getD k ⟨false, 0, 0, 0⟩
      if 1 < l.count.toNat then (lc.set k { l with count := l.count - 1 }, l.first)
      else endTest (lc.set k { l with count := 0, active := false }) b fuel

/-- After a bundle issued: the next offset, and issue ends beyond the block's last bundle (R161, R171, R227). -/
def RunBlock.endBundle (b : RunBlock) : RunBlock :=
  let r := endTest b.lc (b.jump.getD b.off) 4
  { b with lc := r.1, off := r.2, jump := none, icyc := b.icyc + 1, draining := decide (b.bundles.length ≤ r.2) }

/-- A loop operation opens a loop with a count, or skips its body (R170). -/
def RunBlock.openLoop (b : RunBlock) (n e : Nat) (count : W32) : RunBlock :=
  if count = 0 then { b with jump := some (b.off + e) }
  else { b with lc := b.lc.set n ⟨true, count, b.off + 1, b.off + e⟩ }

/-- The loop fault's condition (R172). -/
def RunBlock.loopBad (b : RunBlock) (n e : Nat) : Bool :=
  (b.lc.getD n ⟨false, 0, 0, 0⟩).active || b.lc.all (·.active) || decide (b.bundles.length ≤ b.off + e) ||
    b.lc.any fun l => l.active && decide (l.last < b.off + e)

/-- DETAIL1 of a loop fault (R183). -/
def RunBlock.loopDet (b : RunBlock) (n : Nat) : W64 :=
  BitVec.ofNat 64 ((b.lc.zipIdx.foldl (fun a l => if l.1.active then a + 2 ^ l.2 else a) 0) * 16 + n)

/-! ## Blocks (R160, R161) -/

/-- The bundles of a kernel's block `blk`, read from the execute section's directory (R160). -/
def State.blockBundles (s : State) (k : Kernel) (blk : Nat) : List (BitVec 128) :=
  let e := memNat s.mem (k.ex.base + 8 + 8 * (k.exBase + blk)) 8
  let off := e % 2 ^ 32
  let count := e / 2 ^ 32 % 2 ^ 11
  (List.range count).map fun i => BitVec.ofNat 128 (memNat s.mem (k.ex.base + off + 16 * i) 16)

/-- BLOCK_FETCH: a block at one of the two head positions comes into the buffer of two (R161). -/
def execBlockFetch (c : CtxId) (s : State) : Answer :=
  let x := s.ctx c
  match x.job with
  | none => .next s
  | some j =>
    let heads := (x.exq.take 2).map (·.blk)
    match heads.find? fun b => !x.ex.buffer.any fun u => u.blk == b with
    | none => .next s
    | some b =>
      let keep := x.ex.buffer.filter fun u => heads.contains u.blk
      .next (s.setCtx c { x with ex := { x.ex with buffer := keep ++ [⟨b, s.blockBundles j.k b⟩] } })

/-- BLOCK_START: the block at the queue's head starts once it is in the buffer and no other runs (R161); VX, the loop counters
and the slip count are reset and the mailbox snapshot is the entry's (R159). -/
def execBlockStart (c : CtxId) (s : State) : Answer :=
  let x := s.ctx c
  match x.exq with
  | [] => .next s
  | h :: _ =>
    if x.ex.halted || x.ex.block.isSome then .next s
    else
      match x.ex.buffer.find? fun u => u.blk == h.blk with
      | none => .next s
      | some u =>
        let b : RunBlock := ⟨h.blk, u.bundles, 0, 0, 0, List.replicate 4 ⟨false, 0, 0, 0⟩, h.mb, 0, none, false, 0⟩
        .next (s.setCtx c { x with ex := { x.ex with block := some b } })

/-- BLOCK_COMPLETE: in the clock in which the last operation in flight retires: SLIPL, and the entry leaves the queue
(R161). -/
def execBlockComplete (c : CtxId) (s : State) : Answer :=
  let x := s.ctx c
  match x.ex.block with
  | none => .next s
  | some b =>
    if b.draining && x.ex.pipe.isEmpty && !x.ex.halted then
      .next (s.setCtx c { x with
        exq := x.exq.tail, ex := { x.ex with block := none }, slipBlk := BitVec.ofNat 16 b.blk,
        slipCnt := BitVec.ofNat 32 b.slip })
    else .next s

/-- The freeze condition's number in DETAIL1 of a slip-budget fault, from slot D's opcode (R183). -/
def freezeCode (word : Nat) : Nat :=
  match word / 2 ^ 25 with
  | 0x01 => 1 | 0x04 => 1 | 0x12 => 2 | 0x02 => 3 | 0x03 => 3 | 0x20 => 4 | _ => 5

/-- The rest of a block is abandoned and its entry leaves the queue (R184 skip): nothing in flight is written, and the writes
held for it land with the next clock (R213). -/
def Context.dropBlock (x : Context) : Context :=
  { x with
    exq := x.exq.tail, ex := { x.ex with block := none, pipe := [] } }

/-! ## Slot operations on lanes (R186) -/

/-- An operation on elements of `w` bytes: each result from the elements of A, B and the old destination. -/
def State.exElems (s : State) (slot left w : Nat) (f : VForm) (fn : Nat → Nat → Nat → Nat × FlagSet) : Answer :=
  s.exOp slot (fun e => [e.view f.d f.x, e.view f.a f.x, e.view f.b f.x]) fun e =>
    let d := e.view f.d f.x
    let a := lanesOf w (e.vec (e.view f.a f.x))
    let b := lanesOf w (e.vec (e.view f.b f.x))
    let o := lanesOf w (e.vec d)
    .run s (some (laneWrite left w (e.addr d) (e.mask f.q) (fun i => i * w / 4)
      (numbered ((a.zip (b.zip o)).map fun v => fn v.1 v.2.1 v.2.2))))

/-- An operation on 32-bit lanes that raises no flag. -/
def State.exLanes (s : State) (slot left : Nat) (f : VForm) (fn : Nat → Nat → Nat) : Answer :=
  s.exElems slot left 4 f fun a b _ => (fn a b, 0)

/-- A compare of 32-bit lanes into a mask, under a write mask (R194). Its flags are those of the lanes the write mask selects, also
where the destination is q0 (log entry 85). -/
def State.exCmp (s : State) (slot left : Nat) (f : VForm) (fn : Nat → Nat → Bool × FlagSet) : Answer :=
  s.exOp slot (fun e => [e.view f.a f.x, e.view f.b f.x]) fun e =>
    let a := lanesOf 4 (e.vec (e.view f.a f.x))
    let b := lanesOf 4 (e.vec (e.view f.b f.x))
    let r := (a.zip b).map fun v => fn v.1 v.2
    let m := e.mask f.q
    .run s (some (maskWrite left (f.d.toNat % 8) m (maskOf (r.map (·.1)))
      (flagUnion (((numbered r).filter fun v => m.getLsbD v.1).map (·.2.2)))))

/-- An operation in form I that rearranges or maps the lanes of A (R193, R204). -/
def State.exMove (s : State) (slot left : Nat) (f : IForm) (fn : List Nat → List Nat) : Answer :=
  s.exOp slot (fun e => [e.view f.d f.x, e.view f.a f.x]) fun e =>
    let a := lanesOf 4 (e.vec (e.view f.a f.x))
    .run s (some (laneWrite left 4 (e.addr (e.view f.d f.x)) (e.mask f.q) id (numbered ((fn a).map fun v => (v, 0)))))

end Sys2Proof.Machine
end

