-- ==== Sys2Proof/Machine/ExPlane.lean ====
section
/-! DEFINITION. The plane operations of slot A (R209 to R214), codebook expansion and swap (R215 to R219) and table
interpolation (R220) of slot B. -/

namespace Sys2Proof.Machine

/-! ## Plane operations (R209 to R213) -/

/-- The blocks of part `p` that hold a selected element (R209, R213). -/
def touchedBlocks (p : Nat) (m : W64) : List Nat :=
  [0, 1].filterMap fun h => if (m.toNat / 2 ^ (32 * h)) % 2 ^ 32 = 0 then none else some (2 * p + h)

/-- The lowest touched block whose scale byte marks it invalid (R45, R210). -/
def badScale (sc : List Byte) (blocks : List Nat) : Option Nat := blocks.find? fun b => sc.getD b 0 == 0xFF

/-- Whether a plane operation is the .f32 form (R209). -/
def planeF32 (f : IForm) : Bool := f.imm.toNat % 2 == 1

/-- `vplrd` (R210). -/
def execVplrd (f : IForm) (s : State) : Answer :=
  s.exOp 0
    (fun e =>
      let a := e.view f.a f.x
      [e.view f.d f.x, a] ++ if planeF32 f then [a + 1] else [])
    fun e =>
      let lay := layOf (f.imm.toNat / 8)
      let n := f.imm.toNat / 2 % 4 + 1
      let a := e.view f.a f.x
      let bs := e.vec a
      let sc := e.vec (a + 1)
      let m := e.mask f.q
      let val (k : Nat) : Int := planeRead true lay.1 n (elemDigits bs lay.1 (64 * lay.2 + k))
      match if planeF32 f then badScale sc (touchedBlocks lay.2 m) else none with
      | some b => .fault 0x0308 (BitVec.ofNat 64 b)
      | none =>
        .run s (some (laneWrite 3 4 (e.addr (e.view f.d f.x)) m id ((List.range 64).map fun k =>
          let v := val k
          if planeF32 f then
            let x := (sc.getD ((64 * lay.2 + k) / 32) 0).toNat
            (k, fp32.round (v < 0) v.natAbs ((x : Int) - 127))
          else (k, wrapN 32 v, 0))))

/-- A plane write: the new packed digits and flags of each selected lane, into the whole planes of the touched blocks
(R213). `np` counts the planes written; a three-plane `vplwr` writes the padding as zero. -/
def ExIn.planeWrite (e : ExIn) (d sp np part : Nat) (pad : Bool) (m : W64) (res : Nat → Nat × FlagSet) : InFlight :=
  let bs := e.vec d
  let blocks := touchedBlocks part m
  let el (b i : Nat) : Nat :=
    let k := 32 * b + i - 64 * part
    if m.getLsbD k then (res k).1 else elemDigits bs sp (32 * b + i)
  { InFlight.start 3 with
    bytes := blocks.flatMap fun b =>
      blockBytes (e.addr d) sp np b (el b) ++
        if pad && sp == 3 then placed (e.addr d + 64 * b + 48) (List.replicate 16 0) else [],
    flags := flagUnion ((List.range 64).map fun k => if m.getLsbD k then (res k).2 else 0),
    hold := true }

/-- `vplwr` (R211, R213). -/
def execVplwr (f : IForm) (s : State) : Answer :=
  s.exOp 0
    (fun e =>
      let d := e.view f.d f.x
      [d, e.view f.a f.x] ++ if planeF32 f then [d + 1] else [])
    fun e =>
      let lay := layOf (f.imm.toNat / 8)
      let n := Nat.min (f.imm.toNat / 2 % 4 + 1) lay.1
      let k0 := lay.1 - n
      let d := e.view f.d f.x
      let a := lanesOf 4 (e.vec (e.view f.a f.x))
      let sc := e.vec (d + 1)
      let m := e.mask f.q
      match if planeF32 f then badScale sc (touchedBlocks lay.2 m) else none with
      | some b => .fault 0x0308 (BitVec.ofNat 64 b)
      | none =>
        .run s (some (e.planeWrite d lay.1 lay.1 lay.2 true m fun k =>
          let w := a.getD k 0
          let v :=
            if planeF32 f then (fp32.dec w).scale (127 - ((sc.getD ((64 * lay.2 + k) / 32) 0).toNat : Int))
            else FVal.ofInt (sextN 32 w)
          let r := bpEncode true n (v.scale (-4 * (k0 : Int)))
          (r.1 * 16 ^ k0, r.2)))

/-- `vpladd` (R212, R213). -/
def execVpladd (f : IForm) (s : State) : Answer :=
  s.exOp 0 (fun e => [e.view f.d f.x, e.view f.a f.x]) fun e =>
    let lay := layOf (f.imm.toNat / 8)
    let j := f.imm.toNat / 2 % 4
    let d := e.view f.d f.x
    let bs := e.vec d
    let a := lanesOf 4 (e.vec (e.view f.a f.x))
    .run s (some (e.planeWrite d lay.1 (j + 1) lay.2 false (e.mask f.q) fun k =>
      let x := sextN 32 (a.getD k 0)
      let delta := satI x (-8) 7
      let r := bpPladd lay.1 j (elemDigits bs lay.1 (64 * lay.2 + k)) delta
      (r.1, r.2 ||| flagIf (delta != x) flSA)))

/-! ## Codebooks (R215 to R218) -/

/-- DETAIL1 of an invalid-index fault (R183). -/
def indexDet (bank w i valid : Nat) : W64 := BitVec.ofNat 64 (bank * 2 ^ 40 + w * 2 ^ 32 + i * 2 ^ 16 + valid)

/-- The lowest value at or above a limit, among those used. -/
def lowestOver (limit : Nat) (l : List Nat) : Option Nat :=
  l.foldl (fun acc i => if limit ≤ i then
    match acc with
    | some j => some (Nat.min i j)
    | none => some i
    else acc) none

/-- Codebook expansion (R216, R217): `n` elements of `w` bytes; `idx` gives the index each element is fed by, and `val` its
value from the entry. -/
def State.exExpand (s : State) (f : VForm) (n w : Nat) (idx : Nat → Nat → Nat) (val : Nat → Nat → Nat) : Answer :=
  s.exOp 1 (fun e => [e.view f.d f.x, e.view f.a f.x]) fun e =>
    let part := f.b.toNat / 16
    let iw := idxWidth (f.b.toNat / 4 % 4)
    let bank := f.b.toNat % 4
    let bs := leNat (e.vec (e.view f.a f.x))
    let m := e.mask f.q
    let side := e.x.frontSide e.clk bank
    let used := (List.range n).filter fun k => m.getLsbD (k * 64 / n)
    match lowestOver side.2 (used.map fun k => indexAt bs iw (idx part k)) with
    | some i => .fault 0x0307 (indexDet bank iw i side.2)
    | none =>
      .run s (some (laneWrite 3 w (e.addr (e.view f.d f.x)) m (fun k => k * 64 / n)
        ((List.range n).map fun k => (k, val k (side.1.getD (indexAt bs iw (idx part k)) 0).toNat, 0))))

/-- `vcbx.bp16` (R216). -/
def execVcbxBp16 (f : VForm) (s : State) : Answer :=
  s.exExpand f 64 4 (fun p k => 64 * p + k) fun _ v => wrapN 32 (planeVal true 4 v)
/-- `vcbx.bf` (R216). -/
def execVcbxBf (f : VForm) (s : State) : Answer :=
  s.exExpand f 128 2 (fun p k => 128 * p + k) fun _ v => v
/-- `vcbx.vq4` (R216). -/
def execVcbxVq4 (f : VForm) (s : State) : Answer :=
  s.exExpand f 64 4 (fun p k => 16 * p + k / 4) fun k v => wrapN 32 (sextN 4 (v / 16 ^ (k % 4)))

/-- `cbswap`: the sides of a bank are exchanged, with latency 1 (R218, R163). -/
def execCbswap (f : WForm) (s : State) : Answer :=
  s.exOp 1 (fun _ => []) fun _ => .run s (some { InFlight.start 1 with swap := some (f.d.toNat % 4) })

/-! ## Table interpolation (R220) -/

/-- 16·x + 128, exact (R220). -/
def itpT (x : FVal) : FVal :=
  match (x.scale 4).addV (FVal.ofInt 128) with
  | some t => t
  | none => x

/-- The entry an x uses, clamped to the table's ends (R220). -/
def itpIndex (x : FVal) : Nat :=
  match itpT x with
  | .nan _ => 0
  | .inf neg => if neg then 0 else 255
  | .fin neg m e =>
    let fl := if 0 ≤ e then m * 2 ^ e.toNat else m / 2 ^ (-e).toNat
    if neg && m != 0 then 0 else if 256 ≤ fl then 255 else fl

/-- val + slope·f with one rounding (R220). -/
def itpResult (x : FVal) (entry : Nat) (i : Nat) : Nat × FlagSet :=
  let v := bf16.dec (entry / 65536)
  let sl := bf16.dec (entry % 65536)
  bf16.withNaN [v, sl]
    (match (itpT x).addV (FVal.ofInt (-(i : Int))) with
    | none => none
    | some fr =>
      match sl.mulV fr with
      | none => none
      | some p => v.addV p)

/-- `vitp.bf` (R220). -/
def execVitpBf (f : VForm) (s : State) : Answer :=
  s.exOp 1 (fun e => [e.view f.d f.x, e.view f.a f.x]) fun e =>
    let n := f.b.toNat % 4
    let t := e.x.tables.getD n ITable.reset
    let a := (lanesOf 2 (e.vec (e.view f.a f.x))).map bf16.dec
    let m := e.mask f.q
    let used := (numbered a).filter fun v => m.getLsbD (v.1 / 2) && !v.2.isNaN
    match lowestOver t.valid (used.map fun v => itpIndex v.2) with
    | some i => .fault 0x0309 (BitVec.ofNat 64 (n * 2 ^ 40 + i * 2 ^ 16 + t.valid))
    | none =>
      .run s (some (laneWrite 6 2 (e.addr (e.view f.d f.x)) m (fun j => j / 2) ((numbered a).map fun v =>
        if v.2.isNaN then (v.1, bf16.qnan, flagIf v.2.isSNaN flNV)
        else
          let i := itpIndex v.2
          (v.1, itpResult v.2 (t.entries.getD i 0).toNat i))))

end Sys2Proof.Machine
end

