-- ==== Sys2Proof/Machine/ExStream.lean ====
section
/-! DEFINITION. The operations of slot D: register moves (R207), stream ports (R222 to R225), loops (R226), VX (R228),
semaphores (R229) and feedback (R230), and the idle slot (R173). -/

namespace Sys2Proof.Machine

/-- `nop` in any slot: nothing (R173). -/
def execExNop (s : State) : Answer := .next s

/-! ## Register moves (R207) -/

/-- The same 32-bit value, or each lane's, into the selected lanes of D. -/
def ExIn.move (e : ExIn) (d : Nat) (q : BitVec 3) (l : List Nat) : InFlight :=
  laneWrite 1 4 (e.addr d) (e.mask q) id (numbered (l.map fun v => (v, 0)))

/-- `vmov` (R207). -/
def execVmov (f : VForm) (s : State) : Answer :=
  s.exOp 3 (fun e => [e.view f.d f.x, e.view f.a f.x]) fun e =>
    .run s (some (e.move (e.view f.d f.x) f.q (lanesOf 4 (e.vec (e.view f.a f.x)))))
/-- `vmovi` (R207). -/
def execVmovi (f : WForm) (s : State) : Answer :=
  s.exOp 3 (fun e => [e.view f.d f.x]) fun e =>
    .run s (some (e.move (e.view f.d f.x) f.q (List.replicate 64 (wrapN 32 f.imm.toInt))))
/-- `vmovmb`: a mailbox of the block's snapshot (R207, R155). -/
def execVmovmb (f : VForm) (s : State) : Answer :=
  s.exOp 3 (fun e => [e.view f.d f.x]) fun e =>
    .run s (some (e.move (e.view f.d f.x) f.q (List.replicate 64 (e.b.mb.getD (f.a.toNat % 8) 0).toNat)))
/-- `vmovlc`: a loop counter; an inactive one reads 0 (R207, R171). -/
def execVmovlc (f : VForm) (s : State) : Answer :=
  s.exOp 3 (fun e => [e.view f.d f.x]) fun e =>
    let l := e.b.lc.getD (f.a.toNat % 4) ⟨false, 0, 0, 0⟩
    .run s (some (e.move (e.view f.d f.x) f.q (List.replicate 64 (if l.active then l.count.toNat else 0))))

/-! ## Stream ports (R222 to R225) -/

/-- Port `n` of a context. -/
def Context.port (x : Context) (n : Nat) : Port := x.ports.getD n Port.reset
def Context.setPort (x : Context) (n : Nat) (p : Port) : Context := { x with ports := x.ports.set n p }

/-- The entries another side can take in clock `clk` (R157). -/
def Port.visible (p : Port) (clk : Nat) : List PortEntry := p.entries.takeWhile fun e => decide (e.born < clk)

/-- How many lanes the port supplies from its cursor (R222). -/
def Port.supply (p : Port) (clk : Nat) : Nat := ((p.visible clk).map (·.count)).foldl (· + ·) 0 - p.cursor

/-- The valid lanes of an entry. -/
def PortEntry.lanes (e : PortEntry) : List Nat :=
  (List.range e.count).map fun i => leNat ((e.data.drop (4 * i)).take 4)

/-- The port after `n` lanes are taken from a cursor: an entry leaves with its last valid lane (R222). -/
def takeLanes (cursor n : Nat) : List PortEntry → Nat × List PortEntry
  | [] => (0, [])
  | e :: r => if e.count ≤ cursor + n then takeLanes 0 (cursor + n - e.count) r else (cursor + n, e :: r)

/-- The lanes a take of `n` returns. -/
def Port.takenLanes (p : Port) (n : Nat) : List Nat := ((p.entries.flatMap PortEntry.lanes).drop p.cursor).take n

/-- The port after a take of `n` lanes. -/
def Port.take (p : Port) (n : Nat) : Port :=
  let r := takeLanes p.cursor n p.entries
  { p with cursor := r.1, entries := r.2 }

/-- Replaces port `n`; a buffer that it no longer holds has no defined value (R157). -/
def State.setPort (s : State) (c : CtxId) (n : Nat) (p : Port) : State :=
  let old := (s.ctx c).port n
  let s' := s.modCtx c fun x => x.setPort n p
  if p.range.isEmpty then s'.freePool c old.range else s'

/-- A slot that names an input port (R225): the port-direction fault where it is an output port. -/
def inputPort (p : Port) (n : Nat) (r : ExRes) : ExRes := if p.dir = some true then .fault 0x0305 (BitVec.ofNat 64 n) else r

/-- The free entries of an output port (R157, R224): an unbound one has none. One whose binding has ended keeps its direction and
entries, and here its depth: it takes pushes up to it (log entry 84). -/
def Port.room (p : Port) : Bool := p.dir == some true && decide (p.entries.length < p.depth)

/-- A pop of `n` lanes, placed by `place` (R223): it freezes while the port cannot supply them. -/
def State.exPop (s : State) (f : VForm) (n : W64 → Nat) (place : W64 → List Nat → List (Nat × Nat × FlagSet)) : Answer :=
  s.exOp 3 (fun e => [e.view f.d f.x]) fun e =>
    let k := f.a.toNat % 16
    let p := e.x.port k
    let m := e.mask f.q
    let want := n m
    inputPort p k
      (if p.supply e.clk < want then .freeze
      else
        .run (if want = 0 then s else s.setPort e.c k (p.take want))
          (some (laneWrite 1 4 (e.addr (e.view f.d f.x)) m id (place m (p.takenLanes want)))))

/-- `vpop`: 64 lanes, each lane in its place under the mask (R223). -/
def execVpop (f : VForm) (s : State) : Answer := s.exPop f (fun _ => 64) fun _ l => numbered (l.map fun v => (v, 0))

/-- The lanes of a mask, in ascending order. -/
def maskLanes (m : W64) : List Nat := (List.range 64).filter fun i => m.getLsbD i

/-- `vpopx`: as many lanes as the mask has bits, into those lanes in ascending order (R223). -/
def execVpopx (f : VForm) (s : State) : Answer :=
  s.exPop f (fun m => (maskLanes m).length) fun m l => ((maskLanes m).zip l).map fun v => (v.1, v.2, 0)

/-- A push of the lanes of A that a mask selects (R224). -/
def State.exPush (s : State) (f : VForm) (all : Bool) : Answer :=
  s.exOp 3 (fun e => [e.view f.a f.x]) fun e =>
    let k := f.d.toNat % 16
    let p := e.x.port k
    let sel := maskLanes (if all then BitVec.allOnes 64 else e.mask f.q)
    let a := lanesOf 4 (e.vec (e.view f.a f.x))
    if p.dir = some false then .fault 0x0305 (BitVec.ofNat 64 k)
    else if sel.isEmpty then .run s none
    else if !p.room then .freeze
    else
      let en : PortEntry := ⟨sel.flatMap fun i => leBytes 4 (a.getD i 0), sel.length, e.clk⟩
      .run (s.modCtx e.c fun x => x.setPort k { p with entries := p.entries ++ [en] }) none

/-- `vpush` (R224). -/
def execVpush (f : VForm) (s : State) : Answer := s.exPush f true
/-- `vpushc` (R224). -/
def execVpushc (f : VForm) (s : State) : Answer := s.exPush f false

/-! ## Loops (R170, R172, R226) -/

/-- Changes the running block of a context. -/
def State.modBlock (s : State) (c : CtxId) (f : RunBlock → RunBlock) : State :=
  s.modCtx c fun x =>
    match x.ex.block with
    | some b => { x with ex := { x.ex with block := some (f b) } }
    | none => x

/-- A loop operation with a count known at issue. -/
def ExIn.openLoop (e : ExIn) (s : State) (f : LForm) (count : W32) : ExRes :=
  let n := f.lc.toNat
  let len := f.len.toNat
  if e.b.loopBad n len then .fault 0x0303 (e.b.loopDet n) else .run (s.modBlock e.c fun b => b.openLoop n len count) none

/-- `loop` (R170). -/
def execLoop (f : LForm) (s : State) : Answer :=
  s.exOp 3 (fun _ => []) fun e => e.openLoop s f (f.cnt.zeroExtend 32)
/-- `loopm`: the count is a mailbox of the snapshot (R170, R155). -/
def execLoopm (f : LForm) (s : State) : Answer :=
  s.exOp 3 (fun _ => []) fun e => e.openLoop s f (e.b.mb.getD (f.cnt.toNat % 8) 0)

/-- The port after `loopc` takes a lane: the rest of the cursor's entry leaves (R226). -/
def Port.dropEntry (p : Port) : Port := { p with cursor := 0, entries := p.entries.tail }

/-- `loopc`: the count is the lane at the port's cursor (R170, R226). -/
def execLoopc (f : LForm) (s : State) : Answer :=
  s.exOp 3 (fun _ => []) fun e =>
    let k := f.cnt.toNat % 16
    let p := e.x.port k
    if e.b.loopBad f.lc.toNat f.len.toNat then .fault 0x0303 (e.b.loopDet f.lc.toNat)
    else
      inputPort p k
        (if p.supply e.clk < 1 then .freeze
        else e.openLoop (s.setPort e.c k p.dropEntry) f (BitVec.ofNat 32 ((p.takenLanes 1).headD 0)))

/-! ## VX, semaphores, feedback (R228 to R230) -/

/-- `vxi` (R228). -/
def execVxi (f : WForm) (s : State) : Answer :=
  s.exOp 3 (fun _ => []) fun _ => .run s (some { InFlight.start 1 with vx := some f.imm.toNat })
/-- `vxa`: a sum outside 0 to 127 is a view-range fault (R228); the view number in its record is the sum modulo 256 (log
entry 80). -/
def execVxa (f : WForm) (s : State) : Answer :=
  s.exOp 3 (fun _ => []) fun e =>
    let v := (e.b.vx : Int) + f.imm.toInt
    if v < 0 ∨ 127 < v then .fault 0x0302 (e.viewDet (wrapN 8 v))
    else .run s (some { InFlight.start 1 with vx := some v.toNat })

/-- `semw`: it issues only in a clock in which its wait is granted (R229); its turn comes after the clock's signals and the matrix
waits (R144, `exPlace`). -/
def execSemw (f : WForm) (s : State) : Answer :=
  s.exOp 3 (fun _ => []) fun e =>
    let n := f.d.toNat % 16
    let v := f.imm.toNat
    if v = 0 then .run s none
    else if e.x.semVal n < v then .freeze
    else .run (s.modCtx e.c fun x => x.semTake e.clk n v) none

/-- `sems` (R229, R144). -/
def execSems (f : WForm) (s : State) : Answer :=
  s.exOp 3 (fun _ => []) fun e =>
    let n := f.d.toNat % 16
    let v := f.imm.toNat
    match e.x.semSignal e.clk n v with
    | none => .fault 0x0306 (BitVec.ofNat 64 (v * 2 ^ 16 + e.x.semTest e.clk n))
    | some y => .run (s.setCtx e.c y) none

/-- The entry `fbput` appends (R181). -/
def ExIn.fbEntry (e : ExIn) (f : IForm) : BitVec 48 :=
  let tag := f.imm.toNat * 2 ^ 40
  match (maskLanes (e.mask f.q)).head? with
  | none => BitVec.ofNat 48 (tag + 0xFF * 2 ^ 32)
  | some i => BitVec.ofNat 48 (tag + i * 2 ^ 32 + (lanesOf 4 (e.vec (e.view f.a f.x))).getD i 0)

/-- `fbput` (R230, R181): frozen while the feedback queue is full; after `done` the entry is discarded (R149). -/
def execFbput (f : IForm) (s : State) : Answer :=
  s.exOp 3 (fun e => [e.view f.a f.x]) fun e =>
    if e.x.run = .done then .run s none
    else if 16 ≤ e.x.fb.length then .freeze
    else .run (s.modCtx e.c fun x => { x with fb := x.fb ++ [(e.fbEntry f, e.clk)] }) none

end Sys2Proof.Machine
end

