-- ==== Sys2Proof/Machine/CopyOps.lean ====
section
/-! DEFINITION. The copy engine's shared operations (spec/09): footprints and their checks (R238, R259), conversions
(R242), checksums (R255 to R257), remote reads and writes (R60, R61, R262, R264), the moves of a command, and its end. -/

namespace Sys2Proof.Machine

/-! ## Elements (R42, R242) -/

/-- Bytes and elements of one unit of a format: a plane block, or one element (R242). -/
def fmtUnit (c : Nat) : Nat × Nat := if fmtIsPlane c then (planeStride (fmtPlanes c), 32) else (fmtBytes c, 1)

/-- The elements of a byte stream; plane digits packed with d0 highest. -/
def elemsOf (c : Nat) (bs : List Byte) : List Nat :=
  if fmtIsPlane c then
    (List.range (32 * (bs.length / planeStride (fmtPlanes c)))).map (elemDigits bs (fmtPlanes c))
  else numsOf (fmtBytes c) bs

/-- One plane block of 32 elements, the padding of three planes zero (R42, R242). -/
def planeBlock (s : Nat) (el : Nat → Nat) : List Byte :=
  ((blockBytes 0 s s 0 el).map Prod.snd) ++ List.replicate (planeStride s - 16 * s) 0

/-- The byte stream of elements. -/
def bytesOf (c : Nat) (l : List Nat) : List Byte :=
  if fmtIsPlane c then (List.range (l.length / 32)).flatMap fun b => planeBlock (fmtPlanes c) fun i => l.getD (32 * b + i) 0
  else l.flatMap (leBytes (fmtBytes c))

/-- A conversion of a byte stream: the new bytes, the flags and how many elements saturated (R242, R40). -/
def convertBytes (sc dc : Nat) (bs : List Byte) : List Byte × FlagSet × Nat :=
  let r := (elemsOf sc bs).map (convertVal sc dc)
  (bytesOf dc (r.map Prod.fst), flagUnion (r.map Prod.snd), (r.filter fun v => v.2 &&& flSA != 0).length)

/-- The formats a conversion accepts (R242). -/
def cvtOk (c : Nat) : Bool := decide (c ≤ 0x0A) || (decide (0x0C ≤ c) && decide (c ≤ 0x0E)) || fmtIsFloat c

/-! ## Patterns (R240) -/

/-- The runs of a pattern from a base, in logical order. -/
def PatSlot.runs (p : PatSlot) (base : Int) : List (Int × Nat) :=
  (List.range p.c3).flatMap fun i3 => (List.range p.c2).flatMap fun i2 => (List.range p.c1).map fun i1 =>
    (base + i3 * p.s3 + i2 * p.s2 + i1 * p.s1, p.run)

/-- T (R240). -/
def PatSlot.len (p : PatSlot) : Nat := p.run * p.c1 * p.c2 * p.c3

/-- The bounding range of a pattern: its lowest address and its length (R233). -/
def PatSlot.bound (p : PatSlot) (base : Int) : Int × Nat :=
  let lo (c : Nat) (s : Int) : Int := if s < 0 then ((c - 1 : Nat) : Int) * s else 0
  let hi (c : Nat) (s : Int) : Int := if s < 0 then 0 else ((c - 1 : Nat) : Int) * s
  let a := base + lo p.c1 p.s1 + lo p.c2 p.s2 + lo p.c3 p.s3
  (a, (base + hi p.c1 p.s1 + hi p.c2 p.s2 + hi p.c3 p.s3 + p.run - a).toNat)

/-- Every run of a pattern keeps the alignment `u` of its base (R242), and a run is a whole number of elements (log entry 100). -/
def PatSlot.aligned (p : PatSlot) (u : Nat) : Bool :=
  let ok (c : Nat) (s : Int) : Bool := decide (c = 1) || decide (s % (u : Int) = 0)
  decide (p.run % u = 0) && ok p.c1 p.s1 && ok p.c2 p.s2 && ok p.c3 p.s3

/-- `k` logical bytes from byte `pos` of a list of runs. -/
def cutRuns : List (Nat × Nat) → Nat → Nat → List (Nat × Nat)
  | [], _, _ => []
  | (a, n) :: r, pos, k =>
    if n ≤ pos then cutRuns r (pos - n) k
    else
      let t := Nat.min (n - pos) k
      if t = 0 then [] else (a + pos, t) :: cutRuns r 0 (k - t)

/-- The length of a list of runs. -/
def runsLen {α : Type} (l : List (α × Nat)) : Nat := l.foldl (fun a r => a + r.2) 0

/-! ## Checksums (R256) -/

/-- One byte into the reflected Castagnoli register. -/
def crcByte (r : W32) (b : Byte) : W32 :=
  (List.range 8).foldl (fun (r : W32) _ => if r.getLsbD 0 then (r >>> 1) ^^^ 0x82F63B78 else r >>> 1) (r ^^^ b.zeroExtend 32)

/-- `crc_raw` of R256. -/
def crcRaw (r : W32) (bs : List Byte) : W32 := bs.foldl crcByte r

/-- The sum of a piece of a checksum stream at logical offset `off`, from start value 0: CRC-32C of its bytes, or its bytes'
share of the SUM32 words of the stream (R256). -/
def pieceSum (ckm : BitVec 2) (off : Nat) (bs : List Byte) : W32 :=
  if ckm = 1 then ~~~ crcRaw 0xFFFFFFFF bs
  else BitVec.ofNat 32 (bs.zipIdx.foldl (fun a b => a + b.1.toNat * 256 ^ ((off + b.2) % 4)) 0)

/-- Appends a piece of `n` bytes with its own sum to a running checksum (R256). CRC is linear: the start value goes through
the register as over `n` zero bytes. -/
def joinSum (ckm : BitVec 2) (c : W32) (n : Nat) (p : W32) : W32 :=
  if ckm = 1 then p ^^^ crcRaw c (List.replicate n 0) else c + p

/-! ## Footprints (R238, R59 to R63, R69, R72) -/

/-- One access of a footprint: pool or device, first byte, length, direction, alignment, and whether it is the memory side of
a stream binding, which alone reaches the stream buffers (R63). -/
structure CpItem where
  pool : Bool
  addr : Int
  n : Nat
  wr : Bool
  align : Nat
  bound : Bool
  deriving DecidableEq, Repr

/-- The items of a list of runs. -/
def itemsOf (pool wr : Bool) (align : Nat) (bound : Bool) (l : List (Int × Nat)) : List CpItem :=
  l.map fun r => ⟨pool, r.1, r.2, wr, align, bound⟩

/-- The Thrumol port of a peer window address, with the window's base (R59). -/
def peerOf (a : Nat) : Option (Nat × Nat) :=
  match regionOf a with
  | some (.peer0, _) => some (0, 0x100000000000)
  | some (.peer1, _) => some (1, 0x120000000000)
  | _ => none

/-- The first byte of a peer-window access at which R60's offsets fault. -/
def peerFault (a n : Nat) : Option Nat :=
  match peerOf a with
  | none => none
  | some (_, b) =>
    match regionOf (a - b) with
    | some (.dram, e) => if e < a - b + n then some (b + e) else none
    | some (.granary, e) => if e < a - b + n then some (b + e) else none
    | _ => some a

/-- The kinds of R72 in the order of R259: address, pool range, access path, alignment, lease, write-protect. -/
def cpKinds : List Nat := [0x0101, 0x0106, 0x0105, 0x0104, 0x0102, 0x0103]

/-- The first byte of an item that meets the fault `code`, if any. -/
def CpItem.bad (s : State) (x : Context) (code : Nat) (i : CpItem) : Option Nat :=
  let a := wrapN 48 i.addr
  if i.n = 0 then none
  else if code = 0x0101 then
    if i.pool then none
    else if i.addr < 0 ∨ 2 ^ 48 ≤ i.addr then some a
    else match addrFault a i.n with
      | some f => some f
      | none => peerFault a i.n
  else if code = 0x0106 then
    if !i.pool then none
    else if i.addr < 0 ∨ 2 ^ 20 ≤ i.addr then some a
    else poolFault x.carve.1 x.carve.2.1 x.carve.2.2 (if i.bound then pathCP else pathMX) a i.n
  else if code = 0x0104 then if a % i.align = 0 then none else some a
  else if i.pool then none
  else if code = 0x0105 then
    match peerOf a with
    | some (p, _) => if (s.link p).up then none else some a
    | none => none
  else if code = 0x0102 then leaseFault x.leases (!i.wr) i.wr a i.n
  else if i.wr then roFault s.ro a i.n else none

/-- The fault of a footprint: kind by kind, and within a kind the first item that meets it (R238, R259). -/
def State.itemsFault (s : State) (x : Context) (l : List CpItem) : Option FaultInfo :=
  cpKinds.findSome? fun code => l.findSome? fun i =>
    (i.bad s x code).map fun a => memFault code a (memDet0 i.pool false i.wr 0 false pathCP 0 i.n)

/-- A fault of R259: DETAIL0 is dword 0 of the command (R258). -/
def cpFault (code st : Nat) (addr : W64) (w0 : W64) (det1 : W64) : FaultInfo := ⟨code, st, addr, w0, det1⟩

/-- WHERE of a copy fault (R258). -/
def cpWhere (num : W32) : W64 := BitVec.ofNat 64 (num.toNat % 32 * 2 ^ 32 + num.toNat)

/-- Raises a copy-engine fault of command `num` (R258). -/
def State.cpRaise (s : State) (c : CtxId) (num : W32) (f : FaultInfo) : State := s.raise c 3 0 (cpWhere num) f

/-! ## Runs, entries and bindings -/

/-- The common fields of a command that has none (R234, `pat`). -/
def noTail : CpTail := ⟨false, false, false, false, 0, false, false, 0, 0, 0⟩

/-- The run of a begun command. -/
def Context.cpRun (x : Context) (num : W32) : Option CpRun := x.cp.runs.find? fun r => r.num == num

/-- Changes the run of a command. -/
def Context.modRun (x : Context) (num : W32) (f : CpRun → CpRun) : Context :=
  { x with cp := { x.cp with runs := x.cp.runs.map fun r => if r.num == num then f r else r } }

def State.modRun (s : State) (c : CtxId) (num : W32) (f : CpRun → CpRun) : State := s.modCtx c fun x => x.modRun num f

/-- The entry at the head of the queue's unbegun part (R233). -/
def Context.cpHead (x : Context) : Option CpEntry := x.cpq.find? fun e => (x.cpRun e.num).isNone

/-- The command before has finished its moves, its pool writes with them, or its binding is established (R233, R213). -/
def Context.cpFree (x : Context) : Bool :=
  x.cp.runs.all fun r => if r.moved then !x.heldCp r.num else r.kind == .stream

/-- An item overlaps the bounding range of an active binding, when either writes (R233). -/
def Binding.clash (b : Binding) (i : CpItem) : Bool :=
  let r := b.pat.bound b.f.addr.toNat
  let pool := if b.f.out then b.f.t.dpool else b.f.t.spool
  decide (0 < i.n) && pool == i.pool && (b.f.out || i.wr) && decide (r.1 < i.addr + i.n) && decide (i.addr < r.1 + r.2)

/-- Some active binding keeps a footprint from beginning (R233). -/
def Context.cpClash (x : Context) (l : List CpItem) : Bool := x.cp.binds.any fun b => l.any b.clash

/-- The buffer of `n` bytes at pool address `a` lies in the stream-buffer region, and overlaps no buffer of an active binding
and no FBUF of a running `unpack` (R245, R251). -/
def Context.bufferOk (x : Context) (a n : Nat) : Bool :=
  decide (x.carve.1 * 4096 ≤ a) && decide (a + n ≤ x.carve.2.1 * 4096) &&
    (x.ports.all fun p => !p.bound || decide (a + n ≤ p.buf) || decide (p.buf + 256 * p.depth ≤ a)) &&
    (x.cp.runs.all fun r =>
      let clear (f : UnpackForm) : Bool := decide (a + n ≤ f.fbuf.toNat * 4096) || decide (f.fbuf.toNat * 4096 + 8192 ≤ a)
      match r.kind with
      | .unpackHead f => r.moved || clear f
      | .unpackBody f _ _ => r.moved || clear f
      | _ => true)

/-! ## Remote accesses (R60, R61, R262) -/

/-- Requests of at most 256 bytes that cross no 256-byte boundary (R262); `fuel` bounds their number. -/
def pieces (a n : Nat) : Nat → List (Nat × Nat)
  | 0 => []
  | fuel + 1 =>
    if n = 0 then []
    else
      let t := Nat.min n (256 - a % 256)
      (a, t) :: pieces (a + t) (n - t) fuel

/-- The requests of a range. -/
def requests (a n : Nat) : List (Nat × Nat) := pieces a n (n / 256 + 2)

/-- An address outside the device: host window or peer window. -/
def isRemote (a : Nat) : Bool := inHost a || (peerOf a).isSome

/-- Asks for the remote bytes of a run's source, in ascending logical order (R262). -/
def State.askRuns (s : State) (c : CtxId) (num : W32) (l : List (Nat × Nat)) : State :=
  let s := s.modRun c num fun r => { r with asked := true }
  (l.flatMap fun r => if isRemote r.1 then requests r.1 r.2 else []).foldl (fun s q =>
    match peerOf q.1 with
    | some (p, b) =>
      (s.modRun c num fun r => { r with peer := r.peer ++ [q] }).send (.peerRead p (q.1 - b) q.2)
    | none =>
      let tag := (s.ctx c).loadNum
      (s.modCtx c fun x =>
        ({ x with loadNum := tag + 1 }.modRun num fun r => { r with host := r.host ++ [(tag, q.1, q.2)] })).send
          (.hostRead c.val tag (s.bus q.1) q.2)) s

/-- The bytes of a run in logical order, once nothing of them is outstanding. -/
def State.cpRead (s : State) (c : CtxId) (r : CpRun) (pool : Bool) : List (Nat × Nat) → List Byte × State
  | [] => ([], s)
  | (a, n) :: l =>
    let h := if pool then s.poolRead (s.ctx c) a n else ((if isRemote a then memRead r.got a n else memRead s.mem a n), s)
    let t := h.2.cpRead c r pool l
    (h.1 ++ t.1, t.2)

/-- Writes the logical bytes `bs` from offset `off` of a run's stream, with the pieces of its checksum (R255, R264): local bytes
are written, host bytes posted (R61, R87), peer bytes sent and their sums awaited. -/
def State.cpWrite (s : State) (c : CtxId) (r : CpRun) (pool : Bool) (off : Nat) :
    List (Nat × Nat) → List Byte → State × List (Nat × Nat × Option W32)
  | [], _ => (s, [])
  | (a, n) :: l, bs =>
    let d := bs.take n
    let h : State × List (Nat × Nat × Option W32) :=
      if pool then
        let w := s.poolStore (s.ctx c) (.cp r.num) (placed a d)
        (w.2.setCtx c w.1, [(off, n, some (pieceSum r.t.ckm off d))])
      else if inHost a then (s.send (.hostWrite (s.bus a) d r.t.ro), [(off, n, some (pieceSum r.t.ckm off d))])
      else match peerOf a with
        | some (p, b) =>
          let q := requests a n
          (q.foldl (fun s u => s.send (.peerWrite p (u.1 - b) ((d.drop (u.1 - a)).take u.2))) s,
            q.map fun u => (off + (u.1 - a), u.2, none))
        | none => (s.store a d, [(off, n, some (pieceSum r.t.ckm off d))])
    let t := h.1.cpWrite c r pool (off + n) l (bs.drop n)
    (t.1, h.2 ++ t.2)

/-- Destination bytes that the source overlaps end undefined (R233). -/
def State.overlapFree (s : State) (same : Bool) (src dst : List (Nat × Nat)) (bs : List Byte) : List Byte × State :=
  let at_ : List Nat := dst.flatMap fun r => (List.range r.2).map (r.1 + ·)
  let hit (a : Nat) : Bool := src.any fun r => decide (r.1 ≤ a) && decide (a < r.1 + r.2)
  if same && at_.any hit then
    let d := s.drawBytes bs.length
    ((bs.zip (at_.zip d.1)).map fun b => if hit b.2.1 then b.2.2 else b.1, d.2)
  else (bs, s)

/-! ## Checksum updates (R257) -/

/-- Every piece of the checksum stream has its sum: nothing awaits a peer (R264). -/
def CpRun.acked (r : CpRun) : Bool := r.sums.all fun p => p.2.2.isSome

/-- The checksum of a run whose sums are all in (R256). -/
def CpRun.sum (r : CpRun) : W32 :=
  r.sums.foldl (fun c p => joinSum r.t.ckm c p.2.1 (p.2.2.getD 0)) r.start

/-- Updates of CKR in queue order; `fuel` bounds their number (R257). -/
def flushCks (x : Context) : Nat → Context
  | 0 => x
  | fuel + 1 =>
    match x.cp.cks with
    | ⟨_, m, some v⟩ :: r => flushCks { x with cp := { x.cp with ckr := v, ckrm := m, cks := r } } fuel
    | _ => x

/-- The run has made its moves and every acknowledgement is in: its checksum is known (R257). -/
def Context.cpSum (x : Context) (num : W32) : Context :=
  match x.cpRun num with
  | some r =>
    if r.moved && r.acked then
      let x := { x with cp := { x.cp with
        cks := x.cp.cks.map fun k => if k.num == num then { k with val := some r.sum } else k } }
      flushCks x x.cp.cks.length
    else x
  | none => x

/-- A command stopped by a fault makes no update of CKR (R257). -/
def Context.cpNoSum (x : Context) (num : W32) : Context :=
  let x := { x with cp := { x.cp with cks := x.cp.cks.filter fun k => k.num != num } }
  flushCks x x.cp.cks.length

/-! ## Late faults (R34, R238, R263) -/

/-- A command that a STATE 0 fault stops has begun nothing after all: its run goes, with its update of CKR, and its binding ends (R257,
R260); a buffer that its port no longer holds has no defined value (R157). -/
def State.cpDrop (s : State) (c : CtxId) (num : W32) : State :=
  let gone := (s.ctx c).cp.binds.filter fun b => b.num == num
  let s := gone.foldl (fun s b => s.setPort c b.f.port.toNat { (s.ctx c).port b.f.port.toNat with bound := false }) s
  s.modCtx c fun x =>
    { x with cp := { x.cp with
        runs := x.cp.runs.filter fun r => r.num != num, binds := x.cp.binds.filter fun b => b.num != num } }.cpNoSum num

/-- Reports the oldest fault found and not reported, once none awaits an answer, with the time of its detection (R31, R34). -/
def State.cpLate (s : State) (c : CtxId) : State :=
  let x := s.ctx c
  if x.cp.halted then s
  else
    match x.cp.runs.find? fun r => r.late.isSome with
    | none => s
    | some r =>
      match r.late with
      | none => s
      | some f =>
        (if f.f.st = 0 then s.cpDrop c r.num
        else (s.modRun c r.num fun r => { r with late := none, faulted := true }).modCtx c fun x => x.cpNoSum r.num).raiseAt
          c 3 0 f

/-- A fault of a begun command (R238, R252, R259). -/
def State.cpStop (s : State) (c : CtxId) (num : W32) (f : FaultInfo) : State :=
  (s.modRun c num fun r => { r with late := some (s.lateOf (cpWhere num) f) }).cpLate c

/-- The first run of a list that lies in the window of a port that is down: an access there is an access-path fault (R60, R263). -/
def State.downFault (s : State) (wr : Bool) (l : List (Nat × Nat)) : Option FaultInfo :=
  (l.find? fun r => match peerOf r.1 with
    | some (p, _) => !(s.link p).up
    | none => false).map fun r => memFault 0x0105 r.1 (memDet0 false false wr 0 false pathCP 0 r.2)

/-- Device bytes of a list of runs become free: what R259 leaves undefined. -/
def State.freeRuns (s : State) (c : CtxId) (pool : Bool) (l : List (Nat × Nat)) : State :=
  l.foldl (fun s r =>
    if pool then s.freePool c ((List.range r.2).map (r.1 + ·))
    else if isRemote r.1 then s
    else
      let d := s.drawBytes r.2
      { d.2 with mem := memWrite d.2.mem r.1 d.1 }) s

/-! ## Decompression (R250, R251) -/

/-- The bits of a 32-bit mask turned into output bytes with the stream bytes they take. -/
def unpackGroup (m : Nat) (bs : List Byte) : Nat → Option (List Byte × List Byte)
  | 0 => some ([], bs)
  | n + 1 =>
    if m % 2 = 1 then
      match bs with
      | [] => none
      | b :: r => (unpackGroup (m / 2) r n).map fun t => (b :: t.1, t.2)
    else (unpackGroup (m / 2) bs n).map fun t => (0 :: t.1, t.2)

/-- `groups` output groups from the group data: the output, and whether decoding reached its end with none left over. -/
def unpackGroups (bs : List Byte) : Nat → List Byte × Bool
  | 0 => ([], bs.isEmpty)
  | n + 1 =>
    if bs.length < 4 then ([], false)
    else
      match unpackGroup (leNat (bs.take 4)) (bs.drop 4) 32 with
      | none => ([], false)
      | some (o, r) =>
        let t := unpackGroups r n
        (o ++ t.1, t.2)

/-- Decompression reason 1: the header's checks in order (R251). -/
def unpackBad (f : UnpackForm) (h : List Byte) : Bool :=
  let olen := leNat (h.take 4)
  let clen := leNat ((h.drop 8).take 4)
  decide (leNat ((h.drop 4).take 4) ≠ 0) || decide (leNat ((h.drop 12).take 4) ≠ 0) || decide (olen % 32 ≠ 0) ||
    decide (f.maxo.toNat < olen) || decide (clen < 4 * (olen / 32)) || decide (36 * (olen / 32) < clen) ||
    decide (f.rmax.toNat * clen < olen)

/-! ## Moves -/

/-- A run with its moves made: bytes written through `dst`, its flags and saturations (R239). -/
def State.cpPut (s : State) (c : CtxId) (r : CpRun) (bs : List Byte) (fl : FlagSet) (satn : Nat) : State :=
  let w := s.cpWrite c r r.t.dpool 0 r.dst bs
  (w.1.modRun c r.num fun r =>
    { r with moved := true, sums := w.2, flags := r.flags ||| fl, satn := r.satn + satn, wclk := s.clk }).modCtx c
      fun x => x.cpSum r.num

/-- The moves of a load end: its stream is the bytes loaded, in entry order (R255). -/
def State.cpLoaded (s : State) (c : CtxId) (r : CpRun) (bs : List Byte) : State :=
  (s.modRun c r.num fun r =>
    { r with moved := true, sums := [(0, bs.length, some (pieceSum r.t.ckm 0 bs))], wclk := s.clk }).modCtx c
      fun x => x.cpSum r.num

/-- Changes bank `b` of a context. -/
def Context.modBank (x : Context) (b : Nat) (f : Bank → Bank) : Context :=
  { x with banks := x.banks.zipIdx.map fun (p : Bank × Nat) => if p.2 = b then f p.1 else p.1 }

/-- Sets the valid count of a side (R252). -/
def Bank.setValid (b : Bank) (side : Bool) (n : Nat) : Bank :=
  { b with sel := if side then { b.sel with valid1 := n } else { b.sel with valid0 := n } }

/-- Replaces the first entries of a side (R252). -/
def Bank.load (b : Bank) (side : Bool) (l : List (BitVec 16)) : Bank :=
  if side then { b with side1 := l ++ b.side1.drop l.length } else { b with side0 := l ++ b.side0.drop l.length }

/-- The second stage of `unpack`: the footprint of the group data and of the output, then their reading (R251). -/
def State.cpUnpack (s : State) (c : CtxId) (r : CpRun) (f : UnpackForm) (h : List Byte) : State :=
  let x := s.ctx c
  let olen := leNat (h.take 4)
  let clen := leNat ((h.drop 8).take 4)
  let items := [⟨false, f.src.toNat, 16 + clen, false, 1, false⟩, ⟨f.t.dpool, f.dst.toNat, olen, true, 1, false⟩]
  if unpackBad f h then
    s.cpStop c r.num (cpFault 0x0405 0 (f.src.zeroExtend 64) r.w0 1)
  else if x.cpClash items then s
  else match s.itemsFault x items with
    | some e => s.cpStop c r.num e
    | none =>
      s.modRun c r.num fun r =>
        { r with kind := .unpackBody f olen clen, src := [(f.src.toNat + 16, clen)], dst := [(f.dst.toNat, olen)], asked := false }

/-- A begun command whose source bytes are at hand does what it does. In reason 2 of R251 the output bytes produced are those of the
completed groups (log entry 101). -/
def State.cpAct (s : State) (c : CtxId) (r : CpRun) : State :=
  match r.kind with
  | .move cvt sf df =>
    let b := s.cpRead c r r.t.spool r.src
    let v := if cvt then convertBytes sf df b.1 else (b.1, 0, 0)
    let o := b.2.overlapFree (r.t.spool == r.t.dpool) r.src r.dst v.1
    o.2.cpPut c r o.1 v.2.1 v.2.2
  | .fill v =>
    s.cpPut c r ((List.range (runsLen r.dst)).map fun k => BitVec.ofNat 8 (v.toNat / 256 ^ (k % 8))) 0 0
  | .ckst => s.cpPut c r (leBytes 4 (s.ctx c).cp.ckr.toNat) 0 0
  | .unpackHead f =>
    let b := s.cpRead c r false r.src
    b.2.cpUnpack c r f b.1
  | .unpackBody f olen _ =>
    let b := s.cpRead c r false r.src
    let u := unpackGroups b.1 (olen / 32)
    let s := b.2.freePool c ((List.range 8192).map (f.fbuf.toNat * 4096 + ·))
    if u.2 then
      let o := s.overlapFree (!r.t.dpool) ((f.src.toNat, 16) :: r.src) r.dst u.1
      o.2.cpPut c r o.1 0 0
    else
      (s.freeRuns c r.t.dpool r.dst).cpStop c r.num
        (cpFault 0x0405 1 (f.src.zeroExtend 64) r.w0 (BitVec.ofNat 64 (u.1.length * 2 ^ 32 + 2)))
  | .bank k side _ _ =>
    let b := s.cpRead c r r.t.spool r.src
    let l := (numsOf 2 b.1).map (BitVec.ofNat 16)
    (b.2.modCtx c fun x => x.modBank k fun u => (u.load side l).setValid side l.length).cpLoaded c r b.1
  | .table n _ =>
    let b := s.cpRead c r r.t.spool r.src
    let l := (numsOf 4 b.1).map (BitVec.ofNat 32)
    (b.2.modCtx c fun x => { x with tables := x.tables.zipIdx.map fun t =>
      if t.2 = n then { t.1 with entries := l ++ t.1.entries.drop l.length, valid := l.length } else t.1 }).cpLoaded c r b.1
  | .stream => s
  | .mark => s

/-- The load of a codebook side stops because a swap made the side the front one: its entries are undefined (R219, R252). -/
def State.bankLost (s : State) (c : CtxId) (r : CpRun) (k : Nat) (side : Bool) : State :=
  let l := (List.range 256).map fun i => (Config.freeWord (s.free + i)).setWidth 16
  ({ s with free := s.free + 256 }.modCtx c fun x => x.modBank k fun b => b.load side l).cpStop c r.num
    (cpFault 0x0404 1 0 r.w0 (BitVec.ofNat 64 (2 * 256 + side.toNat * 4 + k)))

/-- A side that a load writes has become the front one (R219). -/
def CpRun.noteFront (x : Context) (r : CpRun) : CpRun :=
  match r.kind with
  | .bank k side n lost =>
    { r with kind := .bank k side n (lost || ((x.banks.getD k Bank.reset).sel.front == side && !r.moved)) }
  | _ => r

/-- At the end of a clock, after its swaps (R219). -/
def Context.noteFronts (x : Context) : Context := { x with cp := { x.cp with runs := x.cp.runs.map (CpRun.noteFront x) } }

/-- A begun command whose remote bytes are all here does what it does, unless a port it writes through is down (R263). -/
def State.cpMove (s : State) (c : CtxId) (r : CpRun) : State :=
  if r.host.isEmpty && r.peer.isEmpty then
    match if r.t.dpool then none else s.downFault true r.dst with
    | some f => s.cpStop c r.num f
    | none => s.cpAct c r
  else s

/-- A begun command goes on: it asks for its remote bytes, and acts once they are all here. -/
def State.cpAdvance (s : State) (c : CtxId) (num : W32) : State :=
  match (s.ctx c).cpRun num with
  | none => s
  | some r =>
    if r.moved || r.faulted || r.late.isSome then s
    else
      match r.kind with
      | .bank k side _ true => s.bankLost c r k side
      | _ =>
        if r.asked then s.cpMove c r
        else
          let src := if r.t.spool then [] else r.src
          match s.downFault false src with
          | some f => s.cpStop c num f
          | none =>
            let s := s.askRuns c num src
            match (s.ctx c).cpRun num with
            | some r => s.cpMove c r
            | none => s

/-! ## Beginning a command (R233, R238) -/

/-- The illegal-command reasons every command shares: 4 for a mode, 5 for a chain (R234, R257, R259). -/
def Context.tailReason (x : Context) (t : CpTail) : Option Nat :=
  if t.ckm = 3 ∨ ((t.chain || t.check) && t.ckm == 0) then some 4
  else if t.chain && x.cp.ckrm != t.ckm then some 5
  else none

/-- The item of CADDR (R234, R238). -/
def tailItems (t : CpTail) : List CpItem := if t.cw then [⟨false, t.caddr.toNat, 8, true, 8, false⟩] else []

/-- What a command's begin asks and does. -/
structure CpBegin where
  t : CpTail
  /-- a pool address of its fields has one of bits 47:20 set, which R234 wants zero: illegal, reason 2 -/
  high : Bool
  /-- the illegal-command reason of its own fields, 3 or 4 -/
  reason : Option Nat
  /-- faults of R259 before those of R72, in order: code and DETAIL1 -/
  early : List (Bool × Nat × W64)
  /-- its footprint, and the items that R233 holds against active bindings -/
  items : List CpItem
  clash : List CpItem
  /-- other conditions of its begin hold -/
  ready : Bool

/-- A source or destination field that is a pool address has one of bits 47:20 set (R234). -/
def poolHigh (t : CpTail) (src dst : Addr) : Bool :=
  (t.spool && decide (2 ^ 20 ≤ src.toNat)) || (t.dpool && decide (2 ^ 20 ≤ dst.toNat))

/-- The fault a command meets at begin, in the order of R259. Of several reasons of an illegal command the record names the first in
this order: a decode failure, a pool address beyond its field, the command's own limits and formats, its checksum mode, its
chain mode (log entry 80). -/
def State.cpBeginFault (s : State) (x : Context) (e : CpEntry) (b : CpBegin) : Option FaultInfo :=
  let w0 := e.w.setWidth 64
  match (if b.high then some 2 else none).or (b.reason.or (x.tailReason b.t)) with
  | some k => some (cpFault 0x0401 0 0 w0 (BitVec.ofNat 64 k))
  | none =>
    match b.early.find? (·.1) with
    | some f => some (cpFault f.2.1 0 0 w0 f.2.2)
    | none => s.itemsFault x b.items

/-- A new run of an entry. -/
def Context.newRun (x : Context) (e : CpEntry) (t : CpTail) (k : CpKind) (src dst : List (Nat × Nat)) : Context :=
  let r : CpRun := ⟨e.num, e.w.setWidth 64, t, k, src, dst, false, [], [], [], false, [], if t.chain then x.cp.ckr else 0, 0, 0,
    0, false, none, false⟩
  { x with cp := { x.cp with
      runs := x.cp.runs ++ [r], cks := if t.ckm = 0 then x.cp.cks else x.cp.cks ++ [⟨e.num, t.ckm, none⟩] } }

/-- A run that makes no move of its own has made its moves. -/
def Context.markMoved (x : Context) (num : W32) : Context := x.modRun num fun r => { r with moved := true }

/-- The command at the head of the copy queue of the context in focus begins, if R233 lets it (R233, R238): it waits while the
command before still moves, while CHAIN awaits an earlier update, and while an active binding overlaps it; a fault of
R259 is raised, and otherwise `go` begins it. -/
def State.cpOp (s : State) (plan : Context → CpEntry → CpBegin) (go : CtxId → CpEntry → State → State) : Answer :=
  let c := s.focus
  let x := s.ctx c
  match x.cpHead with
  | none => .next s
  | some e =>
    let b := plan x e
    if x.cp.halted || !x.cpFree || (b.t.chain && !x.cp.cks.isEmpty) || !b.ready || x.cpClash b.clash then .next s
    else
      match s.cpBeginFault x e b with
      | some f => .next (s.cpRaise c e.num f)
      | none => .next (go c e s)

/-- Begins a plain command whose footprint is `src` and `dst`. -/
def State.cpMoveOp (s : State) (t : CpTail) (high : Bool) (reason : Option Nat) (early : List (Bool × Nat × W64)) (kind : CpKind)
    (sal dal : Nat) (src dst : List (Int × Nat)) (ready : Bool := true) : Answer :=
  let items := itemsOf t.spool false sal false src ++ itemsOf t.dpool true dal false dst ++ tailItems t
  s.cpOp (fun _ _ => ⟨t, high, reason, early, items, items, ready⟩) fun c e s =>
    let nat (l : List (Int × Nat)) : List (Nat × Nat) := l.map fun r => (r.1.toNat, r.2)
    (s.modCtx c fun x => x.newRun e t kind (nat src) (nat dst)).cpAdvance c e.num

end Sys2Proof.Machine
end

