-- ==== Sys2Proof/Machine/Copy.lean ====
section
/-! DEFINITION. The copy commands (R240 to R254), the completion of a command (R239), and what the copy engine does with a
clock (R233). -/

namespace Sys2Proof.Machine

/-! ## Pattern slots -/

/-- `pat`: writes a slot in the clock in which it begins (R240). -/
def execPat (f : PatForm) (s : State) : Answer :=
  s.cpOp (fun _ _ => ⟨noTail, false, none, [], [], [], true⟩) fun c e s =>
    s.modCtx c fun x =>
      let p : PatSlot := ⟨f.runM1.toNat + 1, f.c1M1.toNat + 1, f.c2M1.toNat + 1, f.c3M1.toNat + 1, f.s1.toInt, f.s2.toInt, f.s3.toInt⟩
      let x := { x with cp := { x.cp with pats := x.cp.pats.set f.slot.toNat p } }
      (x.newRun e noTail .mark [] []).markMoved e.num

/-- Pattern slot `n` of a context (R232). -/
def Context.pat (x : Context) (n : BitVec 3) : PatSlot := x.cp.pats.getD n.toNat PatSlot.reset

/-! ## Plain moves (R241 to R244) -/

/-- Illegal formats of a conversion (R242). -/
def cvtReason (cvt : Bool) (sf df : BitVec 5) : Option Nat :=
  if cvt && !(cvtOk sf.toNat && cvtOk df.toNat) then some 4 else none

/-- The units of a move's two sides: bytes and elements (R242). -/
def moveUnits (cvt : Bool) (sf df : BitVec 5) : (Nat × Nat) × (Nat × Nat) :=
  if cvt then (fmtUnit sf.toNat, fmtUnit df.toNat) else ((1, 1), (1, 1))

/-- A source length that is no whole number of elements, or no multiple of 32 with a plane format (R242). -/
def countBad (slen : Nat) (u v : Nat × Nat) : Bool :=
  slen % u.1 != 0 || ((u.2 != 1 || v.2 != 1) && slen * u.2 / u.1 % 32 != 0)

/-- DETAIL1 of a pattern mismatch: source and destination elements (R259). -/
def mismatchDet (sn dn : Nat) : W64 := BitVec.ofNat 64 (sn % 2 ^ 32 * 2 ^ 32 + dn % 2 ^ 32)

/-- `copy` (R241, R242). -/
def execCopy (f : CopyForm) (s : State) : Answer :=
  let u := moveUnits f.cvt f.sfmt f.dfmt
  let len := f.len.toNat
  let n := len * u.1.2 / u.1.1
  s.cpMoveOp f.t (poolHigh f.t f.src f.dst) (cvtReason f.cvt f.sfmt f.dfmt) [(countBad len u.1 u.2, 0x0402, mismatchDet n n)]
    (.move f.cvt f.sfmt.toNat f.dfmt.toNat) u.1.1 u.2.1 [(f.src.toNat, len)] [(f.dst.toNat, n * u.2.1 / u.2.2)]

/-- `copya` (R241, R242). -/
def execCopya (f : CopyaForm) (s : State) : Answer :=
  let x := s.ctx s.focus
  let sp := x.pat f.spat
  let dp := x.pat f.dpat
  let u := moveUnits f.cvt f.sfmt f.dfmt
  let n := sp.len * u.1.2 / u.1.1
  let bad := countBad sp.len u.1 u.2 || dp.len * u.2.2 != n * u.2.1 || !sp.aligned u.1.1 || !dp.aligned u.2.1
  s.cpMoveOp f.t (poolHigh f.t f.src f.dst) (cvtReason f.cvt f.sfmt f.dfmt) [(bad, 0x0402, mismatchDet n (dp.len * u.2.2 / u.2.1))]
    (.move f.cvt f.sfmt.toNat f.dfmt.toNat) u.1.1 u.2.1 (sp.runs f.src.toNat) (dp.runs f.dst.toNat)

/-- `fill` (R244). -/
def execFill (f : FillForm) (s : State) : Answer :=
  s.cpMoveOp f.t (poolHigh f.t 0 f.dst) none [] (.fill f.patv) 1 1 [] [(f.dst.toNat, f.len.toNat)]

/-- The index list of `gather` and `scatter`, and its items (R243). -/
def gatherList (f : GatherForm) : CpItem := ⟨true, f.idx.toNat, 4 * (f.countM1.toNat + 1), false, 4, false⟩

/-- `gather` and `scatter`: the index list and the plain side are checked first; then the indices are read, and the records of
the indexed side are checked before any byte is written (R238, R243). -/
def State.cpGather (s : State) (f : GatherForm) (scatter : Bool) : Answer :=
  let len := f.rlenM1.toNat + 1
  let n := f.countM1.toNat + 1
  let plain (a : Addr) : List (Int × Nat) := (List.range n).map fun k => ((a.toNat + k * len : Nat), len)
  let first : List CpItem :=
    (if scatter then ⟨f.t.spool, f.src.toNat, n * len, false, 1, false⟩ else ⟨f.t.dpool, f.dst.toNat, n * len, true, 1, false⟩) ::
      gatherList f :: tailItems f.t
  s.cpOp (fun _ _ => ⟨f.t, poolHigh f.t f.src f.dst, none, [], first, first, true⟩) fun c e s =>
    let x := s.ctx c
    let r := s.poolRead x f.idx.toNat (4 * n)
    let base := if scatter then f.dst else f.src
    let recs : List (Int × Nat) := (numsOf 4 r.1).map fun i => ((base.toNat + i * len : Nat), len)
    let items := itemsOf (if scatter then f.t.dpool else f.t.spool) scatter 1 false recs
    if x.cpClash items then s
    else match r.2.itemsFault x items with
      | some g => r.2.cpRaise c e.num g
      | none =>
        let nat (l : List (Int × Nat)) : List (Nat × Nat) := l.map fun r => (r.1.toNat, r.2)
        let src := if scatter then plain f.src else recs
        let dst := if scatter then recs else plain f.dst
        (r.2.modCtx c fun x => x.newRun e f.t (.move false 0 0) (nat src) (nat dst)).cpAdvance c e.num

/-- `gather` (R243). -/
def execGather (f : GatherForm) (s : State) : Answer := s.cpGather f false
/-- `scatter` (R243). -/
def execScatter (f : GatherForm) (s : State) : Answer := s.cpGather f true

/-! ## Decompression (R250, R251) -/

/-- `unpack`: the header's footprint first (R238, R251). -/
def execUnpack (f : UnpackForm) (s : State) : Answer :=
  let buf := f.fbuf.toNat * 4096
  let reason := if f.rmax.toNat = 0 ∨ 8 < f.rmax.toNat ∨ f.maxo.toNat % 32 ≠ 0 then some 3 else none
  let items := itemsOf false false 1 false [(f.src.toNat, 16)] ++ tailItems f.t
  let fifo : CpItem := ⟨true, buf, 8192, true, 1, true⟩
  s.cpOp
    (fun x _ => ⟨f.t, poolHigh f.t 0 f.dst, reason, [(!x.bufferOk buf 8192, 0x0403, BitVec.ofNat 64 (buf % 2 ^ 20))],
      items, fifo :: items, true⟩)
    fun c e s => (s.modCtx c fun x => x.newRun e f.t (.unpackHead f) [(f.src.toNat, 16)] []).cpAdvance c e.num

/-! ## Codebook and table loads (R252, R253) -/

/-- COUNT above 256 (R259 reason 3). -/
def countReason (n : BitVec 9) : Option Nat := if 256 < n.toNat then some 3 else none

/-- A begun matrix command still reads a codebook side (R219). -/
def Context.sideRead (x : Context) (bank : Nat) (side : Bool) : Bool := x.mx.runs.any fun r => r.reads.contains (bank, side)

/-- `cbld` (R252): the side's valid count becomes 0; the entries are written from the next clock on. -/
def execCbld (f : CbldForm) (s : State) : Answer :=
  let k := f.bank.toNat
  let items := itemsOf f.t.spool false (if f.t.spool then 1 else 2) false [(f.src.toNat, 2 * f.count.toNat)] ++ tailItems f.t
  s.cpOp
    (fun x _ => ⟨f.t, poolHigh f.t f.src 0, countReason f.count,
      [(x.frontOf s.clk k == f.side, 0x0404, BitVec.ofNat 64 (256 + f.side.toNat * 4 + k))], items, items,
      x.frontOf s.clk k == f.side || !x.sideRead k f.side⟩)
    fun c e s => s.modCtx c fun x =>
      (x.modBank k fun b => b.setValid f.side 0).newRun e f.t (.bank k f.side f.count.toNat false) [(f.src.toNat, 2 * f.count.toNat)] []

/-- `itld` (R253). -/
def execItld (f : ItldForm) (s : State) : Answer :=
  let k := f.table.toNat
  let items := itemsOf f.t.spool false (if f.t.spool then 1 else 4) false [(f.src.toNat, 4 * f.count.toNat)] ++ tailItems f.t
  s.cpOp (fun _ _ => ⟨f.t, poolHigh f.t f.src 0, countReason f.count, [], items, items, true⟩) fun c e s => s.modCtx c fun x =>
    { x with tables := x.tables.zipIdx.map fun (t : ITable × Nat) => if t.2 = k then { t.1 with valid := 0 } else t.1 }.newRun e f.t
      (.table k f.count.toNat) [(f.src.toNat, 4 * f.count.toNat)] []

/-! ## Completion only, and the checksum store (R254) -/

/-- `cmpl` (R254). -/
def execCmpl (t : CpTail) (s : State) : Answer :=
  s.cpOp (fun _ _ => ⟨t, false, if t.cw then none else some 3, [], tailItems t, tailItems t, true⟩) fun c e s =>
    s.modCtx c fun x => (x.newRun e t .mark [] []).markMoved e.num

/-- Every earlier checksummed command has completed and made its update (R254). -/
def Context.sumsDone (x : Context) : Bool := x.cp.cks.isEmpty && x.cp.runs.all fun r => r.t.ckm == 0

/-- `ckst` (R254). -/
def execCkst (dst : Addr) (t : CpTail) (s : State) : Answer :=
  s.cpMoveOp t (poolHigh t 0 dst) none [] .ckst 1 4 [] [(dst.toNat, 4)] (s.ctx s.focus).sumsDone

/-! ## Completion (R239) -/

/-- FAIL: CHECK and a checksum that is not EXPECT (R257). -/
def CpRun.fail (r : CpRun) : Bool := r.t.check && r.sum != r.t.expect

/-- The completion word (R239). -/
def CpRun.word (r : CpRun) : Nat := r.fail.toNat * 2 ^ 63 + Nat.min r.satn 65535 * 2 ^ 32 + r.t.cval.toNat

/-- A completed command leaves its queue, wherever in it it stands, and raises its flags in group CP (R233, R239). -/
def Context.cpLeave (x : Context) (r : CpRun) : Context :=
  let fl := if 0 < r.satn then r.flags ||| flSA else r.flags
  { x with
    cpq := x.cpq.filter fun e => e.num != r.num,
    cp := { x.cp with runs := x.cp.runs.filter fun u => u.num != r.num } }.raiseFlags 3 fl

/-- CP_COMMAND_COMPLETE: a command whose accesses have all performed writes its completion word, once every earlier command has
completed and not in the clock of its last write, and completes (R239). A word through a peer window awaits its
acknowledgement (R264). -/
def execCpCommandComplete (c : CtxId) (num : W32) (s : State) : Answer :=
  let x := s.ctx c
  match x.cpRun num with
  | none => .next s
  | some r =>
    if !r.moved || x.heldCp num || !r.acked || r.faulted || r.late.isSome || r.cwSent then .next s
    else if !r.t.cw then .next (s.setCtx c (x.cpLeave r))
    else if (match x.cpq.head? with
      | some e => e.num != num
      | none => true) || decide (s.clk ≤ r.wclk) then .next s
    else
      let a := r.t.caddr.toNat
      let d := leBytes 8 r.word
      match peerOf a with
      | some (p, b) =>
        .next (match s.downFault true [(a, 8)] with
          | some f => s.cpStop c num f
          | none => (s.modRun c num fun r => { r with cwSent := true }).send (.peerWrite p (a - b) d))
      | none =>
        let s := s.setCtx c (x.cpLeave r)
        .next (if inHost a then s.send (.hostWrite (s.bus a) d false) else s.store a d)

end Sys2Proof.Machine
end

