-- ==== Sys2Proof/Machine/SeqCtl.lean ====
section
/-! DEFINITION. The sequencer's branches and jumps (R124 to R126), control registers (R90 to R92, R127), fences (R77, R81,
R135), traps (R100 to R102), the region mark (R95) and `done` (R149). -/

namespace Sys2Proof.Machine

/-- `br.eq` (R124). -/
def execBrEq (a b : Reg) (off : BitVec 15) (s : State) : Answer :=
  s.branch a b off (fun a b => a == b)
/-- `br.ne` (R124). -/
def execBrNe (a b : Reg) (off : BitVec 15) (s : State) : Answer :=
  s.branch a b off (fun a b => a != b)
/-- `br.lt` (R124). -/
def execBrLt (a b : Reg) (off : BitVec 15) (s : State) : Answer :=
  s.branch a b off BitVec.slt
/-- `br.ge` (R124). -/
def execBrGe (a b : Reg) (off : BitVec 15) (s : State) : Answer :=
  s.branch a b off (fun a b => !a.slt b)
/-- `br.ltu` (R124). -/
def execBrLtu (a b : Reg) (off : BitVec 15) (s : State) : Answer :=
  s.branch a b off BitVec.ult
/-- `br.geu` (R124). -/
def execBrGeu (a b : Reg) (off : BitVec 15) (s : State) : Answer :=
  s.branch a b off (fun a b => !a.ult b)

/-- `jmp` (R125). -/
def execJmp (d : Reg) (off : BitVec 20) (s : State) : Answer :=
  s.issue [d] fun c x => s.jumpTo c x d (x.rel off)
/-- `jmpr`: the target is taken from sa before the link is written (R125). -/
def execJmpr (d a : Reg) (imm : BitVec 15) (s : State) : Answer :=
  s.issue [a, d] fun c x => s.jumpTo c x d (x.reg a + imm.signExtend 64)

/-! ## Control registers (R90 to R92) -/

/-- Bits `n` wide placed at bit `lo`. -/
def fieldAt (lo v : Nat) : Nat := v * 2 ^ lo

/-- Identifier field `f` of R92. -/
def wfOf (widths : List Nat) (wid : W64) (f : Nat) : W64 :=
  let w := widths.getD f 0
  let total := widths.foldl (· + ·) 0
  let before := (widths.take f).foldl (· + ·) 0
  if w = 0 then 0 else BitVec.ofNat 64 (wid.toNat / 2 ^ (total - before - w) % 2 ^ w)

/-- The owned positions, held in ascending order, from slot `k` on, four to a register (R91). -/
def wheelWord (wheel : List Nat) (k : Nat) : W64 :=
  let ps := (wheel.drop k).take 4
  BitVec.ofNat 64 ((ps.zipIdx.map fun p => (32768 + p.1) * 65536 ^ p.2).foldl (· + ·) 0)

/-- WSHAPE of a launch (R91). -/
def wshapeOf (j : Job) : W64 :=
  BitVec.ofNat 64 ((j.widths.zipIdx.map fun w => w.1 * 64 ^ w.2).foldl (· + ·) 0 + fieldAt 36 j.place)

/-- The value a control register reads as; none for a CRN that R91 does not list. -/
def State.crRead (s : State) (c : CtxId) (crn : BitVec 12) : Option W64 :=
  let x := s.ctx c
  let j (f : Job → W64) : W64 := match x.job with
    | some j => f j
    | none => 0
  let nat (n : Nat) : W64 := BitVec.ofNat 64 n
  match crn.toNat with
  | 0x000 => some (j (·.wid))
  | 0x001 => some (j fun j => wfOf j.widths j.wid 0)
  | 0x002 => some (j fun j => wfOf j.widths j.wid 1)
  | 0x003 => some (j fun j => wfOf j.widths j.wid 2)
  | 0x004 => some (j fun j => wfOf j.widths j.wid 3)
  | 0x005 => some (j fun j => wfOf j.widths j.wid 4)
  | 0x006 => some (j fun j => wfOf j.widths j.wid 5)
  | 0x007 => some (j wshapeOf)
  | 0x008 => some (j (·.last))
  | 0x009 => some (nat (fieldAt 16 c.bg.toNat + fieldAt 12 c.cluster + fieldAt 8 (c.core % 16) + c.core))
  | 0x00A => some (j fun j => j.lseq.zeroExtend 64)
  | 0x00B => some (j fun j => nat (fieldAt 48 j.regmax + fieldAt 32 j.slipb + j.strict.toNat))
  | 0x010 => some s.now
  | 0x011 => some (nat s.clk)
  | 0x012 => some (wheelWord x.wheel 0)
  | 0x013 => some (wheelWord x.wheel 4)
  | 0x014 => some x.tcmp
  | 0x020 => some x.slipc
  | 0x021 => some (nat (fieldAt 32 x.slipBlk.toNat + x.slipCnt.toNat))
  | 0x022 => some (nat (fieldAt 16 x.rcnt.toNat + x.fcnt.toNat))
  | 0x023 => some (x.flg.zeroExtend 64)
  | 0x024 =>
    some (nat (fieldAt 21 x.fb.length + fieldAt 15 x.cpq.length + fieldAt 9 x.fq.length + fieldAt 4 x.mxq.length +
      x.exq.length))
  | 0x030 => some (nat (fieldAt 32 x.ccyc.toNat + fieldAt 1 x.pend.toNat + x.cmt.toNat))
  | 0x031 => some (x.raddr.zeroExtend 64)
  | 0x040 => some ((x.tvec &&& ~~~3#48).zeroExtend 64)
  | 0x041 => some (x.tepc.zeroExtend 64)
  | 0x042 => some (nat (fieldAt 31 x.intr.toNat + x.cause.toNat))
  | 0x043 => some x.tval
  | 0x044 => some (nat (fieldAt 1 x.pie.toNat + x.inh.toNat))
  | 0x045 => some (x.ie.zeroExtend 64)
  | 0x046 => some (nat (fieldAt 1 x.fbPending.toNat + (s.timerPending x).toNat))
  | 0x047 => some x.tscr
  | _ => none

/-- A control register's RW fields set to those of `v`; TVEC bits 1:0 are no field (R91). -/
def Context.crSet (x : Context) (crn : BitVec 12) (v : W64) : Context :=
  match crn.toNat with
  | 0x014 => { x with tcmp := v }
  | 0x040 => { x with tvec := v.setWidth 48 &&& ~~~3#48 }
  | 0x041 => { x with tepc := v.setWidth 48 }
  | 0x042 => { x with intr := v.getLsbD 31, cause := v.setWidth 16 }
  | 0x043 => { x with tval := v }
  | 0x044 => { x with pie := v.getLsbD 1, inh := v.getLsbD 0 }
  | 0x045 => { x with ie := v.setWidth 3 }
  | 0x047 => { x with tscr := v }
  | _ => x

/-- The reserved bits of a control register (R91, R127, R5). -/
def crReserved (crn : BitVec 12) : W64 :=
  match crn.toNat with
  | 0x007 => 0xFFFFFF8000000000#64
  | 0x009 => 0xFFFFFFFFFFFE0000#64
  | 0x00A => 0xFFFFFFFF00000000#64
  | 0x00B => 0x00000000FFFFFFFE#64
  | 0x012 => 0x7E007E007E007E00#64
  | 0x013 => 0x7E007E007E007E00#64
  | 0x021 => 0xFFFF000000000000#64
  | 0x022 => 0xFFFFFFFF00000000#64
  | 0x023 => 0xFFFFFFFFFFFF8000#64
  | 0x024 => 0xFFFFFFFFFC000000#64
  | 0x030 => 0x00000000FFFFFFFC#64
  | 0x031 => 0xFFFF000000000000#64
  | 0x040 => 0xFFFF000000000003#64
  | 0x041 => 0xFFFF000000000000#64
  | 0x042 => 0xFFFFFFFF7FFF0000#64
  | 0x044 => 0xFFFFFFFFFFFFFFFC#64
  | 0x045 => 0xFFFFFFFFFFFFFFF8#64
  | 0x046 => 0xFFFFFFFFFFFFFFFC#64
  | _ => 0

/-- A write that holds `v` counts as a reserved write when `v` has a reserved bit of the register (R5, R127). -/
def State.crCount (s : State) (crn : BitVec 12) (v : W64) : State :=
  if v &&& crReserved crn = 0 then s else { s with rsvw := satInc s.rsvw }

/-- `crr` (R90, R127). -/
def execCrr (d : Reg) (crn : BitVec 12) (s : State) : Answer :=
  s.issue [d] fun c x =>
    match s.crRead c crn with
    | none => s.seqFault c (s.illegalFault x)
    | some v => s.finish c (x.setReg d v) 4

/-- `crw`: RW fields take sa, each 1 on a W1C field clears that bit (R90); a flag raised in the same clock stays (R188). -/
def execCrw (crn : BitVec 12) (a : Reg) (s : State) : Answer :=
  s.issue [a] fun c x =>
    match s.crRead c crn with
    | none => s.seqFault c (s.illegalFault x)
    | some _ =>
      let v := x.reg a
      let y := if crn = 0x023 then { x with flg := x.flg &&& ~~~(v.setWidth 15) } else x.crSet crn v
      (s.crCount crn v).finish c y 4

/-- `crs`: RW fields take CR OR sa; no effect on W1C fields (R90). -/
def execCrs (d : Reg) (crn : BitVec 12) (a : Reg) (s : State) : Answer :=
  s.issue [a, d] fun c x =>
    match s.crRead c crn with
    | none => s.seqFault c (s.illegalFault x)
    | some v =>
      (s.crCount crn (x.reg a)).finish c ((x.crSet crn (v ||| x.reg a)).setReg d v) 4

/-- `crc`: RW fields take CR AND NOT sa; no effect on W1C fields (R90). -/
def execCrc (d : Reg) (crn : BitVec 12) (a : Reg) (s : State) : Answer :=
  s.issue [a, d] fun c x =>
    match s.crRead c crn with
    | none => s.seqFault c (s.illegalFault x)
    | some v => s.finish c ((x.crSet crn (v &&& ~~~(x.reg a))).setReg d v) 4

/-! ## Fences (R77, R81, R135) -/

/-- Every earlier access of a class in the mask has performed (R77). -/
def Context.classesPerformed (x : Context) (mask : BitVec 16) : Bool :=
  !x.heldClass mask && x.loads.all fun l => !l.host || (l.mask &&& mask) == 0

/-- `fence.c` (R77). -/
def execFenceC (_scope : Scope) (mask : BitVec 16) (s : State) : Answer :=
  s.issue [] fun c x => if x.classesPerformed mask then s.finish c x 4 else s.stall c

/-- `fence.x` (R81): it waits for the named local paths; and, named or not, for the sequencer's own earlier accesses, since it orders
every access before it and after it (R76). Of the remote paths every access performs in order (log entry 4). -/
def execFenceX (_scope : Scope) (paths : BitVec 8) (s : State) : Answer :=
  s.issue [] fun c x =>
    if x.performed && (!paths.getLsbD 1 || x.exIdle) && (!paths.getLsbD 2 || x.mxIdle) &&
      (!paths.getLsbD 3 || x.cpIdle) then s.finish c x 4
    else s.stall c

/-! ## Traps (R100 to R102) -/

/-- `trap` (R100). -/
def execTrap (imm : BitVec 16) (s : State) : Answer :=
  s.issue [] fun c x => s.trapEnter c false 1 (imm.zeroExtend 64) (x.pc + 4)

/-- `tret` (R101). -/
def execTret (s : State) : Answer := s.issue [] fun c _ => s.trapReturn c

/-! ## The region mark (R95) -/

/-- What the mark shadows (R95). -/
def Context.shadowed (x : Context) : Shadow :=
  { x := x.x, tvec := x.tvec, ie := x.ie, tcmp := x.tcmp, tscr := x.tscr, mb := x.mb, sem := x.sem, q := x.ex.q,
    banks := x.banks.map (·.sel) }

/-- No result of an earlier instruction is outstanding (R119): the shadow of a mark takes the value every register ends with. -/
def Context.settled (x : Context) : Bool := x.loads.isEmpty && x.divs.isEmpty

/-- The mark completes (R95); a request held in PEND discards the work item (R98). -/
def State.mark (s : State) (c : CtxId) (x : Context) : State :=
  let y := { x.advance 4 with shadow := x.shadowed, raddr := x.pc + 4, cmt := false, ccyc := 0 }
  if x.pend then (s.setCtx c y).discardItem c else s.setCtx c y

/-- `region` (R95). The two faults are tested whenever it is tried, so also while it waits for the drain (log entry 81). It waits in STALL
for the engines and the earlier stores (R94); where only results of its registers are outstanding, R119's interlock holds it, in RUN. -/
def execRegion (s : State) : Answer :=
  s.issue [] fun c x =>
    if x.inh || !x.fb.isEmpty then
      s.seqFault c ⟨0x0207, 0, 0, BitVec.ofNat 64 x.fb.length, boolW x.inh⟩
    else if !(x.exIdle && x.mxIdle && x.fq.isEmpty && x.cpIdle) || x.heldSq then s.stall c
    else if x.performed && x.settled then s.mark c x
    else s.setCtx c { x with run := .run }

/-- `done` (R149): DONE, with the feedback queue emptied; CONTEXT_ENDED ends the drain. -/
def execDone (s : State) : Answer :=
  s.issue [] fun c x => s.setCtx c { x with run := .done, fb := [], note := { x.noteAt s.clk with done := true } }

end Sys2Proof.Machine
end

