-- ==== Sys2Proof/Machine/SeqMem.lean ====
section
/-! DEFINITION. The sequencer's memory instructions: loads, stores, acquires, releases, wheel accesses, atomics and waits
(R128 to R134). An access performs in the clock it issues (log entry 4); a load's value lands later (R119). -/

namespace Sys2Proof.Machine

/-! ## Plain accesses (R128) -/

/-- A plain access's shape; it has no scope, and its records hold 0 there (log entry 79). -/
def plainAcc (x : Context) (f : MemForm) (wr : Bool) : Acc :=
  { ea := x.reg f.b + f.off.signExtend 64, n := accBytes f.ty, align := accBytes f.ty, wr := wr, atom := false, sc := false,
    host := true, scope := 0, cls := f.cls.toNat }

/-- `ld` (R128). -/
def execLd (f : MemForm) (s : State) : Answer :=
  s.issue [f.b, f.r] fun c x =>
    let a := plainAcc x f false
    match s.devFault x a with
    | some e => s.seqFault c e
    | none =>
      if x.hostWait (clsMask f.cls) a.ea.toNat a.n then s else s.load c x f.r f.ty a (clsMask f.cls) false

/-- `st` (R128). -/
def execSt (f : MemForm) (s : State) : Answer :=
  s.issue [f.b, f.r] fun c x =>
    let a := plainAcc x f true
    match s.devFault x a with
    | some e => s.seqFault c e
    | none =>
      if x.hostWait (clsMask f.cls) a.ea.toNat a.n then s
      else (s.put a.ea.toNat a.n (x.reg f.r)).finish c x 8

/-- `ldp` (R128, R66, R157); it waits for an earlier pool store of one of its bytes that is held (R74, log entry 90). -/
def execLdp (f : MemForm) (s : State) : Answer :=
  s.issue [f.b, f.r] fun c x =>
    let a := plainAcc x f false
    match x.poolAccFault a with
    | some e => s.seqFault c e
    | none =>
      if x.poolWait (clsMask f.cls) a.ea.toNat a.n then s
      else
        let r := s.poolRead x a.ea.toNat a.n
        r.2.finish c (x.record f.r f.ty (leNat r.1)) 8

/-- `stp` (R128, R66, R157); a byte that a plane write bars is held (R213). -/
def execStp (f : MemForm) (s : State) : Answer :=
  s.issue [f.b, f.r] fun c x =>
    let a := plainAcc x f true
    match x.poolAccFault a with
    | some e => s.seqFault c e
    | none =>
      if x.poolWait (clsMask f.cls) a.ea.toNat a.n then s
      else
        let r := s.poolStore x (.sq (clsMask f.cls) x.loadNum) (placed a.ea.toNat (leBytes a.n (x.reg f.r).toNat))
        r.2.finish c { r.1 with loadNum := x.loadNum + 1 } 8

/-! ## Acquires and releases (R129, R78) -/

/-- An acquire's or a release's shape: it may reach the host window (log entry 82), and its records hold CLASS 0 (log entry 79). -/
def syncAcc (x : Context) (f : SyncForm) (wr : Bool) : Acc :=
  { ea := x.reg f.b + f.off.signExtend 64, n := accBytes f.ty, align := accBytes f.ty, wr := wr, atom := false, sc := false,
    host := true, scope := f.scope.code, cls := 0 }

/-- `ld.acq` (R129): later accesses of its classes wait for a host-window read (R78). -/
def execLdAcq (f : SyncForm) (s : State) : Answer :=
  s.issue [f.b, f.r] fun c x =>
    let a := syncAcc x f false
    match s.devFault x a with
    | some e => s.seqFault c e
    | none => if x.hostWait f.mask a.ea.toNat a.n then s else s.load c x f.r f.ty a f.mask true

/-- Whether a scope commits a release (R96). -/
def scopeCommits : Scope → Bool
  | .core => false | .clu => false | .dev => true | .sys => true

/-- `st.rel` (R129): it performs once every earlier access of its classes has (R78), and commits the region at .dev and .sys
(R96). -/
def execStRel (f : SyncForm) (s : State) : Answer :=
  s.issue [f.b, f.r] fun c x =>
    let a := syncAcc x f true
    match s.devFault x a with
    | some e => s.seqFault c e
    | none =>
      if x.hostWait f.mask a.ea.toNat a.n then s
      else (s.put a.ea.toNat a.n (x.reg f.r)).finish c (if scopeCommits f.scope then x.commit else x) 8

/-! ## Wheel accesses (R130, R85) -/

/-- A `.sc` access: the wheel fault before any other check (R130), then the access's own, then the wait for earlier accesses
and for a position this context owns. -/
def State.scIssue (s : State) (c : CtxId) (x : Context) (a : Acc) (go : State) : State :=
  if x.wheel.isEmpty then s.seqFault c (a.fault false 0x0107 a.ea.toNat)
  else
    match s.devFault x a with
    | some e => s.seqFault c e
    | none => if x.performed && s.onWheel x then go else s

/-- A wheel load's or store's shape. -/
def scAcc (x : Context) (f : ScForm) (wr : Bool) : Acc :=
  { ea := x.reg f.b + f.off.signExtend 64, n := accBytes f.ty, align := accBytes f.ty, wr := wr, atom := false, sc := true,
    host := false, scope := 2, cls := 0 }

/-- `ld.sc` (R130). -/
def execLdSc (f : ScForm) (s : State) : Answer :=
  s.issue [f.b, f.r] fun c x =>
    let a := scAcc x f false
    s.scIssue c x a (s.load c x f.r f.ty a 0 false)

/-- `st.sc` (R130); it commits the region (R96). -/
def execStSc (f : ScForm) (s : State) : Answer :=
  s.issue [f.b, f.r] fun c x =>
    let a := scAcc x f true
    s.scIssue c x a ((s.put a.ea.toNat a.n (x.reg f.r)).finish c x.commit 8)

/-! ## Atomics (R131, R132) -/

/-- The ten atomic operations (R131). -/
inductive AtmOp | add | and | or | xor | min | max | minU | maxU | swap | cas
  deriving DecidableEq, Repr

/-- The value an atomic writes, none where nothing is written: `w` bits, old value, operand and the new value of
`atm.cas` (R131). -/
def AtmOp.new (op : AtmOp) (w old v n : Nat) : Option Nat :=
  match op with
  | .add => some ((old + v) % 2 ^ w)
  | .and => some (old &&& v)
  | .or => some (old ||| v)
  | .xor => some (old ^^^ v)
  | .min => some (if sextN w v < sextN w old then v else old)
  | .max => some (if sextN w old < sextN w v then v else old)
  | .minU => some (Nat.min old v)
  | .maxU => some (Nat.max old v)
  | .swap => some v
  | .cas => if old = v then some n else none

/-- The access of an atomic performs: the word read and written as one, the old value into sd, and the region committed (R96,
R131). -/
def State.atomic (s : State) (c : CtxId) (x : Context) (op : AtmOp) (ty : AccTy) (d v n : Reg) (ea : Nat) : State :=
  let k := accBytes ty
  let old := memNat s.mem ea k
  let s := match op.new (8 * k) old ((x.reg v).toNat % 2 ^ (8 * k)) ((x.reg n).toNat % 2 ^ (8 * k)) with
    | some w => s.store ea (leBytes k w)
    | none => s
  s.finish c (x.commit.record d ty old) 8

/-- A plain atomic (R131, R132). -/
def State.atm (s : State) (op : AtmOp) (f : AtmForm) (n : Reg) : Answer :=
  s.issue [f.b, f.v, n, f.d] fun c x =>
    let a : Acc :=
      { ea := x.reg f.b + f.off.signExtend 64, n := accBytes f.ty, align := accBytes f.ty, wr := true,
        atom := true, sc := false, host := false, scope := f.scope.code, cls := f.cls.toNat }
    match s.devFault x a with
    | some e => s.seqFault c e
    | none =>
      if x.hostWait (clsMask f.cls) a.ea.toNat a.n then s else s.atomic c x op f.ty f.d f.v n a.ea.toNat

/-- A `.sc` atomic (R132, R85). -/
def State.atmSc (s : State) (op : AtmOp) (f : AtmScForm) (n : Reg) : Answer :=
  s.issue [f.b, f.v, n, f.d] fun c x =>
    let a : Acc :=
      { ea := x.reg f.b + f.off.signExtend 64, n := accBytes f.ty, align := accBytes f.ty, wr := true,
        atom := true, sc := true, host := false, scope := 2, cls := 0 }
    s.scIssue c x a (s.atomic c x op f.ty f.d f.v n a.ea.toNat)

/-- `atm.add` (R131). -/
def execAtmAdd (f : AtmForm) (s : State) : Answer := s.atm .add f 0
/-- `atm.and` (R131). -/
def execAtmAnd (f : AtmForm) (s : State) : Answer := s.atm .and f 0
/-- `atm.or` (R131). -/
def execAtmOr (f : AtmForm) (s : State) : Answer := s.atm .or f 0
/-- `atm.xor` (R131). -/
def execAtmXor (f : AtmForm) (s : State) : Answer := s.atm .xor f 0
/-- `atm.min` (R131). -/
def execAtmMin (f : AtmForm) (s : State) : Answer := s.atm .min f 0
/-- `atm.max` (R131). -/
def execAtmMax (f : AtmForm) (s : State) : Answer := s.atm .max f 0
/-- `atm.min.u` (R131). -/
def execAtmMinU (f : AtmForm) (s : State) : Answer := s.atm .minU f 0
/-- `atm.max.u` (R131). -/
def execAtmMaxU (f : AtmForm) (s : State) : Answer := s.atm .maxU f 0
/-- `atm.swap` (R131). -/
def execAtmSwap (f : AtmForm) (s : State) : Answer := s.atm .swap f 0
/-- `atm.cas` (R131). -/
def execAtmCas (f : AtmForm) (n : Reg) (s : State) : Answer := s.atm .cas f n
/-- `atm.add.sc` (R132). -/
def execAtmAddSc (f : AtmScForm) (s : State) : Answer := s.atmSc .add f 0
/-- `atm.and.sc` (R132). -/
def execAtmAndSc (f : AtmScForm) (s : State) : Answer := s.atmSc .and f 0
/-- `atm.or.sc` (R132). -/
def execAtmOrSc (f : AtmScForm) (s : State) : Answer := s.atmSc .or f 0
/-- `atm.xor.sc` (R132). -/
def execAtmXorSc (f : AtmScForm) (s : State) : Answer := s.atmSc .xor f 0
/-- `atm.min.sc` (R132). -/
def execAtmMinSc (f : AtmScForm) (s : State) : Answer := s.atmSc .min f 0
/-- `atm.max.sc` (R132). -/
def execAtmMaxSc (f : AtmScForm) (s : State) : Answer := s.atmSc .max f 0
/-- `atm.min.u.sc` (R132). -/
def execAtmMinUSc (f : AtmScForm) (s : State) : Answer := s.atmSc .minU f 0
/-- `atm.max.u.sc` (R132). -/
def execAtmMaxUSc (f : AtmScForm) (s : State) : Answer := s.atmSc .maxU f 0
/-- `atm.swap.sc` (R132). -/
def execAtmSwapSc (f : AtmScForm) (s : State) : Answer := s.atmSc .swap f 0
/-- `atm.cas.sc` (R132). -/
def execAtmCasSc (f : AtmScForm) (n : Reg) (s : State) : Answer := s.atmSc .cas f n

/-! ## Waits (R83, R133, R134) -/

/-- Whether a wait is satisfied by the word read (R83). -/
def waitMet (eq : Bool) (n : Nat) (v : Nat) (sv : W64) : Bool :=
  if eq then decide (v = sv.toNat % 2 ^ (8 * n)) else decide (sv.toNat % 2 ^ (8 * n) ≤ v)

/-- A wait ends with the word in sd and the pc past it (R83). -/
def State.waitDone (s : State) (c : CtxId) (x : Context) (d : Reg) (v : Nat) : State :=
  s.finish c { x.setReg d (BitVec.ofNat 64 v) with sleep := none } 8

/-- A sleeping wait reads a word of the host window (R61, R134). -/
def State.waitHostRead (s : State) (c : CtxId) (x : Context) (w : SleepWait) : State :=
  (s.setCtx c { x with run := .sleep, sleep := some { w with pending := some x.loadNum }, loadNum := x.loadNum + 1 }).send
    (.hostRead c.val x.loadNum (s.bus w.addr) w.bytes)

/-- `waitge` and `waiteq`: checked once as a load, then the first read; unsatisfied with st = 0 it ends at once, else it
sleeps (R83, R133). Its records hold CLASS 0 (log entry 79). -/
def State.wait (s : State) (eq : Bool) (f : WaitForm) : Answer :=
  s.issue [f.b, f.sv, f.st, f.d] fun c x =>
    let n := accBytes f.ty
    let a : Acc :=
      { ea := x.reg f.b + f.off.signExtend 64, n := n, align := n, wr := false, atom := false, sc := false,
        host := true, scope := f.scope.code, cls := 0 }
    match s.devFault x a with
    | some e => s.seqFault c e
    | none =>
      if x.hostWait 1 a.ea.toNat n then s
      else
        let w : SleepWait :=
          { eq := eq, d := f.d, bytes := n, addr := a.ea.toNat, sv := x.reg f.sv,
            deadline := s.clk + (x.reg f.st).toNat % 2 ^ 32, host := inHost a.ea.toNat, pending := none, got := none,
            lastRead := s.clk,
            det0 := a.det0 false }
        if w.host then s.waitHostRead c x w
        else
          let v := memNat s.mem w.addr n
          if waitMet eq n v w.sv || decide (w.deadline ≤ s.clk) then s.waitDone c x f.d v
          else s.setCtx c { x with run := .sleep, sleep := some w }

/-- `waitge` (R133). -/
def execWaitge (f : WaitForm) (s : State) : Answer := s.wait false f
/-- `waiteq` (R133). -/
def execWaiteq (f : WaitForm) (s : State) : Answer := s.wait true f

end Sys2Proof.Machine
end

