-- ==== Sys2Proof/Machine/SeqPush.lean ====
section
/-! DEFINITION. The sequencer's engine interface: pushes (R113, R136 to R141), mailboxes, semaphores and the feedback queue
(R142 to R146), and `launch` (R147, R148). -/

namespace Sys2Proof.Machine

/-! ## Pushes -/

/-- A push waits for every earlier acquire, so that pushed work begins no access before it (R82). -/
def Context.acquired (x : Context) : Bool := x.loads.all fun l => !l.acq

/-- The index fault (R103): DETAIL1 is the range count. -/
def State.indexFault (s : State) (x : Context) (count : Nat) : FaultInfo :=
  ⟨0x0205, 0, 0, s.insnWord x, BitVec.ofNat 64 count⟩

/-- The dwords of a template of `n` dwords at index `i` of its section, read from the image (R138). -/
def State.template (s : State) (sec : Section) (n i : Nat) : List W64 :=
  (List.range n).map fun k => BitVec.ofNat 64 (memNat s.mem (sec.base + 8 * n * i + 8 * k) 8)

/-- The template with dword `i` replaced by the next register value for each set bit `i` of PMASK (R113). -/
def patchDwords (pmask : Nat) : Nat → List W64 → List W64 → List W64
  | _, [], _ => []
  | i, d :: r, vs =>
    if pmask.testBit i then
      match vs with
      | v :: vr => v :: patchDwords pmask (i + 1) r vr
      | [] => d :: patchDwords pmask (i + 1) r []
    else d :: patchDwords pmask (i + 1) r vs

/-- A number whose dwords, lowest first, are a list. -/
def joinDwords (l : List W64) : Nat := l.foldr (fun d acc => d.toNat + 2 ^ 64 * acc) 0

/-- The command a template push builds: none for an index outside the kernel's range (R113, R116). -/
def State.pushedTemplate (s : State) (x : Context) (f : PushForm) (sec : Section) (base count n : Nat) : Option Nat :=
  if f.tidx.toNat < count then
    some (joinDwords (patchDwords f.pmask.toNat 0 (s.template sec n (base + f.tidx.toNat)) [x.reg f.a, x.reg f.b, x.reg f.c]))
  else none

/-- The command a register push builds from `n` registers (R113, R139). -/
def Context.pushedRegs (x : Context) (a : Reg) (n : Nat) : Nat :=
  joinDwords ((List.range n).map fun i => x.reg (a + BitVec.ofNat 5 i))

/-- The registers a register push reads. -/
def pushRegs (a : Reg) (n : Nat) : List Reg := (List.range n).map fun i => a + BitVec.ofNat 5 i

/-- Appends a matrix command, or stalls while the queue holds 16 (R136). -/
def State.appendMx (s : State) (c : CtxId) (x : Context) (w : Nat) : State :=
  if x.mxq.length < 16 then
    s.finish c { x with mxq := x.mxq ++ [⟨x.mx.mseq, BitVec.ofNat 256 w⟩], mx := { x.mx with mseq := x.mx.mseq + 1 } } 8
  else s.stall c

/-- Appends a copy command, or stalls while the queue holds 32 (R136). -/
def State.appendCp (s : State) (c : CtxId) (x : Context) (w : Nat) : State :=
  if x.cpq.length < 32 then
    s.finish c { x with cpq := x.cpq ++ [⟨x.cp.cseq, BitVec.ofNat 256 w⟩], cp := { x.cp with cseq := x.cp.cseq + 1 } } 8
  else s.stall c

/-- Appends an alignment command and commits the region, or stalls while the queue holds 4 (R136, R141, R96). -/
def State.appendAl (s : State) (c : CtxId) (x : Context) (w : Nat) : State :=
  if x.alq.length < 4 then
    s.finish c { x.commit with alq := x.alq ++ [⟨x.alNum, BitVec.ofNat 128 w, s.clk, x.loadNum⟩], alNum := x.alNum + 1 } 8
  else s.stall c

/-- A push: it waits for its registers and for earlier acquires; an index outside the range is the index fault. -/
def State.push (s : State) (rs : List Reg) (w : Context → Option Nat) (count : Context → Nat)
    (app : State → CtxId → Context → Nat → State) : Answer :=
  s.issue rs fun c x =>
    match w x with
    | none => s.seqFault c (s.indexFault x (count x))
    | some v => if x.acquired then app s c x v else s

/-- A number of the kernel the context runs; 0 without one. -/
def Context.ofKernel (x : Context) (f : Kernel → Nat) : Nat :=
  match x.job with
  | some j => f j.k
  | none => 0

/-- A section of the kernel's image; empty without one. -/
def Context.secOf (x : Context) (f : Kernel → Section) : Section :=
  match x.job with
  | some j => f j.k
  | none => ⟨0, 0⟩

/-- `pushb.ex` (R137): the entry captures the mailboxes. -/
def execPushbEx (blk : BitVec 16) (s : State) : Answer :=
  s.issue [] fun c x =>
    if blk.toNat < x.ofKernel (·.exN) then
      if !x.acquired then s
      else if x.exq.length < 8 then s.finish c { x with exq := x.exq ++ [⟨blk.toNat, x.mb⟩] } 8
      else s.stall c
    else s.seqFault c (s.indexFault x (x.ofKernel (·.exN)))

/-- `pusht.mx` (R138). -/
def execPushtMx (f : PushForm) (s : State) : Answer :=
  s.push [f.a, f.b, f.c]
    (fun x => s.pushedTemplate x f (x.secOf (·.mx)) (x.ofKernel (·.mxBase)) (x.ofKernel (·.mxN)) 4)
    (fun x => x.ofKernel (·.mxN)) State.appendMx
/-- `pushr.mx` (R139). -/
def execPushrMx (a : Reg) (s : State) : Answer :=
  s.push (pushRegs a 4) (fun x => some (x.pushedRegs a 4)) (fun _ => 0) State.appendMx
/-- `pusht.cp` (R138). -/
def execPushtCp (f : PushForm) (s : State) : Answer :=
  s.push [f.a, f.b, f.c]
    (fun x => s.pushedTemplate x f (x.secOf (·.cp)) (x.ofKernel (·.cpBase)) (x.ofKernel (·.cpN)) 4)
    (fun x => x.ofKernel (·.cpN)) State.appendCp
/-- `pushr.cp` (R139). -/
def execPushrCp (a : Reg) (s : State) : Answer :=
  s.push (pushRegs a 4) (fun x => some (x.pushedRegs a 4)) (fun _ => 0) State.appendCp
/-- `pusht.al` (R138). -/
def execPushtAl (f : PushForm) (s : State) : Answer :=
  s.push [f.a, f.b, f.c]
    (fun x => s.pushedTemplate x f (x.secOf (·.al)) (x.ofKernel (·.alBase)) (x.ofKernel (·.alN)) 2)
    (fun x => x.ofKernel (·.alN)) State.appendAl
/-- `pushr.al` (R139). -/
def execPushrAl (a : Reg) (s : State) : Answer :=
  s.push (pushRegs a 2) (fun x => some (x.pushedRegs a 2)) (fun _ => 0) State.appendAl

/-- `pushf` (R140): it waits for earlier acquires (R82); the queue holds 32 words. -/
def execPushf (a : Reg) (s : State) : Answer :=
  s.issue [a] fun c x =>
    if !x.acquired then s
    else if x.fq.length < 32 then s.finish c { x with fq := x.fq ++ [x.reg a] } 4 else s.stall c

/-! ## Mailboxes, semaphores, feedback -/

/-- `mbw` (R142). -/
def execMbw (n : BitVec 3) (a : Reg) (s : State) : Answer :=
  s.issue [a] fun c x => s.finish c { x with mb := x.mb.set n.toNat ((x.reg a).setWidth 32) } 4

/-- `semsig` (R143, R144, R150). -/
def execSemsig (n : BitVec 4) (a : Reg) (s : State) : Answer :=
  s.issue [a] fun c x =>
    let v := (x.reg a).toNat % 2 ^ 16
    match x.semSignal s.clk n.toNat v with
    | some y => s.finish c y 4
    | none =>
      s.seqFault c ⟨0x0208, 0, 0, n.zeroExtend 64, BitVec.ofNat 64 (v * 2 ^ 16 + x.semTest s.clk n.toNat)⟩

/-- `semwait` (R143): its turn comes after the signals of the clock and after matrix and execute waits (R144, `sqPlace`). -/
def execSemwait (n : BitVec 4) (a : Reg) (s : State) : Answer :=
  s.issue [a] fun c x =>
    let v := (x.reg a).toNat % 2 ^ 16
    if v = 0 then s.finish c x 4
    else if v ≤ x.semVal n.toNat then s.finish c (x.semTake s.clk n.toNat v) 4
    else s.stall c

/-- `semrd` (R143). -/
def execSemrd (d : Reg) (n : BitVec 4) (s : State) : Answer :=
  s.issue [d] fun c x => s.finish c (x.setReg d (BitVec.ofNat 64 (x.semVal n.toNat))) 4

/-- The oldest feedback entry that the sequencer can take in clock `clk` (R146, R181). -/
def Context.fbHead (x : Context) (clk : Nat) : Option (BitVec 48) :=
  match x.fb with
  | [] => none
  | (v, born) :: _ => if born < clk then some v else none

/-- `fbpop` (R146). -/
def execFbpop (d : Reg) (s : State) : Answer :=
  s.issue [d] fun c x =>
    match x.fbHead s.clk with
    | some v => s.finish c { x.setReg d (v.zeroExtend 64) with fb := x.fb.tail } 4
    | none => s.stall c

/-- `fbtry` (R146). -/
def execFbtry (d : Reg) (s : State) : Answer :=
  s.issue [d] fun c x =>
    match x.fbHead s.clk with
    | some v => s.finish c { x.setReg d (v.zeroExtend 64) with fb := x.fb.tail } 4
    | none => s.finish c (x.setReg d (BitVec.ofNat 64 (2 ^ 63))) 4

/-! ## Launch (R147, R148, R353) -/

/-- Entries a launch queue's ring holds (R353, R355). -/
def Queue.size (q : Queue) : Nat := 2 ^ (q.qring.toNat / 2 ^ 60)
/-- BASE of a queue's ring. -/
def Queue.base (q : Queue) : Nat := q.qring.toNat % 2 ^ 48
/-- Records waiting in a queue (R353). -/
def Queue.count (q : Queue) : Nat := (q.tail - q.head).toNat
/-- The queue is host-fed (R353). -/
def Queue.hostFed (q : Queue) : Bool := q.qcfg.getLsbD 62
/-- The partition that owns a queue (R355). -/
def Queue.part (q : Queue) : Nat := q.qcfg.toNat / 2 ^ 32 % 8

/-- A work item of the context's partition may launch into queue `q` (R147 reason 2, R353, R356). -/
def State.mayFeed (s : State) (x : Context) (q : Nat) : Bool :=
  !(s.queue q).hostFed &&
    (match x.job with
    | some j => (s.part j.part).pfeed.getLsbD q
    | none => false)

/-- Appends a record to queue `q` in the issue clock (R147, R353). -/
def State.appendRecord (s : State) (q : Nat) (rec : List Byte) : State :=
  let u := s.queue q
  let s := s.setQueue q { u with tail := u.tail + 1, born := u.born ++ [(u.tail, s.clk)] }
  s.storeRo (u.base + 128 * (u.tail.toNat % u.size)) rec

/-- `launch` (R147): the checks in the order of R151, the stall on a full queue, and the append; it commits the region
(R96). -/
def execLaunch (a b : Reg) (s : State) : Answer :=
  s.issue [a, b] fun c x =>
    let q := (x.reg b).toNat
    let acc : Acc :=
      { ea := x.reg a, n := 128, align := 128, wr := false, atom := false, sc := false, host := false, scope := 0, cls := 0 }
    if 63 < q then s.seqFault c ⟨0x0209, 0, 0, x.reg b, 1⟩
    else if !s.mayFeed x q then s.seqFault c ⟨0x0209, 0, 0, x.reg b, 2⟩
    else
      match s.devFault x acc with
      | some e => s.seqFault c e
      | none =>
        let u := s.queue q
        if u.size ≤ u.count then s.stall c
        else if !x.performed then s
        else (s.appendRecord q (memRead s.mem acc.ea.toNat 128)).finish c x.commit 4

end Sys2Proof.Machine
end

