-- ==== Sys2Proof/Machine/SeqEvents.lean ====
section
/-! DEFINITION. Steps of a sequencer that no instruction makes: results landing (R119), a stall's end (R94), waits (R83,
R134), interrupts (R100), the region length (R97), pre-emption requests (R94, R99) and the end of a work item (R149). -/

namespace Sys2Proof.Machine

/-! ## Results (R119) -/

/-- LOAD_VALUE_RETURN: the value of access `n` lands in its register (R119). -/
def execLoadValueReturn (c : CtxId) (n : Nat) (s : State) : Answer :=
  let x := s.ctx c
  match x.loads.find? fun l => l.num == n && !l.host with
  | none => .next s
  | some l => .next (s.setCtx c ({ x with loads := x.loads.filter fun m => m.num != n }.setReg l.d l.val))

/-- The clocks a division takes (R119). -/
def divClocks : Nat := 34

/-- DIVISION_RESULT: the oldest division lands once 34 clocks have passed (R119). -/
def execDivisionResult (c : CtxId) (s : State) : Answer :=
  let x := s.ctx c
  match x.divs with
  | [] => .next s
  | d :: r =>
    if d.issued + divClocks ≤ s.clk then .next (s.setCtx c ({ x with divs := r }.setReg d.d d.val)) else .next s

/-! ## The region length (R97) -/

/-- The context is in RUN, STALL or SLEEP. -/
def Context.issuing (x : Context) : Bool := x.run == .run || x.run == .stall || x.run == .sleep

/-- The committed region has reached its length (R97). -/
def Context.regionOver (x : Context) : Bool :=
  match x.job with
  | some j => x.issuing && x.cmt && decide (64 * j.regmax ≤ x.ccyc.toNat)
  | none => false

/-! ## The end of a stall (R94) -/

/-- The instruction at the pc, if it decodes (R105). -/
def State.decodeAt (s : State) (x : Context) : Option Instr :=
  let w := s.fetchWords x
  (decodeSeqWords w.1 w.2).map (·.1)

/-- Tries again the instructions that can stall (R94). -/
def retryStalled (i : Instr) (s : State) : Answer :=
  match i with
  | .fenceC sc m => execFenceC sc m s
  | .fenceX sc p => execFenceX sc p s
  | .region => execRegion s
  | .pushbEx b => execPushbEx b s
  | .pushtMx f => execPushtMx f s
  | .pushrMx a => execPushrMx a s
  | .pushtCp f => execPushtCp f s
  | .pushrCp a => execPushrCp a s
  | .pushtAl f => execPushtAl f s
  | .pushrAl a => execPushrAl a s
  | .pushf a => execPushf a s
  | .fbpop d => execFbpop d s
  | .semwait n a => execSemwait n a s
  | .launch a b => execLaunch a b s
  | _ => .next s

/-- STALL_RELEASE: a stalled instruction tests its condition again and takes effect as a whole if it holds (R94); in a clock in which
the region is over it has no effect (R97). It is its sequencer's turn of the clock (R119, `State.turn`). -/
def execStallRelease (c : CtxId) (s : State) : Answer :=
  let x := s.ctx c
  if x.run = .stall ∧ x.regionOver = false then
    match s.decodeAt x with
    | some i => s.onFocus c (retryStalled i)
    | none => .next s
  else .next s

/-! ## Waits (R83, R134) -/

/-- The clocks after which a sleeping wait reads a host-window word again (R134). -/
def hostSleep : Nat := 600

/-- A host-window word that a sleeping wait has read (R61, R83, R134): an error is its lease fault; a word that satisfies it, or any
word from its deadline on, ends it; else it sleeps on. -/
def State.waitHostTest (s : State) (c : CtxId) (x : Context) (w : SleepWait) (ok : Bool) (v : Nat) : State :=
  if !ok then s.seqFault c (memFault 0x0102 w.addr w.det0)
  else if waitMet w.eq w.bytes v w.sv || decide (w.deadline ≤ s.clk) then s.waitDone c x w.d v
  else s.setCtx c { x with sleep := some { w with got := none } }

/-- WAIT_WAKE: a sleeping wait reads its word again; satisfied, it ends (R83). In a clock in which the region is over it has no
effect (R97). -/
def execWaitWake (c : CtxId) (s : State) : Answer :=
  let x := s.ctx c
  match x.run, x.sleep with
  | .sleep, some w =>
    if x.regionOver then .next s
    else
      match w.got with
      | some r => .next (s.waitHostTest c x w r.1 r.2)
      | none =>
        if w.host then
          if w.pending.isNone && decide (w.lastRead + hostSleep ≤ s.clk) then .next (s.waitHostRead c x w) else .next s
        else
          let v := memNat s.mem w.addr w.bytes
          if waitMet w.eq w.bytes v w.sv then .next (s.waitDone c x w.d v) else .next s
  | _, _ => .next s

/-- WAIT_TIMEOUT: at the deadline the word is read once more and the wait ends with it (R83), unless the region is over (R97). -/
def execWaitTimeout (c : CtxId) (s : State) : Answer :=
  let x := s.ctx c
  match x.run, x.sleep with
  | .sleep, some w =>
    if s.clk < w.deadline ∨ x.regionOver = true then .next s
    else
      match w.got with
      | some r => .next (s.waitHostTest c x w r.1 r.2)
      | none =>
        if w.host then
          if w.pending.isNone then .next (s.waitHostRead c x w) else .next s
        else .next (s.waitDone c x w.d (memNat s.mem w.addr w.bytes))
  | _, _ => .next s

/-- A sleeping wait that is satisfied or times out in the present clock ends (R83, R134). -/
def State.endWait (s : State) (c : CtxId) : State := Answer.stateOr s (execWaitTimeout c (Answer.stateOr s (execWaitWake c s)))

/-- A host-window read of a sleeping wait has completed (R61): the wait tests what it brought at its sequencer's turn. -/
def State.waitHostDone (s : State) (c : CtxId) (x : Context) (w : SleepWait) (ok : Bool) (data : List Byte) : State :=
  s.setCtx c { x with
    sleep := some { w with pending := none, got := some (ok, leNat (data.take w.bytes)), lastRead := s.clk } }

/-- A host-window read of a load has completed (R61, R151): with an error, its lease fault, and no register is written; in HALT the
fault waits for the answer to the sequencer's earlier one (R34). -/
def State.loadHostDone (s : State) (c : CtxId) (x : Context) (l : OutLoad) (ok : Bool) (data : List Byte) : State :=
  let y := { x with loads := x.loads.filter fun m => m.num != l.num }
  let f := s.lateOf (l.pc.zeroExtend 64) (memFault 0x0102 l.addr l.det0)
  if ok then s.setCtx c (y.setReg l.d (accExt l.ty (leNat (data.take (accBytes l.ty)))))
  else if x.run = .halt then s.setCtx c { y with seqLate := y.seqLate ++ [f] }
  else (s.setCtx c y).raiseAt c 0 0 f

/-! ## Interrupts (R100, R102, R134) -/

/-- Interrupts can be taken at this boundary: the context runs or sleeps, GIE = 1 and INH = 0 (R94, R100), no region-length fault comes
first (R97), and no pre-emption request of this clock will discard the work item (R99). -/
def Context.mayInterrupt (x : Context) : Bool :=
  (x.run == .run || x.run == .sleep) && x.ie.getLsbD 0 && !x.inh && !x.regionOver && (x.preq.isNone || x.cmt)

/-- The timer interrupt is due (R100). -/
def State.timerDue (s : State) (x : Context) : Bool := x.mayInterrupt && x.ie.getLsbD 1 && s.timerPending x
/-- The feedback interrupt is due; the timer goes first (R100). -/
def State.feedbackDue (s : State) (x : Context) : Bool :=
  x.mayInterrupt && x.ie.getLsbD 2 && x.fbPending && !s.timerDue x

/-- TIMER_INTERRUPT (R100, R102); a sleeping wait that ends in this clock completes first (R134). -/
def execTimerInterrupt (c : CtxId) (s : State) : Answer :=
  let s := s.endWait c
  let x := s.ctx c
  if s.timerDue x then .next (s.trapEnter c true 2 s.now x.pc) else .next s

/-- FEEDBACK_INTERRUPT (R100, R102); a sleeping wait that ends in this clock completes first (R134). -/
def execFeedbackInterrupt (c : CtxId) (s : State) : Answer :=
  let s := s.endWait c
  let x := s.ctx c
  if s.feedbackDue x then .next (s.trapEnter c true 3 (BitVec.ofNat 64 x.fb.length) x.pc) else .next s

/-! ## Region length and pre-emption (R94, R97 to R99) -/

/-- REGION_LENGTH_FAULT: before its next instruction (R97, R103). -/
def execRegionLengthFault (c : CtxId) (s : State) : Answer :=
  let x := s.ctx c
  if x.regionOver then
    .next (s.seqFault c ⟨0x0206, 0, 0, x.ccyc.zeroExtend 64, BitVec.ofNat 64 (match x.job with
      | some j => j.regmax
      | none => 0)⟩)
  else .next s

/-- A work item that a pre-emption request reaches (R94). -/
def Context.preemptible (x : Context) : Bool := x.issuing || x.run == .halt || (x.run == .done && !x.failed)

/-- The sequencer of a context has had its turn in this clock. -/
def State.sqActed (s : State) (c : CtxId) : Bool := s.acted.any fun a => a.1 == .sq c

/-- A foreground dispatch asked for this background, and its `done` issued in the clock of the request (R370). -/
def State.doneFirst (s : State) (c : CtxId) (x : Context) : Bool :=
  c.bg && (s.ctx (ctxOf (c.val - 1))).await && (x.noteAt s.clk).done

/-- PREEMPTION_REQUEST: a request falls in the present clock, or in the next once the sequencer has had its turn; what comes of it
the end of that clock says (R94, R99). In the clock of the item's `done` a foreground dispatch requests nothing (R370). -/
def execPreemptionRequest (c : CtxId) (s : State) : Answer :=
  let x := s.ctx c
  if x.preemptible && x.preq.isNone && !s.doneFirst c x then
    .next (s.setCtx c { x with preq := some (if s.sqActed c then s.clk + 1 else s.clk) })
  else .next s

/-- At the end of its clock, a request discards the work item while CMT = 0 and else sets PEND: after the instruction that this clock
issues, or the fault it raises (R94, R99); in HALT it is held in PEND; with the item's `done` in that clock there is none
(R370). -/
def State.preempt (s : State) (c : CtxId) : State :=
  let x := s.ctx c
  let y := { x with preq := none }
  match x.preq with
  | none => s
  | some k =>
    if s.clk < k then s
    else if !x.preemptible || s.doneFirst c x then s.setCtx c y
    else if x.run = .halt ∨ x.cmt = true then s.setCtx c { y with pend := true }
    else s.discardItem c

/-- The requests of the clock take effect (R99). -/
def State.preemptAll (s : State) : State :=
  (s.ctxs.filter fun p => p.2.preq.isSome).foldl (fun s p => s.preempt (ctxOf p.1)) s

end Sys2Proof.Machine
end

