-- ==== Sys2Proof/Machine/CopyBind.lean ====
section
/-! DEFINITION. Stream bindings: `bind` and `unbind`, and the entries a binding appends or takes (R245 to R249). -/

namespace Sys2Proof.Machine

/-! ## Operator chains (R246) -/

/-- The formats of a chain's start and of its conversions (R245, R246). -/
def chainFmt (c : Nat) : Bool := fmtIsFloat c || fmtIsNat c || (decide (8 ≤ c) && decide (c ≤ 10))

/-- The stages of OPS, with the chain's final format; none where a stage is not accepted (R246). -/
def chainOf : Nat → Nat → Nat → Option (List (Nat × Nat) × Nat)
  | 0, _, cur => some ([], cur)
  | n + 1, ops, cur =>
    let code := ops / 32 % 8
    let k := ops % 32
    let rest := ops / 256
    if code = 0 then if ops = 0 then some ([], cur) else none
    else if code = 1 then
      if chainFmt k then (chainOf n rest k).map fun r => ((1, k) :: r.1, r.2) else none
    else if code = 2 then
      if fmtIsFloat cur then (chainOf n rest cur).map fun r => ((2, k) :: r.1, r.2) else none
    else if code = 3 ∧ k = 0 then (chainOf n rest cur).map fun r => ((3, 0) :: r.1, r.2)
    else none

/-- Stage 3: a negative value or −0 becomes +0, a NaN the canonical one (R246). -/
def clampZero (c bits : Nat) : Nat × FlagSet :=
  if fmtIsFloat c then
    let v := (fmtFloat c).dec bits
    if v.isNaN then ((fmtFloat c).qnan, flagIf v.isSNaN flNV) else (if v.sign then 0 else bits, 0)
  else if fmtIsInt c then (if sextN (fmtBits c) bits < 0 then 0 else bits, 0)
  else (bits, 0)

/-- One element through the stages of a chain: its bits and its flags (R246). -/
def runChain : List (Nat × Nat) → Nat → Nat → Nat × FlagSet
  | [], _, bits => (bits, 0)
  | (code, k) :: r, cur, bits =>
    let h : Nat × Nat × FlagSet :=
      if code = 1 then let v := convertVal cur k bits; (k, v.1, v.2)
      else if code = 2 then
        let v := (fmtFloat cur).enc (((fmtFloat cur).dec bits).scale (sextN 5 k))
        (cur, v.1, v.2)
      else let v := clampZero cur bits; (cur, v.1, v.2)
    let t := runChain r h.1 h.2.1
    (t.1, h.2.2 ||| t.2)

/-- The chain of a bind; RAW has none and passes bytes (R245). -/
def bindChain (f : BindForm) : Option (List (Nat × Nat) × Nat) :=
  if f.raw then some ([], 0) else if chainFmt f.efmt.toNat then chainOf 4 f.ops.toNat f.efmt.toNat else none

/-- Bytes of an element on the memory side and on the port side (R246). -/
def bindSizes (f : BindForm) (fin : Nat) : Nat × Nat :=
  if f.raw then (1, 1)
  else if f.out then (fmtBytes fin, fmtBytes f.efmt.toNat)
  else (fmtBytes f.efmt.toNat, fmtBytes fin)

/-- Reason 4: a chain that breaks a rule of R246. -/
def bindReason (f : BindForm) : Option Nat :=
  match bindChain f with
  | none => some 4
  | some r =>
    let z := bindSizes f r.2
    if !f.raw && z.2 != 2 && z.2 != 4 then some 4 else none

/-- The pattern mismatch of a bind: a RUN that is no multiple of the memory element size (R246, R259, log entry 22), with its element
count on both sides. -/
def bindMismatch (f : BindForm) (p : PatSlot) : Bool × Nat × W64 :=
  match bindChain f with
  | none => (false, 0x0402, 0)
  | some r =>
    let z := (bindSizes f r.2).1
    (p.run % z != 0, 0x0402, mismatchDet (p.len / z) (p.len / z))

/-! ## `bind` and `unbind` -/

/-- A binding's port, as it is bound: entries of an ended binding are discarded (R245). -/
def boundPort (f : BindForm) : Port := ⟨some f.out, true, [], 0, f.depthM1.toNat + 1, 256 * f.buf.toNat⟩

/-- The alignment of a binding's memory side: the element size where its chain converts, else none (R2, R246). -/
def bindAlign (f : BindForm) : Nat :=
  match bindChain f with
  | some r => if r.1.any fun o => o.1 == 1 then (bindSizes f r.2).1 else 1
  | none => 1

/-- `bind` (R245): its port must have no active binding, and fewer than 8 bindings be active (R233). -/
def execBind (f : BindForm) (s : State) : Answer :=
  let p := (s.ctx s.focus).pat f.pat
  let a : Int := f.addr.toNat
  let buf := 256 * f.buf.toNat
  let n := 256 * (f.depthM1.toNat + 1)
  let pool := if f.out then f.t.dpool else f.t.spool
  let r := p.bound a
  s.cpOp
    (fun x _ => ⟨f.t, pool && decide (2 ^ 20 ≤ f.addr.toNat), bindReason f,
      [bindMismatch f p, (!x.bufferOk buf n, 0x0403, BitVec.ofNat 64 (buf % 2 ^ 20))],
      itemsOf pool f.out (bindAlign f) true (p.runs a) ++ tailItems f.t, [⟨pool, r.1, r.2, f.out, 1, true⟩],
      !(x.port f.port.toNat).bound && decide (x.cp.binds.length < 8)⟩)
    fun c e s =>
      let old := ((s.ctx c).port f.port.toNat).range
      (s.freePool c old).modCtx c fun x =>
        let x := { x with cp := { x.cp with binds := x.cp.binds ++ [({ num := e.num, f := f, pat := p, pos := 0 } : Binding)] } }
        let dst : List (Nat × Nat) := if f.out then (p.runs a).map fun r => (r.1.toNat, r.2) else []
        (x.newRun e f.t .stream [] dst).setPort f.port.toNat (boundPort f)

/-- The active binding of a port. -/
def Context.binding (x : Context) (port : BitVec 4) : Option Binding := x.cp.binds.find? fun b => b.f.port == port

/-- A binding ends (R248): its port keeps its direction and the entries not yet taken (R157). -/
def State.endBinding (s : State) (c : CtxId) (b : Binding) : State :=
  let n := b.f.port.toNat
  let s := s.setPort c n { (s.ctx c).port n with bound := false }
  s.modCtx c fun x =>
    let x := { x with cp := { x.cp with binds := x.cp.binds.filter fun u => u.num != b.num } }
    (x.markMoved b.num).cpSum b.num

/-- `unbind`: ends the binding of its port; with none it has no effect (R248). -/
def execUnbind (port : BitVec 4) (t : CpTail) (s : State) : Answer :=
  s.cpOp (fun _ _ => ⟨t, false, none, [], tailItems t, tailItems t, true⟩) fun c e s =>
    let s := match (s.ctx c).binding port with
      | some b => s.endBinding c b
      | none => s
    s.modCtx c fun x => (x.newRun e t .mark [] []).markMoved e.num

/-! ## Entries (R247) -/

/-- A binding that goes on: its command is stopped by no fault. -/
def Context.bindRun (x : Context) (b : Binding) : Option CpRun :=
  match x.cpRun b.num with
  | some r => if r.faulted || r.late.isSome then none else some r
  | none => none

/-- The runs of a binding's memory side. -/
def Binding.runs (b : Binding) : List (Nat × Nat) := (b.pat.runs b.f.addr.toNat).map fun r => (r.1.toNat, r.2)

/-- How many memory bytes the next entry of an input binding takes (R247). -/
def Binding.take (b : Binding) (z : Nat × Nat) : Nat := Nat.min (256 / z.2 * z.1) (b.pat.len - b.pos)

/-- An entry appended from memory bytes (R247). -/
def Binding.entry (b : Binding) (ch : List (Nat × Nat) × Nat) (clk : Nat) (bs : List Byte) : PortEntry × FlagSet × Nat :=
  let z := bindSizes b.f ch.2
  let r := if b.f.raw then [] else (numsOf z.1 bs).map (runChain ch.1 b.f.efmt.toNat)
  let d := if b.f.raw then bs else r.flatMap fun v => leBytes z.2 v.1
  let n := cdiv d.length 4
  (⟨d ++ List.replicate (4 * n - d.length) 0, n, clk⟩, flagUnion (r.map Prod.snd),
    (r.filter fun v => v.2 &&& flSA != 0).length)

/-- BINDING_ENTRY_APPEND: an input binding reads the next bytes of its pattern and appends their entry whole, keeping at most
DEPTH entries (R247); with the last it ends (R248). -/
def execBindingEntryAppend (c : CtxId) (port : BitVec 4) (s : State) : Answer :=
  let x := s.ctx c
  match x.binding port with
  | none => .next s
  | some b =>
    let p := x.port port.toNat
    match x.bindRun b, bindChain b.f with
    | some r, some ch =>
      if b.f.out || decide (p.depth ≤ p.entries.length) then .next s
      else
        let k := b.take (bindSizes b.f ch.2)
        let l := cutRuns b.runs b.pos k
        if !r.asked && !b.f.t.spool && l.any fun u => isRemote u.1 then
          .next (match s.downFault false l with
            | some e => s.cpStop c b.num e
            | none => s.askRuns c b.num l)
        else if !(r.host.isEmpty && r.peer.isEmpty) then .next s
        else
          let d := s.cpRead c r b.f.t.spool l
          let e := b.entry ch s.clk d.1
          let s := d.2.modCtx c fun x =>
            let x := x.setPort port.toNat { p with entries := p.entries ++ [e.1] }
            let x := { x with cp := { x.cp with
              binds := x.cp.binds.map fun (u : Binding) => if u.num == b.num then { u with pos := b.pos + k } else u } }
            x.modRun b.num fun r =>
              { r with
                asked := false, got := [], sums := r.sums ++ [(b.pos, k, some (pieceSum r.t.ckm b.pos d.1))],
                flags := r.flags ||| e.2.1, satn := r.satn + e.2.2 }
          .next (if b.pat.len ≤ b.pos + k then s.endBinding c { b with pos := b.pos + k } else s)
    | _, _ => .next s

/-- The memory bytes of an entry that an output binding takes, with their flags and saturations: of the last entry no more elements than
the pattern still takes; lanes beyond are discarded (R247, R248). -/
def Binding.bytes (b : Binding) (ch : List (Nat × Nat) × Nat) (e : PortEntry) : List Byte × FlagSet × Nat :=
  let z := bindSizes b.f ch.2
  let d := e.data.take (4 * e.count)
  if b.f.raw then (d, 0, 0)
  else
    let r := ((numsOf z.2 d).take ((b.pat.len - b.pos) / z.1)).map (runChain ch.1 b.f.efmt.toNat)
    (r.flatMap fun v => leBytes z.1 v.1, flagUnion (r.map Prod.snd), (r.filter fun v => v.2 &&& flSA != 0).length)

/-- BINDING_ENTRY_DRAIN: an output binding takes the head entry and writes its elements to the next bytes of its pattern (R247);
when the pattern's bytes are written it ends, and the rest of the entry is discarded (R248). -/
def execBindingEntryDrain (c : CtxId) (port : BitVec 4) (s : State) : Answer :=
  let x := s.ctx c
  match x.binding port with
  | none => .next s
  | some b =>
    let p := x.port port.toNat
    match x.bindRun b, bindChain b.f, p.visible s.clk with
    | some r, some ch, e :: _ =>
      if !b.f.out then .next s
      else
        let d := b.bytes ch e
        let k := Nat.min d.1.length (b.pat.len - b.pos)
        let l := cutRuns b.runs b.pos k
        match if b.f.t.dpool then none else s.downFault true l with
        | some e => .next (s.cpStop c b.num e)
        | none =>
        let s := s.modCtx c fun x => x.setPort port.toNat { p with entries := p.entries.tail }
        let w := s.cpWrite c r b.f.t.dpool b.pos l (d.1.take k)
        let s := w.1.modCtx c fun x =>
          let x := { x with cp := { x.cp with
            binds := x.cp.binds.map fun (u : Binding) => if u.num == b.num then { u with pos := b.pos + k } else u } }
          x.modRun b.num fun r =>
            { r with sums := r.sums ++ w.2, flags := r.flags ||| d.2.1, satn := r.satn + d.2.2, wclk := s.clk }
        .next (if b.pat.len ≤ b.pos + k then s.endBinding c { b with pos := b.pos + k } else s)
    | _, _, _ => .next s

/-- BINDING_END: a binding whose pattern is done ends (R248). -/
def execBindingEnd (c : CtxId) (port : BitVec 4) (s : State) : Answer :=
  match (s.ctx c).binding port with
  | some b => .next (if b.pat.len ≤ b.pos then s.endBinding c b else s)
  | none => .next s

/-! ## Answers of the peer and of the host (R60, R61, R238) -/

/-- The request of a command that an address lies in, its length and whether it writes; for a fault's DETAIL0: a read asked for, else a
write that awaits its acknowledgement, of the data or of the completion word (R72). -/
def CpRun.request (r : CpRun) (a : Nat) : Bool × Nat :=
  let has (q : Nat × Nat) : Bool := decide (q.1 ≤ a) && decide (a < q.1 + q.2)
  match r.peer.find? has with
  | some q => (false, q.2)
  | none =>
    match r.sums.find? fun p => p.2.2.isNone && (cutRuns r.dst p.1 p.2.1).any has with
    | some p => (true, p.2.1)
    | none => (true, 8)

/-- A command has an access outstanding through a peer window (R263). -/
def CpRun.peerWaits (r : CpRun) : Bool := !r.peer.isEmpty || !r.acked || r.cwSent

/-- PEER_REFUSAL: the peer's leases refuse an access; the command's lease fault, bytes already written stay (R60, R238). -/
def execPeerRefusal (c : CtxId) (num : W32) (addr : Addr) (s : State) : Answer :=
  match (s.ctx c).cpRun num with
  | some r =>
    if r.peerWaits && r.late.isNone && !r.faulted then
      let q := r.request addr.toNat
      .next (s.cpStop c num (memFault 0x0102 addr.toNat (memDet0 false false q.1 0 false pathCP 0 q.2)))
    else .next s
  | none => .next s

/-- A host-window read of a copy command has completed (R61): the command goes on with its data at the copy engine's turn; an error ends
it as a peer's refusal does. -/
def State.cpHostDone (s : State) (c : CtxId) (r : CpRun) (q : Nat × Nat × Nat) (ok : Bool) (data : List Byte) : State :=
  if ok then
    s.modRun c r.num fun r =>
      { r with
        host := r.host.filter fun u => u.1 != q.1,
        got := memWrite r.got q.2.1 ((data ++ List.replicate q.2.2 0).take q.2.2) }
  else if r.late.isNone && !r.faulted then
    s.cpStop c r.num (memFault 0x0102 q.2.1 (memDet0 false false false 0 false pathCP 0 q.2.2))
  else s

/-- HOST_WINDOW_READ_COMPLETION: host-window read `n` of a context returns its data or an error (R61): of a load, of a sleeping
wait, or of a copy command. -/
def execHostWindowReadCompletion (c : CtxId) (n : Nat) (ok : Bool) (data : List Byte) (s : State) : Answer :=
  let x := s.ctx c
  match x.loads.find? fun l => l.host && l.num == n with
  | some l => .next (s.loadHostDone c x l ok data)
  | none =>
    match x.sleep.filter fun w => w.pending == some n with
    | some w => .next (s.waitHostDone c x w ok data)
    | none =>
      match x.cp.runs.findSome? fun r => (r.host.find? fun q => q.1 == n).map fun q => (r, q) with
      | some (r, q) => .next (s.cpHostDone c r q ok data)
      | none => .next s

/-- PEER_WRITE_ACK: the peer acknowledges `len` bytes from logical offset `off` of a command's writes, with their sum as it wrote
them (R264); the last acknowledgement of a completion word completes its command (R239). -/
def execPeerWriteAck (c : CtxId) (num : W32) (off len : Nat) (sum : W32) (s : State) : Answer :=
  let x := s.ctx c
  match x.cpRun num with
  | none => .next s
  | some r =>
    if r.cwSent then .next (s.setCtx c (x.cpLeave r))
    else
      .next (s.setCtx c ((x.modRun num fun r =>
        { r with sums := r.sums.map fun p =>
            if p.1 == off && p.2.1 == len && p.2.2.isNone then (off, len, some sum) else p }).cpSum num))

/-! ## The copy engine's clock (R233, R249) -/

/-- The decode failure of a copy command: a reserved OP, or a nonzero field it does not use (R235, R259). -/
def cpDecodeReason (w : Nat) : Nat := if 1 ≤ w % 256 ∧ w % 256 ≤ 0x0D then 2 else 1

/-- Tries to begin a copy command. -/
def tryCopy (i : Instr) (s : State) : Answer :=
  match i with
  | .pat f => execPat f s
  | .copy f => execCopy f s
  | .copya f => execCopya f s
  | .fill f => execFill f s
  | .gather f => execGather f s
  | .scatter f => execScatter f s
  | .unpack f => execUnpack f s
  | .cbld f => execCbld f s
  | .itld f => execItld f s
  | .cmpl t => execCmpl t s
  | .ckst d t => execCkst d t s
  | .bind f => execBind f s
  | .unbind p t => execUnbind p t s
  | _ => .next s

/-- A command at the head of the copy queue cannot begin yet (R233): trying it changes nothing. -/
def State.cpWaits (s : State) (c : CtxId) (i : Instr) : Bool :=
  let s := { s with focus := c }
  let t := Answer.stateOr s (tryCopy i s)
  decide (t.ctx c = s.ctx c) && decide (t.faults = s.faults)

/-- A command that is no command of R235 faults when it would begin (R233, R259): one with a reserved OP as soon as the command before
lets it; one with a reserved field set also once what its own fields ask of R233 holds. -/
def State.cpIllegal (s : State) (c : CtxId) : State :=
  let x := s.ctx c
  match x.cpHead with
  | none => s
  | some e =>
    if x.cp.halted || !x.cpFree || (match candCp e.w.toNat with
      | some i => s.cpWaits c i
      | none => false) then s
    else s.cpRaise c e.num (cpFault 0x0401 0 0 (e.w.setWidth 64) (BitVec.ofNat 64 (cpDecodeReason e.w.toNat)))

/-- The copy engine of the context in focus, before it begins a command: a fault held back is reported, bindings take or append
an entry each, and begun commands go on (R249, R260). -/
def State.cpWork (s : State) (c : CtxId) : State :=
  let s := s.cpLate c
  let s := (s.ctx c).cp.binds.foldl (fun s b =>
    Answer.stateOr s (if b.f.out then execBindingEntryDrain c b.f.port s else execBindingEntryAppend c b.f.port s)) s
  (s.ctx c).cp.runs.foldl (fun s r => if r.kind == .stream then s else s.cpAdvance c r.num) s

/-- Commands that can complete do (R233, R239). -/
def State.cpComplete (s : State) (c : CtxId) : State :=
  (s.ctx c).cp.runs.foldl (fun s r => Answer.stateOr s (execCpCommandComplete c r.num s)) s

end Sys2Proof.Machine
end

