-- ==== Sys2Proof/Machine/DevOps.lean ====
section
/-! DEFINITION. Interrupts to the host and the device summary (R384 to R386), and the reserved-write count (R5). -/

namespace Sys2Proof.Machine

/-! ## MSI-X (R384, R385) -/

/-- The data and control dword of an MSI-X entry; a control word never written has its mask bit set (log entry 23). -/
def State.msixCtl (s : State) (v : Nat) : W64 := tabGet 0x100000000 s.msix (2 * v + 1)

/-- Raises MSI-X vector `v`: sent, or left pending while masked (R384, R385). -/
def State.sendMsix (s : State) (v : Nat) : State :=
  if s.msixMask || (s.msixCtl v).getLsbD 32 then
    if s.msixPend.contains v then s else { s with msixPend := s.msixPend ++ [v] }
  else s.send (.msix v)

/-! ## The summary block (R386) -/

/-- Bits of SINT. -/
abbrev sintXOVF : Nat := 0
abbrev sintFROZEN : Nat := 1
abbrev sintLINK : Nat := 2
abbrev sintRETIRE : Nat := 3
abbrev sintTHERM : Nat := 4
abbrev sintAGE : Nat := 5
abbrev sintSELFT : Nat := 6
abbrev sintHREF : Nat := 7

/-- Sets a SINT bit, and notes its event in this clock; a change from 0 to 1 with its EN bit set raises vector SVEC once (R386). -/
def State.raiseSint (s : State) (k : Nat) : State :=
  let s' := { s with sint := s.sint ||| (1 <<< k), sintNow := s.sintNow ||| (1 <<< k) }
  if !s.sint.getLsbD k && s.sien.getLsbD k then s'.sendMsix s.svec.toNat else s'

/-- The vectors that wait for this clock are raised (R373). -/
def State.raiseDue (s : State) : State := s.msixDue.foldl State.sendMsix { s with msixDue := [], sintNow := 0 }

/-- Counts a reserved write (R5). -/
def State.countRsvw (s : State) (bad : Bool) : State := if bad then { s with rsvw := satInc s.rsvw } else s

/-- Bits of a written value that a mask of writable and read-only fields calls reserved (R5). -/
def reservedSet (val : W64) (fields : W64) : Bool := val &&& ~~~fields != 0

end Sys2Proof.Machine
end

