-- ==== Sys2Proof/Machine/Link.lean ====
section
/-! DEFINITION. The Thrumol ports: flits, resends, the peer's accesses and error injection (R60, R262 to R266). -/

namespace Sys2Proof.Machine

/-! ## Receiving (R262, R265) -/

/-- The injection register's effect on a payload flit received in clock `clk`: after FLIT flits, bit BIT of the next is flipped, once
(R265). A flit sent again is neither counted nor flipped. -/
def Link.inject (l : Link) (clk : Nat) (again : Bool) (w : BitVec 256) : Link × BitVec 256 :=
  if !l.arm || decide (clk ≤ l.armClk) || again then (l, w)
  else if l.passed < l.flit.toNat then ({ l with passed := l.passed + 1 }, w)
  else ({ l with arm := false, passed := 0, inj := satInc l.inj }, w ^^^ (1#256 <<< l.bit.toNat))

/-- The 32 bytes of a payload flit. -/
def flitBytes (w : BitVec 256) : List Byte := leBytes 32 w.toNat

/-- What is left of the requested ranges after the 32 bytes at `a` have come: of the first range they touch (R262). -/
def subFlit (a : Nat) : List (Nat × Nat) → List (Nat × Nat)
  | [] => []
  | (b, n) :: r =>
    if b < a + 32 ∧ a < b + n then
      (if b < a then [(b, a - b)] else []) ++ (if a + 32 < b + n then [(a + 32, b + n - (a + 32))] else []) ++ r
    else (b, n) :: subFlit a r

/-- Read data at local window address `a` reach their command, which goes on with them at the copy engine's turn (R60, R262). -/
def State.readFlit (s : State) (c : CtxId) (num : W32) (a : Nat) (w : BitVec 256) : State :=
  match (s.ctx c).cpRun num with
  | none => s
  | some r =>
    if r.peer.any fun q => decide (q.1 < a + 32) && decide (a < q.1 + q.2) then
      s.modRun c num fun r => { r with peer := subFlit a r.peer, got := memWrite r.got a (flitBytes w) }
    else s

/-- A fuse-record flit joins its broadcast; with the last of 32 the broadcast is complete (R349). -/
def Link.fuseFlit (l : Link) (clk rule : Nat) (last : Bool) (w : BitVec 256) : Link :=
  let f := (if l.fuseRule = rule then l.fuse else []) ++ [w]
  if last then
    { l with
      fuse := [], fuseRule := rule,
      rxReady := if f.length = 32 then l.rxReady ++ [(rule, f.flatMap flitBytes, clk)] else l.rxReady }
  else { l with fuse := f, fuseRule := rule }

/-- Flits of these numbers are acknowledged: their resends are forgotten, and a broadcast with none left is acknowledged whole (R263,
R349). -/
def Link.acked (l : Link) (acks : List Nat) : Link :=
  { l with
    resends := l.resends.filter fun r => !acks.contains r.1,
    bcast := (l.bcast.map fun b => b.filter fun n => !acks.contains n).filter fun b => !b.isEmpty }

/-- FLIT_RECEIVE: a flit arrives on a trained port (R262). One that fails its CRC is counted and dropped (R263). A payload
flit may be flipped after its check (R265). -/
def execFlitReceive (p : LinkId) (f : Flit) (s : State) : Answer :=
  let l := s.link p.val
  if !l.up then .next s
  else if !f.crcOk then .next (s.setLink p.val { l with crce := satInc l.crce })
  else
    let base := if p.val = 0 then 0x100000000000 else 0x120000000000
    match f.kind with
    | .control acks => .next (s.setLink p.val (l.acked acks))
    | .readData c num a =>
      let i := l.inject s.clk f.again f.payload
      .next ((s.setLink p.val i.1).readFlit c num (base + a.toNat) i.2)
    | .lkWrite a =>
      let i := l.inject s.clk f.again f.payload
      .next (s.setLink p.val { i.1 with rx := i.1.rx ++ [(a.toNat, i.2)] })
    | .fuseRecord rule last =>
      let i := l.inject s.clk f.again f.payload
      .next (s.setLink p.val (i.1.fuseFlit s.clk rule.val last i.2))

/-! ## Resends and link down (R263) -/

/-- The lowest byte in logical order that a command, an output binding that has ended included, has outstanding through port `p`
(R259, R263). -/
def CpRun.firstOut (r : CpRun) (p : Nat) : Option Nat :=
  let on (a : Nat) : Bool := (peerOf a).any fun q => q.1 == p
  match r.peer.find? fun q => on q.1 with
  | some q => some q.1
  | none =>
    match (r.sums.filter fun u => u.2.2.isNone).findSome? fun u =>
        ((cutRuns r.dst u.1 1).head?.map Prod.fst).filter on with
    | some a => some a
    | none => if r.cwSent && on r.t.caddr.toNat then some r.t.caddr.toNat else none

/-- A port going down stops the commands of a context that have an access outstanding through it (R263); local bytes that such a
command was to write are undefined. -/
def State.linkDownCtx (s : State) (p : Nat) (c : CtxId) : State :=
  let s' := (s.ctx c).cp.runs.foldl (fun s r =>
    match r.firstOut p with
    | some a =>
      if r.late.isSome || r.faulted then s
      else
        let s := if r.peer.isEmpty || r.kind == .stream then s else s.freeRuns c r.t.dpool r.dst
        s.modRun c r.num fun r =>
          { r with
            peer := [],
            late := some (s.lateOf (cpWhere r.num) (cpFault 0x0406 1 (BitVec.ofNat 64 a) r.w0 (BitVec.ofNat 64 p))) }
    | none => s) s
  s'.cpLate c

/-- The contexts that hold anything. -/
def State.liveCtxs (s : State) : List CtxId := s.ctxs.map fun q => ctxOf q.1

/-- A port goes down (R263, R349, R386). -/
def State.linkDown (s : State) (p : Nat) : State :=
  let l := s.link p
  let s := s.setLink p { l with up := false, down := true, resends := [], rx := [], fuse := [], bcast := [] }
  let s := { s with bfail := satAdd s.bfail l.bcast.length }
  (s.liveCtxs.foldl (fun s c => s.linkDownCtx p c) s).raiseSint sintLINK

/-- FLIT_RESEND: a flit, which failed or was not acknowledged, is sent again, up to 16 times; failing once more it takes the link
down (R263). -/
def execFlitResend (p : FlitRef) (s : State) : Answer :=
  let l := s.link p.port.val
  let k := tabGet 0 l.resends p.no
  if !l.up then .next s
  else if 16 ≤ k then .next (s.linkDown p.port.val)
  else
    .next ((s.setLink p.port.val { l with resends := tabSet l.resends p.no (k + 1), retry := satInc l.retry }).send (.resend p.port.val))

/-- THRUMOL_PORT_TRAINED: firmware trains a port; it is up with all 8 lanes (R263, R266). -/
def execThrumolPortTrained (p : LinkId) (lanes : BitVec 4) (s : State) : Answer :=
  let l := s.link p.val
  .next (s.setLink p.val { l with lanes := lanes, up := lanes == 8, resends := [] })

/-! ## The peer's accesses (R60, R69, R79) -/

/-- The first flit received that holds byte `a` of a peer's write, with its place in it. -/
def Link.flitAt (l : Link) (a : Nat) : Option (Nat × BitVec 256) := l.rx.find? fun f => decide (f.1 ≤ a) && decide (a < f.1 + 32)

/-- Both flits of every 64-byte block that a peer's write touches have passed their CRC (R262). -/
def Link.blocksIn (l : Link) (a n : Nat) : Bool :=
  (List.range (2 * ((a + n - 1) / 64 + 1 - a / 64))).all fun k => (l.flitAt (64 * (a / 64) + 32 * k)).isSome

/-- The bytes of a peer's write as its flits brought them (R265). -/
def Link.written (l : Link) (a n : Nat) : List Byte :=
  (List.range n).map fun i =>
    match l.flitAt (a + i) with
    | some f => BitVec.ofNat 8 (f.2.toNat / 256 ^ (a + i - f.1))
    | none => 0

/-- The port without the flits of the blocks that a write has taken. -/
def Link.taken (l : Link) (a n : Nat) : Link :=
  { l with rx := l.rx.filter fun f => decide (f.1 / 64 < a / 64) || decide ((a + n - 1) / 64 < f.1 / 64) }

/-- LK_PEER_ACCESS: an access of the peer to this device's DRAM or granary, under the lease that firmware gives it (R60): a
refusal goes back; a write is made once both flits of each of its blocks are in (R262), and acknowledged with its sums (R264). -/
def execLkPeerAccess (p : LinkId) (a : PeerAccess) (s : State) : Answer :=
  let l := s.link p.val
  let ea := a.addr.toNat
  let ok := a.granted && rangeInDevice ea a.len && (!a.write || (roFault s.ro ea a.len).isNone)
  if !l.up || (a.write && !l.blocksIn ea a.len) then .next s
  else if a.write then
    let d := l.written ea a.len
    let s := s.setLink p.val (l.taken ea a.len)
    .next (if ok then (s.store ea d).send (.peerAck p.val true (pieceSum 1 0 d) (pieceSum 2 0 d)) else s.send (.peerAck p.val false 0 0))
  else .next (s.send (.peerReply p.val ok (if ok then memRead s.mem ea a.len else [])))

/-! ## Error injection (R265, R266) -/

/-- LKINJ_WRITE: a write of LKINJ replaces the armed values and restarts the count from the next clock (R265, R266). In recovery
the block does not respond (R389). -/
def execLkinjWrite (p : LinkId) (val : W32) (s : State) : Answer :=
  let l := s.link p.val
  if s.phaseDev = 3 then .next s
  else .next ((s.countRsvw (decide (2 ^ 17 ≤ val.toNat))).setLink p.val
    { l with
      arm := val.getLsbD 16, flit := val.extractLsb' 8 8, bit := val.extractLsb' 0 8, passed := 0, armClk := s.clk })

end Sys2Proof.Machine
end

