-- ==== Sys2Proof/Machine/Sm.lean ====
section
/-! DEFINITION. The schemes R387 names: the digest SM3 of GB/T 32905 and the signature SM2 of GB/T 32918 over its recommended 256-bit
curve, with the distinguishing identifier of R387. The spec gives only their names: the algorithms are those of the two standards (log
entry 8). -/

namespace Sys2Proof.Machine

/-! ## SM3 -/

/-- A number as `n` bytes, the most significant first (R387). -/
def beBytes (n v : Nat) : List Byte := (List.range n).map fun i => BitVec.ofNat 8 (v / 256 ^ (n - 1 - i))
/-- The number of a byte string, the most significant first (R387). -/
def beNat (l : List Byte) : Nat := l.foldl (fun a b => 256 * a + b.toNat) 0

/-- The permutation P0. -/
def sm3P0 (x : W32) : W32 := x ^^^ x.rotateLeft 9 ^^^ x.rotateLeft 17
/-- The permutation P1. -/
def sm3P1 (x : W32) : W32 := x ^^^ x.rotateLeft 15 ^^^ x.rotateLeft 23

/-- The initial value. -/
def sm3Iv : List W32 :=
  [0x7380166F, 0x4914B2B9, 0x172442D7, 0xDA8A0600, 0xA96F30BC, 0x163138AA, 0xE38DEE4D, 0xB0FB0E4E]

/-- The padded message: a bit 1, zeros up to 56 bytes of a 64-byte block, and its length in bits. -/
def sm3Pad (m : List Byte) : List Byte :=
  m ++ 0x80 :: List.replicate ((119 - m.length % 64) % 64) 0 ++ beBytes 8 (8 * m.length)

/-- The words W0 to W67 of a block, the latest first. -/
def sm3Expand (block : List Byte) : List W32 :=
  let w0 := ((List.range 16).map fun i => BitVec.ofNat 32 (beNat ((block.drop (4 * i)).take 4))).reverse
  (List.range 52).foldl (fun w _ =>
    let g (i : Nat) : W32 := w.getD (i - 1) 0
    (sm3P1 (g 16 ^^^ g 9 ^^^ (g 3).rotateLeft 15) ^^^ (g 13).rotateLeft 7 ^^^ g 6) :: w) w0

/-- Step `j` of the compression function on the registers A to H. -/
def sm3Step (w : List W32) (v : List W32) (j : Nat) : List W32 :=
  match v with
  | [a, b, c, d, e, f, g, h] =>
    let low := decide (j < 16)
    let t : W32 := if low then 0x79CC4519 else 0x7A879D8A
    let ss1 := (a.rotateLeft 12 + e + t.rotateLeft (j % 32)).rotateLeft 7
    let ss2 := ss1 ^^^ a.rotateLeft 12
    let ff := if low then a ^^^ b ^^^ c else a &&& b ||| a &&& c ||| b &&& c
    let gg := if low then e ^^^ f ^^^ g else e &&& f ||| ~~~e &&& g
    let wj := w.getD j 0
    let tt1 := ff + d + ss2 + (wj ^^^ w.getD (j + 4) 0)
    let tt2 := gg + h + ss1 + wj
    [tt1, a, b.rotateLeft 9, c, sm3P0 tt2, e, f.rotateLeft 19, g]
  | _ => v

/-- The compression of one block. -/
def sm3Block (v : List W32) (block : List Byte) : List W32 :=
  List.zipWith (· ^^^ ·) ((List.range 64).foldl (sm3Step (sm3Expand block).reverse) v) v

/-- The SM3 digest of a byte string, 32 bytes. -/
def sm3 (m : List Byte) : List Byte :=
  let p := sm3Pad m
  ((List.range (p.length / 64)).foldl (fun v i => sm3Block v ((p.drop (64 * i)).take 64)) sm3Iv).flatMap fun w => beBytes 4 w.toNat

/-! ## The curve of SM2 -/

/-- The prime of the field. -/
def sm2P : Nat := 0xFFFFFFFEFFFFFFFFFFFFFFFFFFFFFFFFFFFFFFFF00000000FFFFFFFFFFFFFFFF
/-- The coefficient a. -/
def sm2A : Nat := sm2P - 3
/-- The coefficient b. -/
def sm2B : Nat := 0x28E9FA9E9D9F5E344D5A9E4BCF6509A7F39789F515AB8F92DDBCBD414D940E93
/-- The order of the base point. -/
def sm2N : Nat := 0xFFFFFFFEFFFFFFFFFFFFFFFFFFFFFFFF7203DF6B21C6052B53BBF40939D54123
/-- The base point. -/
def sm2G : Nat × Nat :=
  (0x32C4AE2C1F1981195F9904466A39C9948FE30BBFF2660BE1715A4589334C74C7,
   0xBC3736A2F4F6779C59BDCEE36B692153D0A9877CC62A474002DF32E52139F0A0)

/-- `b ^ e` modulo `m`, over the low 256 bits of `e`. -/
def powMod (m b e : Nat) : Nat :=
  (List.range 256).foldl (fun r i => let r2 := r * r % m; if e.testBit (255 - i) then r2 * b % m else r2) 1
/-- The inverse modulo a prime. -/
def invMod (m x : Nat) : Nat := powMod m x (m - 2)
/-- `a - b` modulo `m`. -/
def subMod (m a b : Nat) : Nat := (a + (m - b % m)) % m

/-- The sum of two points; `none` is the point at infinity. -/
def ecAdd : Option (Nat × Nat) → Option (Nat × Nat) → Option (Nat × Nat)
  | none, q => q
  | p, none => p
  | some (x1, y1), some (x2, y2) =>
    if x1 = x2 ∧ (y1 + y2) % sm2P = 0 then none
    else
      let l := if x1 = x2 then (3 * x1 * x1 + sm2A) * invMod sm2P (2 * y1 % sm2P) % sm2P
        else subMod sm2P y2 y1 * invMod sm2P (subMod sm2P x2 x1) % sm2P
      let x3 := subMod sm2P (l * l) (x1 + x2)
      some (x3, subMod sm2P (l * subMod sm2P x1 x3) y1)

/-- The multiple of a point by the low 256 bits of `k`. -/
def ecMul (k : Nat) (p : Nat × Nat) : Option (Nat × Nat) :=
  (List.range 256).foldl (fun r i => let r2 := ecAdd r r; if k.testBit (255 - i) then ecAdd r2 (some p) else r2) none

/-! ## SM2 signatures -/

/-- The distinguishing identifier "SXD-192-AQ" in ASCII (R387). -/
def sm2Id : List Byte := [0x53, 0x58, 0x44, 0x2D, 0x31, 0x39, 0x32, 0x2D, 0x41, 0x51]

/-- A public key x, y on the curve, from its 64 bytes. -/
def sm2Key (key : List Byte) : Option (Nat × Nat) :=
  let x := beNat (key.take 32)
  let y := beNat (key.drop 32)
  if key.length = 64 ∧ x < sm2P ∧ y < sm2P ∧ y * y % sm2P = (x * x * x + sm2A * x + sm2B) % sm2P then some (x, y) else none

/-- The number e that a message and a signer's public key give. -/
def sm2Digest (key msg : List Byte) : Nat :=
  let z := sm3 (beBytes 2 (8 * sm2Id.length) ++ sm2Id ++ ([sm2A, sm2B, sm2G.1, sm2G.2].flatMap (beBytes 32)) ++ key)
  beNat (sm3 (z ++ msg))

/-- The signature r, s over a message verifies with a public key (R387). -/
def sm2Verify (key msg sig : List Byte) : Bool :=
  let r := beNat (sig.take 32)
  let s := beNat (sig.drop 32)
  let t := (r + s) % sm2N
  match sm2Key key with
  | none => false
  | some p =>
    sig.length == 64 && decide (1 ≤ r) && decide (r < sm2N) && decide (1 ≤ s) && decide (s < sm2N) && t != 0 &&
      (match ecAdd (ecMul s sm2G) (ecMul t p) with
      | some (x, _) => (sm2Digest key msg + x) % sm2N == r
      | none => false)

/-- The public key of a private key, 64 bytes. -/
def sm2Public (d : Nat) : List Byte :=
  match ecMul d sm2G with
  | some (x, y) => beBytes 32 x ++ beBytes 32 y
  | none => List.replicate 64 0

/-- The signature r, s of a private key over a message with the random number `k`, 64 bytes. -/
def sm2Sign (d k : Nat) (msg : List Byte) : List Byte :=
  let x := ((ecMul k sm2G).map Prod.fst).getD 0
  let r := (sm2Digest (sm2Public d) msg + x) % sm2N
  beBytes 32 r ++ beBytes 32 (invMod sm2N (1 + d) * subMod sm2N k (r * d) % sm2N)

end Sys2Proof.Machine
end

