-- ==== Sys2Proof/Machine/Image.lean ====
section
/-! DEFINITION. Apern images and lease lists: their layout and verification (R27 to R29, R68, R115, R116, R160, R387, R388). -/

namespace Sys2Proof.Machine

/-! ## The image (R115) -/

/-- A directory entry: TYPE, OFFSET and SIZE (R115). -/
structure DirEntry where
  ty : Nat
  off : Nat
  len : Nat
  deriving DecidableEq, Repr

/-- An image as its header gives it (R115). -/
structure Image where
  base : Nat
  size : Nat
  nkern : Nat
  dir : List DirEntry
  deriving DecidableEq, Repr

/-- Dword `i` after an address. -/
def memDword (m : Mem) (a i : Nat) : Nat := memNat m (a + 8 * i) 8

/-- Directory entry `i`; none where a reserved bit or its type is wrong (R27, R115). -/
def dirEntry (m : Mem) (base i : Nat) : Option DirEntry :=
  let d0 := memDword m base (8 + 2 * i)
  let d1 := memDword m base (9 + 2 * i)
  let ty := bitsOf d0 7 0
  if bitsOf d0 31 8 = 0 ∧ 1 ≤ ty ∧ ty ≤ 9 ∧ d1 % 64 = 0 ∧ d1 < 2 ^ 48 then some ⟨ty, d1, bitsOf d0 63 32⟩ else none

/-- Every element of a list of optional values, if there is none missing. -/
def allSome {α : Type} : List (Option α) → Option (List α)
  | [] => some []
  | none :: _ => none
  | some x :: r => (allSome r).map (x :: ·)

/-- Entries with no two of a type and no two overlapping (R115); a section of length 0 strictly inside another counts as overlapping
(log entry 96). -/
def dirDisjoint : List DirEntry → Bool
  | [] => true
  | e :: r => (r.all fun f => f.ty != e.ty && (decide (e.off + e.len ≤ f.off) || decide (f.off + f.len ≤ e.off))) && dirDisjoint r

/-- The image at an address, if its header and directory keep the rules of R115. It lies in DRAM or the granary (log entry 97). -/
def imageAt (m : Mem) (base : Nat) : Option Image :=
  let h := memDword m base 0
  let size := memDword m base 1
  let k := memDword m base 2
  let nsec := bitsOf h 63 48
  if bitsOf h 31 0 = 0x4E525041 ∧ bitsOf h 39 32 = 1 ∧ bitsOf h 47 40 = 0 ∧ 2 ≤ nsec ∧ nsec ≤ 9 ∧ size % 4096 = 0 ∧
      k < 2 ^ 16 ∧ 1 ≤ k ∧ (∀ i ∈ List.range 5, memDword m base (3 + i) = 0) ∧ rangeInDevice base size = true then
    match allSome ((List.range nsec).map (dirEntry m base)) with
    | none => none
    | some d =>
      if d.all (fun e => decide (e.off + e.len ≤ size)) && dirDisjoint d && d.any (fun e => e.ty == 8 && e.len == 64 * k) &&
          (match d.getLast? with
          | some e => e.ty == 9
          | none => false) then some ⟨base, size, k, d⟩
      else none
  else none

/-- The section of a type: empty at address 0 where the image has none (R115, log entry 97). -/
def Image.sec (g : Image) (ty : Nat) : Section :=
  match g.dir.find? fun e => e.ty == ty with
  | some e => ⟨g.base + e.off, e.len⟩
  | none => ⟨0, 0⟩

/-- The image has a section of a type. -/
def Image.has (g : Image) (ty : Nat) : Bool := g.dir.any fun e => e.ty == ty

/-! ## Kernel table entries (R116, R160) -/

/-- NBLK of an execute section (R160). -/
def exNblk (m : Mem) (s : Section) : Nat := memNat m s.base 4

/-- A present execute section keeps R160: its directory's reserved bits, its block sizes and their places. -/
def exSectionOk (m : Mem) (s : Section) : Bool :=
  let n := exNblk m s
  decide (8 + 8 * n ≤ s.len) && decide (1 ≤ n) && memNat m (s.base + 4) 4 == 0 &&
    (List.range n).all fun b =>
      let d := memDword m s.base (1 + b)
      let cnt := bitsOf d 42 32
      let off := bitsOf d 31 0
      bitsOf d 63 43 == 0 && decide (1 ≤ cnt) && decide (cnt ≤ 1024) && decide (off % 16 = 0) && decide (off + 16 * cnt ≤ s.len)

/-- Kernel `i` of an image with the sections it names (R116). Without a section 0x01 its entry pc is SQOFF itself, and that is WHERE and
ADDR of its fetch fault (log entry 97). -/
def Image.kernel (g : Image) (m : Mem) (i : Nat) : Kernel :=
  let a := (g.sec 8).base + 64 * i
  let d (j : Nat) : Nat := memDword m a j
  { wheel := (d 0).testBit 32, entry := (g.sec 1).base + bitsOf (d 0) 31 0, sq := g.sec 1, ex := g.sec 2, mx := g.sec 3,
    cp := g.sec 4, al := g.sec 6, exBase := bitsOf (d 1) 31 0, exN := bitsOf (d 1) 47 32, mxBase := bitsOf (d 3) 15 0,
    mxN := bitsOf (d 3) 31 16, cpBase := bitsOf (d 3) 47 32, cpN := bitsOf (d 3) 63 48, alBase := bitsOf (d 4) 15 0,
    alN := bitsOf (d 4) 31 16, vbase := bitsOf (d 2) 11 0, vn := bitsOf (d 2) 23 12, abase := bitsOf (d 2) 31 24,
    an := bitsOf (d 2) 39 32, mbase := bitsOf (d 2) 48 40, mn := bitsOf (d 2) 58 49 }

/-- Kernel entry `i` keeps R116: reserved bits zero, the entry aligned, and each range inside its section; an absent section has only
empty ranges. -/
def Image.kernelOk (g : Image) (m : Mem) (i : Nat) : Bool :=
  let a := (g.sec 8).base + 64 * i
  let d (j : Nat) : Nat := memDword m a j
  let k := g.kernel m i
  bitsOf (d 0) 63 33 == 0 && bitsOf (d 0) 1 0 == 0 && bitsOf (d 1) 63 48 == 0 && bitsOf (d 2) 63 59 == 0 &&
    bitsOf (d 4) 63 32 == 0 && d 5 == 0 && d 6 == 0 && d 7 == 0 &&
    (if g.has 2 then decide (k.exBase + k.exN ≤ exNblk m (g.sec 2)) else k.exN == 0) &&
    (if g.has 3 then decide (k.mxBase + k.mxN ≤ (g.sec 3).len / 32) else k.mxN == 0) &&
    (if g.has 4 then decide (k.cpBase + k.cpN ≤ (g.sec 4).len / 32) else k.cpN == 0) &&
    (if g.has 6 then decide (k.alBase + k.alN ≤ (g.sec 6).len / 16) else k.alN == 0)

/-! ## Verification (R29, R387, R388) -/

/-- A public key is that of a fuse slot that is not revoked (R387). -/
def slotKey (i : Fin 4) (key : List Byte) : Bool := !(Config.fuseSlot i).2 && (Config.fuseSlot i).1 == sm3 key

/-- The digests and the signature of section 0x09 hold, with a key of slots 1 to 3 (R387, R388). -/
def Image.signed (g : Image) (m : Mem) : Bool :=
  let s := g.sec 9
  let n := g.dir.length
  let dig (i : Nat) : List Byte := memRead m (s.base + 32 * i) 32
  let key := memRead m (s.base + 32 * n) 64
  s.len == 32 * n + 128 && sm3 (memRead m g.base (0x40 + 16 * n)) == dig 0 &&
    ((List.range (n - 1)).all fun i =>
      match g.dir[i]? with
      | some e => sm3 (memRead m (g.base + e.off) e.len) == dig (i + 1)
      | none => false) &&
    (slotKey 1 key || slotKey 2 key || slotKey 3 key) &&
    sm2Verify key (memRead m s.base (32 * n)) (memRead m (s.base + 32 * n + 64) 64)

/-- Verification of an image by R29. -/
def Image.verifies (g : Image) (m : Mem) : Bool :=
  (!g.has 2 || exSectionOk m (g.sec 2)) && (List.range g.nkern).all (g.kernelOk m) && g.signed m

/-- The image a launch names, once verified; none where its verification fails (R29). -/
def State.imageOf (s : State) (base : Nat) : Option Image :=
  match imageAt s.mem base with
  | none => none
  | some g => if s.verified.contains ⟨base, g.size⟩ || g.verifies s.mem then some g else none

/-- An image is held verified and read-only (R28, R29). -/
def State.holdImage (s : State) (g : Image) : State :=
  let r : RoRange := ⟨g.base, g.size⟩
  { s with
    verified := if s.verified.contains r then s.verified else s.verified ++ [r],
    ro := if s.ro.contains r then s.ro else s.ro ++ [r] }

/-- An image range is held while a launch that names it is prepared or runs, or a stream is on under it (R29). -/
def State.imageHeld (s : State) (r : RoRange) : Bool :=
  (s.launches.any fun l => l.kernel.isSome && (l.dw.getD 2 0).toNat == r.base) ||
    s.streams.any fun p => p.2.cfg.isSome && p.2.image == some r.base

/-- Images whose lease has ended are no longer held verified, nor read-only (R28, R29). -/
def State.dropImages (s : State) : State :=
  { s with
    verified := s.verified.filter s.imageHeld, ro := s.ro.filter fun r => s.imageHeld r || !s.verified.contains r }

/-! ## Lease lists (R68) -/

/-- Lease entry `i` of a list; none where it is malformed (R68). -/
def leaseEntry (m : Mem) (a i : Nat) : Option Lease :=
  let d0 := memDword m a (2 * i)
  let d1 := memDword m a (2 * i + 1)
  let np := bitsOf d1 31 0
  if d0 < 2 ^ 48 ∧ d0 % 4096 = 0 ∧ d1 < 2 ^ 34 ∧ bitsOf d1 33 32 ≠ 0 ∧ np ≠ 0 ∧ addrFault d0 (4096 * np) = none then
    some ⟨d0, np, d1.testBit 33, d1.testBit 32⟩
  else none

/-- The lease list of a record; none where an entry is malformed (R68). The list lies in DRAM or the granary. -/
def leaseList (m : Mem) (d : Nat) : Option (List Lease) :=
  let n := bitsOf d 59 48
  let a := bitsOf d 47 0
  if n = 0 then some []
  else if rangeInDevice a (16 * n) then allSome ((List.range n).map (leaseEntry m a))
  else none

end Sys2Proof.Machine
end

