-- ==== Sys2Proof/Machine/LineOps.lean ====
section
/-! DEFINITION. Streams and their chains: which processor serves which stream, the rows a processor reads and writes (R315,
R316), its registers and output rows, and the issue of one instruction (R317). -/

namespace Sys2Proof.Machine

/-! ## Tables -/

/-- The value a table lists at an index. -/
def tabFind {α : Type} (t : Tab α) (i : Nat) : Option α :=
  match t with
  | [] => none
  | (j, v) :: r => if j = i then some v else tabFind r i

/-! ## Chains (R12, R315) -/

/-- The mill of a stream (R12). -/
def millOf (st : Nat) : Nat := st / 4

/-- A processor of the mill belongs to a configuration's chain. -/
def MillCfg.holds (m : MillCfg) (p : Nat) : Bool := decide (m.first ≤ p) && decide (p < m.first + m.kernels.length)

/-- The stream whose chain holds a processor of the device. -/
def State.chainOf (s : State) (p : Nat) : Option (Nat × MillCfg) :=
  (List.range 4).findSome? fun j =>
    match (s.stream (4 * (p / 8) + j)).cfg with
    | some m => if m.holds (p % 8) then some (4 * (p / 8) + j, m) else none
    | none => none

/-- The processor of the device at a chain position of a stream. -/
def MillCfg.procAt (m : MillCfg) (st pos : Nat) : Nat := 8 * millOf st + m.first + pos

/-- IH: input rows per frame at a chain position (R315). -/
def MillCfg.inRows (m : MillCfg) (pos : Nat) : Nat := (m.kernels.take pos).foldl (fun h k => h / k.rstep) m.height
/-- Output rows per frame at a chain position (R315). -/
def MillCfg.outRows (m : MillCfg) (pos : Nat) : Nat := m.inRows (pos + 1)
/-- ROWS: the last processor's output rows (R315). -/
def MillCfg.rows (m : MillCfg) : Nat := m.inRows m.kernels.length
/-- The kernel before a chain position; none at position 0. -/
def MillCfg.before (m : MillCfg) (pos : Nat) : Option RowKernel := if pos = 0 then none else m.kernels[pos - 1]?
/-- IW (R315). -/
def MillCfg.iw (m : MillCfg) (pos : Nat) : Nat :=
  match m.before pos with
  | some k => k.ow
  | none => m.width
/-- Input samples at a position are INT16 (R315). -/
def MillCfg.inSigned (m : MillCfg) (pos : Nat) : Bool :=
  match m.before pos with
  | some k => k.osign
  | none => false

/-- r of an output row, before clamping (R315). -/
def RowKernel.rOf (k : RowKernel) (o : Nat) : Nat := o * k.rstep + k.rstep - 1 + k.odly
/-- Window row lnj of an output row (R315). -/
def RowKernel.winRow (k : RowKernel) (ih o j : Nat) : Nat := Nat.min (k.rOf o - j) (ih - 1)
/-- The window rows a kernel names (R314). -/
def RowKernel.named (k : RowKernel) : List Nat := (List.range 8).filter k.wmask.testBit

/-- The last predecessor strip that strip `t` needs of its newest row (R316); `none` where it needs the whole row. -/
def RowKernel.needs (k : RowKernel) (pre : RowKernel) (t : Nat) : Option Nat :=
  if k.ispan = 0 then none else some (Nat.min (pre.nstrip - 1) (((t + 1) * k.ispan + k.reach - 1) / pre.ospan))

/-! ## Rows -/

/-- An input row of a stream that is present in its ring (R309). -/
def State.inRow (s : State) (st frame row : Nat) : Option InRow :=
  (s.stream st).ring.find? fun r => r.frame == frame && r.row == row && decide (r.born ≤ s.clk)

/-- An output row of a processor. -/
def Proc.outRow (p : Proc) (frame row : Nat) : Option OutRow := p.out.find? fun r => r.frame == frame && r.row == row

/-- Changes an output row. -/
def Proc.modRow (p : Proc) (frame row : Nat) (f : OutRow → OutRow) : Proc :=
  { p with out := p.out.map fun r => if r.frame == frame && r.row == row then f r else r }

/-- A row is complete: at position 0 present, later completed by the predecessor (R316). -/
def State.rowComplete (s : State) (st : Nat) (m : MillCfg) (pos frame row : Nat) : Bool :=
  if pos = 0 then (s.inRow st frame row).isSome
  else
    match (s.proc (m.procAt st (pos - 1))).outRow frame row with
    | some r => r.complete
    | none => false

/-- The status of a complete window row (R318). -/
def State.rowStatus (s : State) (st : Nat) (m : MillCfg) (pos frame row : Nat) : Option Nat :=
  if pos = 0 then (s.inRow st frame row).map (·.status)
  else
    match (s.proc (m.procAt st (pos - 1))).outRow frame row with
    | some r => if r.complete then some r.status else none
    | none => none

/-! ## Registers (R313, R319) -/

/-- Lane `i` of xN. -/
def Proc.lane (p : Proc) (r : BitVec 4) (i : Nat) : W32 := (p.x.getD r.toNat []).getD i 0
/-- Writes the 32 lanes of xN. -/
def Proc.setVec (p : Proc) (r : BitVec 4) (f : Nat → W32) : Proc := { p with x := p.x.set r.toNat ((List.range 32).map f) }
/-- kN, by the low three bits of its field. -/
def Proc.kreg (p : Proc) (r : BitVec 4) : W32 := p.k.getD (r.toNat % 8) 0
/-- Writes kN. -/
def Proc.setK (p : Proc) (r : BitVec 4) (v : W32) : Proc := { p with k := p.k.set (r.toNat % 8) v }
/-- A scalar or address operand: the immediate, plus a k register where the flag is set (R319). -/
def Proc.scalar (p : Proc) (f : BitVec 4) (imm : W32) : W32 := imm + (if f.getLsbD 3 then p.kreg f else 0)

/-! ## Issue (R316, R317) -/

/-- The strip ends: the next strip, row or frame follows (R316). -/
def Proc.endStrip (p : Proc) (k : RowKernel) (rows : Nat) : Proc :=
  let p := p.modRow p.frame p.orow fun r => { r with strips := r.strips + 1 }
  let p := { p with busy := false, ip := 0 }
  if p.strip + 1 < k.nstrip then { p with strip := p.strip + 1 }
  else if p.orow + 1 < rows then { p with strip := 0, orow := p.orow + 1 }
  else { p with strip := 0, orow := 0, frame := p.frame + 1 }

/-- The processor in focus has issued its instruction: the next one follows, or its strip ends. -/
def State.lnNext (s : State) (p : Proc) : State :=
  let n := s.lnFocus.val
  let p := { p with ip := p.ip + 1 }
  match s.chainOf n with
  | some (_, m) =>
    let pos := n % 8 - m.first
    match m.kernels[pos]? with
    | some k => s.setProc n (if p.busy && decide (k.code.length ≤ p.ip) then p.endStrip k (m.outRows pos) else p)
    | none => s.setProc n p
  | none => s.setProc n p

/-- The effect of an instruction on the processor in focus. -/
def State.lnDo (s : State) (f : Proc → Proc) : Answer := .next (s.lnNext (f (s.proc s.lnFocus.val)))

/-- A lane operation of form D, A, B with the scalar of R319 where S = 1 (R321). -/
def State.lnBin (s : State) (f : LnForm) (op : W32 → W32 → W32) : Answer :=
  s.lnDo fun p => p.setVec f.d fun i => op (p.lane f.a i) (if f.f.getLsbD 0 then p.scalar f.b f.imm else p.lane f.b i)

/-- A lane operation on xa (R322). -/
def State.lnUn (s : State) (f : LnForm) (op : W32 → W32) : Answer :=
  s.lnDo fun p => p.setVec f.d fun i => op (p.lane f.a i)

/-- A scalar operation on ka and q (R326). -/
def State.lnScal (s : State) (f : LnForm) (op : W32 → W32 → W32) : Answer :=
  s.lnDo fun p => p.setK f.d (op (p.kreg f.a) (p.scalar f.b f.imm))

/-- A reduction of the lanes of xa (R323). -/
def State.lnRed (s : State) (f : LnForm) (op : W32 → W32 → W32) : Answer :=
  s.lnDo fun p => p.setK f.d (((List.range 31).map fun i => p.lane f.a (i + 1)).foldl op (p.lane f.a 0))

/-! ## Samples (R316, R324, R325) -/

/-- A sample of window row `j` for the strip a processor runs: none where it is not present by R316, or was not written
(R325). Of the newest row only the strips that R316 asks for are present. -/
def State.sample (s : State) (n : Nat) (p : Proc) (j i : Nat) : Option (BitVec 16) :=
  match s.chainOf n with
  | none => none
  | some (st, m) =>
    let pos := n % 8 - m.first
    match m.kernels[pos]?, m.before pos with
    | some k, none => ((s.inRow st p.frame (k.winRow m.height p.orow j)).bind fun r => r.samples[i]?)
    | some k, some pre =>
      let ih := m.inRows pos
      let row := k.winRow ih p.orow j
      match (s.proc (n - 1)).outRow p.frame row with
      | none => none
      | some r =>
        match tabFind r.samples i with
        | none => none
        | some (t, v) =>
          if row = k.winRow ih p.orow 0 ∧ k.rOf p.orow ≤ ih - 1 then
            match k.needs pre p.strip with
            | some l => if t ≤ l then some v else none
            | none => some v
          else some v
    | none, _ => none

/-- IW and the sign of the input samples of a processor; 1 and NAT16 where it belongs to no chain. -/
def State.inShape (s : State) (n : Nat) : Nat × Bool :=
  match s.chainOf n with
  | some (_, m) => (m.iw (n % 8 - m.first), m.inSigned (n % 8 - m.first))
  | none => (1, false)

/-- A sample as a lane: extended by the sign of its row (R324). -/
def laneOf (signed : Bool) (v : BitVec 16) : W32 := if signed then v.signExtend 32 else v.zeroExtend 32

/-- The index off + i·N held in 0 to `top` (R324). -/
def sampleIdx (off : W32) (i n top : Nat) : Nat := (satI (off.toInt + (i * n : Nat)) 0 top).toNat

/-- A lane saturated to NAT16 or INT16, and whether it was clamped (R325). -/
def satSample (signed : Bool) (v : W32) : BitVec 16 × Bool :=
  let lo : Int := if signed then -32768 else 0
  let hi : Int := if signed then 32767 else 65535
  (BitVec.ofInt 16 (satI v.toInt lo hi), decide (v.toInt < lo) || decide (hi < v.toInt))

/-- The samples an `lst` writes: index, value, clamped (R325). -/
def lstWrites (signed : Bool) (ow : Nat) (off : W32) (n : Nat) (v : Nat → W32) : List (Nat × BitVec 16 × Bool) :=
  (List.range 32).filterMap fun i =>
    let a : Int := off.toInt + (i * n : Nat)
    if 0 ≤ a ∧ a < ow then some (a.toNat, satSample signed (v i)) else none

end Sys2Proof.Machine
end

