-- ==== Sys2Proof/Machine/Ingress.lean ====
section
/-! DEFINITION. Sensor ingress: packets, frames and rows at a port, and the input ring (R303 to R310). -/

namespace Sys2Proof.Machine

/-! ## Streams -/

/-- Changes a stream. -/
def State.modStream (s : State) (st : Nat) (f : Stream → Stream) : State := s.setStream st (f (s.stream st))

/-- Changes a frame in flight. -/
def Stream.modFrame (u : Stream) (id : Nat) (f : FrameRun → FrameRun) : Stream :=
  { u with frames := u.frames.map fun g => if g.frame = id then f g else g }

/-- A record for the stream waits while the stream is on (R312). -/
def Stream.pend (u : Stream) : Bool := u.cfg.isSome && !u.pending.isEmpty

/-- A discarded packet is counted (R303, R306). -/
def State.stray (s : State) (st : Nat) : State := s.modStream st fun u => { u with stray := satInc u.stray }

/-- A corrected header is counted (R303). -/
def State.countEcc (s : State) (st : Nat) (ecc : Bool) : State :=
  if ecc then s.modStream st fun u => { u with eccc := satInc u.eccc } else s

/-- The counter of a row's status (R308). -/
def Stream.countRow (u : Stream) (status : Nat) : Stream :=
  match status with
  | 1 => { u with dropc := satInc u.dropc }
  | 2 => { u with latec := satInc u.latec }
  | 3 => { u with corrc := satInc u.corrc }
  | _ => u

/-! ## Rows (R305, R308 to R310) -/

/-- The deadline of input row `r` of a frame (R307). -/
def MillCfg.deadline (m : MillCfg) (t0 : Int) (r : Nat) : Int := t0 + m.doff + (r * m.rper : Nat)

/-- The content of a row that is not good (R309). -/
def MillCfg.policy (m : MillCfg) (row : Nat) (prev : List (BitVec 16)) : List (BitVec 16) :=
  if m.pol = 0 then (if row = 0 then List.replicate m.width 0 else prev)
  else List.replicate m.width (if m.pol = 2 then m.mark else 0)

/-- A row of the input ring is named by a window of the first processor that has not completed (R310). -/
def State.rowNamed (s : State) (st : Nat) (m : MillCfg) (r : InRow) : Bool :=
  match m.kernels.head? with
  | none => false
  | some k =>
    let p := s.proc (m.procAt st 0)
    if r.frame < p.dframe then false
    else
      let lo := if r.frame = p.dframe then p.drow else 0
      (List.range (m.outRows 0)).any fun o => decide (lo ≤ o) && k.named.any fun j => k.winRow m.height o j == r.row

/-- Ring position `seq` mod 16 is still needed (R310). -/
def State.ringBlocked (s : State) (st : Nat) (m : MillCfg) (seq : Nat) : Bool :=
  (s.stream st).ring.any fun r => r.seq % 16 == seq % 16 && s.rowNamed st m r

/-- A row takes its ring position (R310). -/
def Stream.enter (u : Stream) (r : InRow) : Stream := { u with ring := (u.ring.filter fun q => q.seq % 16 != r.seq % 16) ++ [r] }

/-- The row times of a frame's first and last input rows (R305). -/
def FrameRun.rowTime (f : FrameRun) (row height : Nat) (t : W64) : FrameRun :=
  let f := if row = 0 then { f with tstart := some t } else f
  if row + 1 = height then { f with tend := some t } else f

/-- The lowest row not finalized is in RECV (R308). -/
def OpenFrame.receiving (o : OpenFrame) : Bool := o.recv.isSome || o.lrow == some o.next

/-- Finalizes the lowest row of the open frame (R308) with a status, for a good row its samples, and the row time of a row
that arrived (R305). A third row that would wait is dropped instead (R310). The frame closes with its last row (R306). -/
def State.finalRow (s : State) (st : Nat) (m : MillCfg) (o : OpenFrame) (status : Nat) (data : List (BitVec 16))
    (stamp : W64) : State :=
  let u := s.stream st
  let blocked := s.ringBlocked st m u.rowSeq
  let drop := blocked && decide (2 ≤ u.waiting.length)
  let status := if drop then 1 else status
  let data := if status = 0 then data else m.policy o.next u.prev
  let time := if status = 0 ∨ status = 3 then stamp else BitVec.ofInt 64 (m.deadline o.t0 o.next)
  let r : InRow := ⟨o.frame, o.next, u.rowSeq, status, time, data, s.clk + 1⟩
  let u := { u.countRow status with
    ovrc := if drop then satInc u.ovrc else u.ovrc, rowSeq := u.rowSeq + 1, prev := data,
    frames := u.frames.map fun (f : FrameRun) => if f.frame = o.frame then f.rowTime o.next m.height time else f,
    openF := if o.next + 1 = m.height then none else
      some { o with next := o.next + 1, recv := none, lrow := if o.lrow = some o.next then none else o.lrow } }
  s.setStream st (if blocked then { u with waiting := u.waiting ++ [r] } else u.enter r)

/-- The rows whose deadline has passed are finalized: dropped in WAIT, late in RECV (R308). At most `fuel` rows. -/
def State.dueRows (s : State) (st : Nat) (m : MillCfg) : Nat → State
  | 0 => s
  | fuel + 1 =>
    match (s.stream st).openF with
    | none => s
    | some o =>
      if m.deadline o.t0 o.next < s.now.toNat then
        (s.finalRow st m o (if o.receiving then 2 else 1) [] s.now).dueRows st m fuel
      else s

/-- Deadlines come before the packet of the same clock (R308). -/
def State.catchUp (s : State) (st : Nat) : State :=
  match (s.stream st).cfg with
  | some m => s.dueRows st m m.height
  | none => s

/-- Every row below `top` not yet finalized is finalized, dropped in WAIT, corrupt in RECV (R306, R308). -/
def State.finalBelow (s : State) (st : Nat) (m : MillCfg) (top : Nat) : Nat → State
  | 0 => s
  | fuel + 1 =>
    match (s.stream st).openF with
    | none => s
    | some o =>
      if o.next < top then
        (s.finalRow st m o (if o.receiving then 3 else 1) [] s.now).finalBelow st m top fuel
      else s

/-- The open frame closes (R306). -/
def State.closeFrame (s : State) (st : Nat) (m : MillCfg) : State := s.finalBelow st m m.height m.height

/-- A frame opens with reference time T0; one that is open closes first (R306). -/
def State.openFrame (s : State) (st : Nat) (m : MillCfg) (t0 : Int) : State :=
  (s.closeFrame st m).modStream st fun u =>
    { u with
      sframe := u.sframe + 1, openF := some ⟨(u.sframe + 1).toNat, t0, 0, none, none, none⟩,
      frames := u.frames ++ [⟨(u.sframe + 1).toNat, none, none, false, 0, 0, 0, 0, 0, 0⟩] }

/-- The first byte of a long packet: a row still in RECV is corrupt, and the packet is the lowest remaining row's (R307, R308). -/
def State.nextPacket (s : State) (st : Nat) (m : MillCfg) (ty : Bool) : State :=
  let s := match (s.stream st).openF with
    | some o => if o.recv.isSome then s.finalRow st m o 3 [] s.now else s
    | none => s
  match (s.stream st).openF with
  | none => s.stray st
  | some o => s.modStream st fun u => { u with openF := some { o with recv := some ty } }

/-- What ended a packet in this clock takes effect; a close with no frame left is a stray Frame End (R306, R308). -/
def State.settle (s : State) (st : Nat) : State :=
  let u := s.stream st
  match u.cfg, u.cut with
  | some m, some k =>
    let s := s.setStream st { u with cut := none }
    match k with
    | .close => if u.openF.isSome then s.closeFrame st m else s.stray st
    | .frame t0 => s.openFrame st m t0
    | .packet ty => s.nextPacket st m ty
  | _, _ => s

/-- A close or a first byte comes after a last byte of its clock (R308): while a row receives a packet it waits for that packet's last
byte, to the end of the clock at most (log entry 95). -/
def State.cutBy (s : State) (st : Nat) (k : Cut) : State :=
  let t := s.modStream st fun u => { u with cut := some k }
  if (match (s.stream st).openF with
    | some o => o.recv.isSome
    | none => false) then t else t.settle st

/-- Before an event of a stream, what ended a packet before it and the deadlines that have passed (R308). -/
def State.upTo (s : State) (st : Nat) : State := (s.settle st).catchUp st

/-! ## Camera packets (R303, R306, R307) -/

/-- The data types of R303. -/
def dtOk (dt : Nat) : Bool := decide (0x2A ≤ dt ∧ dt ≤ 0x2E) || dt == 0x1E

/-- Bits of a sample of a data type (R303). -/
def dtBits (dt : Nat) : Nat :=
  match dt with
  | 0x2A => 8 | 0x2B => 10 | 0x2C => 12 | 0x2D => 14 | 0x1E => 8 | _ => 16

/-- CSI2_FRAME_START: it opens a frame of a free-running camera; of a synchronised one, one is accepted for each sync; any other is
counted (R306, R312). -/
def execCsi2FrameStart (sid : StreamId) (ecc : Bool) (s : State) : Answer :=
  let st := sid.val
  if 96 ≤ st then .next s
  else
    let s := (s.countEcc st ecc).upTo st
    let u := s.stream st
    match u.cfg with
    | none => .next (s.stray st)
    | some m =>
      if u.pend then .next (s.stray st)
      else if m.fsper ≠ 0 then
        .next (if u.fsOk then s.setStream st { u with fsOk := false } else s.stray st)
      else .next (s.cutBy st (.frame s.now.toNat))

/-- CSI2_FRAME_END: it closes the open frame, else is counted (R306). -/
def execCsi2FrameEnd (sid : StreamId) (ecc : Bool) (s : State) : Answer :=
  let st := sid.val
  if 96 ≤ st then .next s
  else
    let s := (s.countEcc st ecc).upTo st
    let u := s.stream st
    match u.cfg, u.openF with
    | some _, some _ => .next (s.cutBy st .close)
    | _, _ => .next (s.stray st)

/-- CSI2_LONG_PACKET_START: the first byte of a long packet is attributed to the lowest row not finalized; a row still in RECV is
corrupt first (R307, R308). Embedded data is discarded, other unsupported types are counted (R303); while a record is
pending every long packet is counted (R312). -/
def execCsi2LongPacketStart (sid : StreamId) (dt : Byte) (ecc : Bool) (s : State) : Answer :=
  let st := sid.val
  if 96 ≤ st then .next s
  else
    let s := (s.countEcc st ecc).upTo st
    if dt = 0x12 then .next s
    else if !dtOk dt.toNat then .next (s.stray st)
    else
      match (s.stream st).cfg, (s.stream st).openF with
      | some m, some _ =>
        if (s.stream st).pend then .next (s.stray st) else .next (s.cutBy st (.packet (dt.toNat == m.dt)))
      | _, _ => .next (s.stray st)

/-- CSI2_LONG_PACKET_END: the last byte finalizes the row in RECV, good if its checks pass, else corrupt (R303, R308). -/
def execCsi2LongPacketEnd (sid : StreamId) (samples : List (BitVec 16)) (crcOk : Bool) (s : State) : Answer :=
  let st := sid.val
  if 96 ≤ st then .next s
  else
    let s := s.catchUp st
    match (s.stream st).cfg, (s.stream st).openF with
    | some m, some o =>
      match o.recv with
      | none => .next s
      | some ty =>
        let ok := crcOk && ty && samples.length == m.width
        let data := samples.map fun v => BitVec.ofNat 16 (v.toNat % 2 ^ dtBits m.dt)
        .next ((s.finalRow st m o (if ok then 0 else 3) data s.now).settle st)
    | _, _ => .next s

/-- DISCARDED_PACKET: embedded data and line packets are ignored; the others are counted, those of lidar at source 0 of the port; a
corrected header counts whatever becomes of its packet (R303, R304). -/
def execDiscardedPacket (sid : StreamId) (kind : Discarded) (s : State) : Answer :=
  let st := sid.val
  let t := if st < 96 then s.countEcc st kind.ecc else s
  match kind.kind with
  | .embedded => .next t
  | .lineStartEnd => .next t
  | .unsupported => .next (if st < 96 then t.stray st else t)
  | .badHeader => .next (if st < 96 then s.stray st else s)
  | .lidarIpv6 => .next (if st < 96 then s else s.stray (st / 4 * 4))
  | .lidarFragment => .next (if st < 96 then s else s.stray (st / 4 * 4))
  | .lidarTwoTags => .next (if st < 96 then s else s.stray (st / 4 * 4))

/-! ## Lidar (R304, R306, R307) -/

/-- A little-endian number in a datagram; a byte the payload does not hold is free (log entry 25). -/
def dgNum (free : Nat) (pl : List Byte) (off n : Nat) : Nat :=
  leNat ((List.range n).map fun i => pl.getD (off + i) (Config.freeByte (free + i)))

/-- The source of a port that a destination UDP port selects (R304). -/
def State.lidarSource (s : State) (port : Nat) (udp : BitVec 16) : Option (Nat × MillCfg) :=
  (List.range 4).findSome? fun j =>
    match (s.stream (96 + 4 * port + j)).cfg with
    | some m => if m.udp = udp.toNat then some (96 + 4 * port + j, m) else none
    | none => none

/-- A datagram that passes its checks: it closes a frame whose last row it does not exceed, opens one where none is open, drops the
lower rows that wait, and is taken as its row's packet unless that row is finalized (R306, R307). -/
def State.lidarRow (s : State) (st : Nat) (m : MillCfg) (row : Nat) (stamp : W64) (data : List (BitVec 16)) : State :=
  let s := match (s.stream st).openF with
    | some o => if (match o.lastRow with
        | some l => decide (row ≤ l)
        | none => false) then s.closeFrame st m else s
    | none => s
  let s := if (s.stream st).openF.isSome then s else s.openFrame st m ((s.now.toNat : Int) - (m.rper * row : Nat))
  let s := s.finalBelow st m row m.height
  let s := s.modStream st fun u => { u with openF := u.openF.map fun o => { o with lastRow := some row } }
  match (s.stream st).openF with
  | some o =>
    if o.next = row then s.finalRow st m o 0 data stamp
    else s.modStream st fun u => { u with latep := satInc u.latep }
  | none => s

/-- The first byte of a datagram: the row it names, if that row waits in the open frame, is in RECV (R307, R308). -/
def State.lidarFirst (s : State) (st : Nat) (m : MillCfg) (row : Nat) : State :=
  s.modStream st fun u =>
    { u with openF := u.openF.map fun o =>
      if o.next ≤ row ∧ row < m.height ∧ (o.lastRow.all fun l => decide (l < row)) = true then { o with lrow := some row } else o }

/-- LIDAR_DATAGRAM (R304, R306, R307): its first byte, or its last; one that fails its check counts as its row's packet only for the
lowest waiting row. -/
def execLidarDatagram (port : Fin 8) (d : Datagram) (s : State) : Answer :=
  match s.lidarSource port.val d.udp with
  | none => .next (s.stray (96 + 4 * port.val))
  | some (st, m) =>
    if (s.stream st).pend then .next (s.stray st)
    else
      let row := dgNum s.free d.payload m.roff 2
      let stamp := BitVec.ofNat 64 (dgNum (s.free + 2) d.payload m.tsoff 8)
      let s := { s with free := s.free + 10 }.catchUp st
      let s := if d.first then s.lidarFirst st m row else s.modStream st fun u =>
        { u with openF := u.openF.map fun o => { o with lrow := none } }
      let data := (List.range m.width).map fun i => BitVec.ofNat 16 (dgNum 0 d.payload (m.poff + 2 * i) 2)
      if d.first then .next s
      else if !d.checksOk || decide (d.payload.length < m.poff + 2 * m.width) then
        match (s.stream st).openF with
        | some o =>
          if o.next = row then
            .next ((s.finalRow st m o 3 [] stamp).modStream st fun u =>
              { u with openF := u.openF.map fun o => { o with lastRow := some row } })
          else .next (s.stray st)
        | none => .next (s.stray st)
      else if m.height ≤ row then .next (s.stray st)
      else .next (s.lidarRow st m row stamp data)

/-! ## Syncs, deadlines, the ring -/

/-- FRAME_SYNC: the device drives sync n at FSBASE + n·FSPER, and it opens a frame; none is driven while a record is pending (R306,
R312). -/
def execFrameSync (sid : StreamId) (s : State) : Answer :=
  let st := sid.val
  let s := s.settle st
  let u := s.stream st
  match u.cfg with
  | none => .next s
  | some m =>
    let t := m.fsbase + u.syncNo * m.fsper
    if 96 ≤ st ∨ m.fsper = 0 ∨ u.pend = true ∨ s.now.toNat < t then .next s
    else
      .next ((((s.catchUp st).modStream st fun u => { u with syncNo := u.syncNo + 1, fsOk := true }).cutBy st (.frame t)).send
        (.frameSync st u.syncNo))

/-- ROW_DEADLINE: rows whose deadline has passed are finalized (R308). -/
def execRowDeadline (sid : StreamId) (s : State) : Answer := .next (s.catchUp sid.val)

/-- RING_ROW_ENTER: the oldest waiting row enters the ring once its position is free; it is present from the next clock (R309,
R310). -/
def execRingRowEnter (sid : StreamId) (s : State) : Answer :=
  let st := sid.val
  let u := s.stream st
  match u.cfg, u.waiting with
  | some m, r :: rest =>
    if s.ringBlocked st m r.seq then .next s
    else .next (s.setStream st ({ u with waiting := rest }.enter { r with born := s.clk + 1 }))
  | _, _ => .next s

end Sys2Proof.Machine
end

