-- ==== Sys2Proof/Machine/Mill.lean ====
section
/-! DEFINITION. Mills: the configuration record and its checks (R311, R312, R314, R334, R335), strips and output rows (R316,
R318), and the granary slots (R330 to R332). -/

namespace Sys2Proof.Machine

/-! ## The record (R311) -/

/-- Dword `i` of a record. -/
def recDw (dw : List W64) (i : Nat) : Nat := (dw.getD i 0).toNat

/-- STREAM and EN of a record (R311). -/
def recStream (dw : List W64) : Nat := bitsOf (recDw dw 1) 6 0
def recEn (dw : List W64) : Bool := (recDw dw 1).testBit 7
def recNproc (dw : List W64) : Nat := bitsOf (recDw dw 1) 26 23

/-- The configuration a record gives, with the kernels it names. -/
def recCfg (dw : List W64) (ks : List RowKernel) : MillCfg :=
  let d := recDw dw
  { mark := BitVec.ofNat 16 (bitsOf (d 1) 63 48), pol := bitsOf (d 1) 41 40, dt := bitsOf (d 1) 39 32,
    first := bitsOf (d 1) 22 20, height := bitsOf (d 4) 63 48, width := bitsOf (d 4) 47 32, rper := bitsOf (d 4) 31 0,
    doff := bitsOf (d 7) 63 32, fsper := bitsOf (d 7) 31 0, nslot := bitsOf (d 10) 55 48, slotbase := bitsOf (d 10) 47 0,
    slotsz := bitsOf (d 11) 63 48, rowpitch := bitsOf (d 11) 47 32, ofmt := bitsOf (d 11) 4 0, fsbase := d 12,
    udp := bitsOf (d 13) 63 48, tsoff := bitsOf (d 13) 47 32, roff := bitsOf (d 13) 31 16, poff := bitsOf (d 13) 15 0,
    kernels := ks }

/-- The payload of a record with EN = 0: zero but for STREAM and EN (R311). -/
def recEmpty (dw : List W64) : Bool := bitsOf (recDw dw 1) 63 8 == 0 && [3, 4, 7, 10, 11, 12, 13, 14, 15].all fun i => recDw dw i == 0

/-- A record's fields lie inside their limits and its reserved fields are zero (R311, R334 reason 1). -/
def recFieldsOk (dw : List W64) : Bool :=
  let d := recDw dw
  let m := recCfg dw []
  let n := recNproc dw
  let lidar := decide (96 ≤ recStream dw)
  bitsOf (d 1) 47 42 == 0 && bitsOf (d 1) 31 27 == 0 && bitsOf (d 1) 19 8 == 0 && decide (m.pol < 3) &&
    decide (1 ≤ n ∧ n ≤ 8) && bitsOf (d 3) 63 0 / 256 ^ n == 0 && decide (1 ≤ m.height ∧ m.height ≤ 4096) &&
    decide (1 ≤ m.width ∧ m.width ≤ (if lidar then 4482 else 4096)) && decide (1 ≤ m.rper) &&
    (!lidar || m.fsper == 0) && bitsOf (d 10) 63 56 == 0 && decide (1 ≤ m.nslot) && decide (m.slotbase % 4096 = 0) &&
    decide (m.rowpitch % 64 = 0) && bitsOf (d 11) 31 5 == 0 && (m.fsper != 0 || m.fsbase == 0) && d 14 == 0 && d 15 == 0

/-! ## Row kernels (R314) -/

/-- The header of the LN section holds: NKD and reserved bits (R314). -/
def lnHeaderOk (m : Mem) (s : Section) : Bool :=
  decide (64 ≤ s.len) && decide (1 ≤ memDword m s.base 0 ∧ memDword m s.base 0 ≤ 255) &&
    (List.range 7).all fun i => memDword m s.base (i + 1) == 0

/-- The row kernel of descriptor `i` for chain position `pos`; none where a field leaves its limits (R314). -/
def rowKernelAt (m : Mem) (s : Section) (i pos : Nat) : Option RowKernel :=
  let d (j : Nat) : Nat := memDword m (s.base + 0x40 + 64 * i) j
  let n := bitsOf (d 0) 47 32
  let off := bitsOf (d 0) 31 0
  let lut := bitsOf (d 3) 31 0
  let k : RowKernel :=
    { code := (List.range n).map fun j => BitVec.ofNat 64 (memDword m (s.base + off) j),
      wmask := bitsOf (d 1) 55 48, rstep := bitsOf (d 1) 43 40, odly := bitsOf (d 1) 35 32, nstrip := bitsOf (d 1) 31 16,
      ow := bitsOf (d 1) 15 0, osign := (d 2).testBit 48, ospan := bitsOf (d 2) 47 32, reach := bitsOf (d 2) 31 16,
      ispan := bitsOf (d 2) 15 0,
      lut := if lut = 0 then none else some ((List.range 4096).map fun j => BitVec.ofNat 16 (memNat m (s.base + lut + 2 * j) 2)) }
  if i < memDword m s.base 0 ∧ 0x40 + 64 * (i + 1) ≤ s.len ∧
      bitsOf (d 0) 63 48 = 0 ∧ 1 ≤ n ∧ n ≤ 1024 ∧ off % 8 = 0 ∧ off + 8 * n ≤ s.len ∧
      bitsOf (d 1) 63 56 = 0 ∧ k.wmask.testBit 0 = true ∧ bitsOf (d 1) 47 44 = 0 ∧ 1 ≤ k.rstep ∧ k.rstep ≤ 4 ∧
      bitsOf (d 1) 39 36 = 0 ∧ k.odly ≤ 7 ∧ 1 ≤ k.nstrip ∧ k.nstrip ≤ 256 ∧ 1 ≤ k.ow ∧ k.ow ≤ 8192 ∧
      bitsOf (d 2) 63 49 = 0 ∧ 1 ≤ k.ospan ∧ k.ospan ≤ 8192 ∧ k.reach ≤ 8191 ∧ k.ispan ≤ 8192 ∧
      (pos = 0 → k.reach = 0 ∧ k.ispan = 0) ∧ bitsOf (d 3) 63 32 = 0 ∧ lut % 64 = 0 ∧ (lut ≠ 0 → lut + 8192 ≤ s.len) ∧
      d 4 = 0 ∧ d 5 = 0 ∧ d 6 = 0 ∧ d 7 = 0 then some k
  else none

/-- An instruction is legal in a kernel (R329). -/
def lnLegal (k : RowKernel) (w : W64) : Bool :=
  match decode .ln w.toNat with
  | none => false
  | some i =>
    match i with
    | .lld f => k.wmask.testBit (f.c.toNat % 8)
    | .ksr f => decide (f.imm.toNat < 8) || k.wmask.testBit (f.imm.toNat - 8)
    | .lnVlut _ => k.lut.isSome
    | _ => true

/-! ## Checks (R334, R335) -/

/-- Why a record is refused: reason, chain position or 0xFF, instruction index, ADDR and DETAIL1 (R335). -/
structure MillBad where
  reason : Nat
  pos : Nat
  idx : Nat
  addr : Nat
  det1 : Nat
  deriving DecidableEq, Repr

/-- A refusal that names only its reason. -/
def millBad (reason : Nat) : MillBad := ⟨reason, 0xFF, 0, 0, 0⟩

/-- The other streams that are on. -/
def State.othersOn (s : State) (st : Nat) : List (Nat × MillCfg) :=
  s.streams.filterMap fun p => if p.1 = st then none else p.2.cfg.map fun m => (p.1, m)

/-- Reason 2, as far as the record shows it: data type, lidar fields, UDP reused, OFMT, payload length. -/
def State.millSourceBad (s : State) (st : Nat) (m : MillCfg) : Bool :=
  let lidar := decide (96 ≤ st)
  let allowed := m.ofmt < 10 || m.ofmt == 0x0C || m.ofmt == 0x0D || decide (0x10 ≤ m.ofmt ∧ m.ofmt ≤ 0x12)
  (if lidar then m.dt != 0 else !dtOk m.dt) || (!lidar && (m.udp != 0 || m.tsoff != 0 || m.roff != 0 || m.poff != 0)) ||
    (lidar && (s.othersOn st).any fun o => millOf o.1 == millOf st && o.2.udp == m.udp) || !allowed ||
    (lidar && decide (8972 < m.poff + 2 * m.width))

/-- Reason 3: the chain leaves the mill or shares a processor with another stream that is on. -/
def State.millChainBad (s : State) (st n : Nat) (m : MillCfg) : Bool :=
  decide (8 < m.first + n) ||
    (s.othersOn st).any fun o => millOf o.1 == millOf st && (List.range n).any fun i => o.2.holds (m.first + i)

/-- Bytes of a tile row (R330). -/
def MillCfg.tileBytes (m : MillCfg) (ow : Nat) : Nat :=
  if fmtIsPlane m.ofmt then ow / 32 * planeStride (fmtPlanes m.ofmt) else ow * fmtBytes m.ofmt

/-- The first slot byte outside the granary. -/
def MillCfg.slotOut (m : MillCfg) : Option Nat :=
  let r := m.slotRange
  if r.1 < 0x10000000000 ∨ 0x10030000000 ≤ r.1 then some r.1
  else if 0x10030000000 < r.2 then some 0x10030000000 else none

/-- The first slot byte that another stream's slots hold. -/
def State.slotShared (s : State) (st : Nat) (m : MillCfg) : Option Nat :=
  let r := m.slotRange
  (s.othersOn st).foldl (fun acc o =>
    let q := o.2.slotRange
    if q.1 < r.2 ∧ r.1 < q.2 then
      let a := Nat.max r.1 q.1
      match acc with
      | some b => some (Nat.min a b)
      | none => some a
    else acc) none

/-- Bytes of line buffer a chain needs (R334 reason 5). -/
def MillCfg.bufBytes (m : MillCfg) : Nat :=
  32 * m.width + (m.kernels.map fun k => 32 * k.ow + (if k.lut.isSome then 8192 else 0)).foldl (· + ·) 0

/-- The first illegal instruction of a chain: position, index and word (R334 reason 4). -/
def MillCfg.illegal (m : MillCfg) : Option (Nat × Nat × W64) :=
  (m.kernels.zipIdx).findSome? fun k => (k.1.code.zipIdx).findSome? fun w => if lnLegal k.1 w.1 then none else some (k.2, w.2, w.1)

/-- The first processor whose rows do not fit their time: position, clocks available and needed (R334 reason 6). -/
def MillCfg.slow (m : MillCfg) : Option (Nat × Nat × Nat) :=
  (List.range m.kernels.length).findSome? fun i =>
    match m.kernels[i]? with
    | none => none
    | some k =>
      let p := (m.kernels.take (i + 1)).foldl (fun a k => a * k.rstep) 1
      let have' := 3 * p * m.rper / 5
      let need := k.nstrip * k.code.length + 64
      if have' < need then some (i, have', need) else none

/-- Reason 8: a malformed lease, a slot byte not leased with W, or in a read-only range, the record's own image among them; then the
image's own lease and its verification. -/
def State.millLeaseBad (s : State) (dw : List W64) (m : MillCfg) (g : Image) : Option MillBad :=
  let r := m.slotRange
  match leaseList s.mem (recDw dw 6) with
  | none => some (millBad 8)
  | some ls =>
    match leaseFault ls false true r.1 (r.2 - r.1) with
    | some a => some { millBad 8 with addr := a }
    | none =>
      match roFault (s.ro ++ [⟨g.base, g.size⟩]) r.1 (r.2 - r.1) with
      | some a => some { millBad 8 with addr := a }
      | none =>
        if (leaseFault ls true false g.base g.size).isSome || (s.imageOf g.base).isNone then some (millBad 8) else none

/-- What of reasons 2, 3 and 7 the record alone decides, where no image stands at IMAGE whose sections could be read; what follows is
reason 8 (R334, log entry 26). -/
def State.millNoImage (s : State) (st n : Nat) (m : MillCfg) : MillBad :=
  if s.millSourceBad st m then millBad 2
  else if s.millChainBad st n m then millBad 3
  else
    match m.slotOut, s.slotShared st m with
    | some a, _ => { millBad 7 with addr := a }
    | none, some a => { millBad 7 with addr := a }
    | none, none => millBad 8

/-- Reasons 2 to 8 of a record whose kernels are read (R334). -/
def State.millReasons (s : State) (dw : List W64) (st : Nat) (m : MillCfg) (g : Image) : Option MillBad :=
  let lastOw := m.iw m.kernels.length
  let need := m.bufBytes + (((s.othersOn st).filter fun o => millOf o.1 == millOf st).map fun o => o.2.bufBytes).foldl (· + ·) 0
  if s.millSourceBad st m || (fmtIsPlane m.ofmt && decide (lastOw % 32 ≠ 0)) then some (millBad 2)
  else if s.millChainBad st m.kernels.length m then some (millBad 3)
  else
    match m.illegal with
    | some (p, i, w) => some ⟨4, p, i, 0, w.toNat⟩
    | none =>
      if 2 ^ 21 < need then some { millBad 5 with det1 := need }
      else
        match m.slow with
        | some (p, h, n) => some ⟨6, p, 0, 0, h % 2 ^ 32 * 2 ^ 32 + n⟩
        | none =>
          match m.slotOut with
          | some a => some { millBad 7 with addr := a }
          | none =>
            if 4096 * m.slotsz < 0x1000 + m.rows * m.rowpitch ∨ m.rowpitch < m.tileBytes lastOw then
              some { millBad 7 with addr := m.slotbase }
            else
              match s.slotShared st m with
              | some a => some { millBad 7 with addr := a }
              | none => s.millLeaseBad dw m g

/-- What a record comes to: refused, or the configuration it applies with its image; none with EN = 0 (R334). -/
inductive MillVerdict
  | bad (b : MillBad)
  | off
  | on (m : MillCfg) (g : Image)
  deriving DecidableEq, Repr

/-- Checks a record that would be applied (R334): the kernels are read from the image whether it verifies or not, as the lowest reason
is the one reported. -/
def State.millCheck (s : State) (dw : List W64) : MillVerdict :=
  let st := recStream dw
  let n := recNproc dw
  if !recEn dw then (if recEmpty dw then .off else .bad (millBad 1))
  else if !recFieldsOk dw then .bad (millBad 1)
  else
    match imageAt s.mem (bitsOf (recDw dw 2) 47 0) with
    | none => .bad (s.millNoImage st n (recCfg dw []))
    | some g =>
      if !lnHeaderOk s.mem (g.sec 5) then .bad (millBad 1)
      else
        let ks := (List.range n).map fun i => rowKernelAt s.mem (g.sec 5) (bitsOf (recDw dw 3) (8 * i + 7) (8 * i)) i
        match allSome ks with
        | none => .bad { millBad 1 with pos := (ks.takeWhile Option.isSome).length }
        | some l =>
          let m := recCfg dw l
          match (List.range n).find? fun i => m.outRows i == 0 with
          | some i => .bad { millBad 1 with pos := i }
          | none =>
            match s.millReasons dw st m g with
            | some b => .bad b
            | none => .on m g

/-- A queue freezes (R386 FROZEN). -/
def State.freezeQueue (s : State) (q : Nat) : State :=
  (s.setQueue q { s.queue q with frozen := true }).raiseSint sintFROZEN

/-- The record of a refused configuration (R335); its queue freezes. -/
def State.refuseMill (s : State) (q : Nat) (lseq : W32) (st : Nat) (b : MillBad) : State :=
  let r : FaultRec :=
    { state := 3, unit := millOf st, core := 0xFF, ctx := false, eng := 4, code := 0x0601, wid := 0, time := s.now, loc := 0,
      addr := BitVec.ofNat 64 b.addr, det0 := BitVec.ofNat 64 (b.idx * 2 ^ 32 + b.pos * 2 ^ 24 + b.reason),
      det1 := BitVec.ofNat 64 b.det1, lseq := lseq }
  (s.addFault q (.stream st) r).freezeQueue q

/-! ## Applying (R312, R313) -/

/-- Number of the first sync whose time does not lie before now (R306). -/
def MillCfg.nextSync (m : MillCfg) (now : Nat) : Nat := if m.fsper = 0 then 0 else cdiv (now - m.fsbase) m.fsper

/-- The slot of frame `f` (R330). -/
def MillCfg.slotIdx (m : MillCfg) (f : Nat) : Nat := (f - 1) % m.nslot
def MillCfg.slot (m : MillCfg) (f : Nat) : Nat := m.slotbase + 4096 * m.slotsz * m.slotIdx f

/-- A record with EN = 1 is applied: FRAME and ROWCNT become 0 in every slot, the tables load, the chain's registers read zero
(R312, R313). -/
def State.applyMill (s : State) (st : Nat) (m : MillCfg) (g : Image) : State :=
  let s := s.holdImage g
  let slots := (List.range m.nslot).map fun i => m.slotbase + 4096 * m.slotsz * i
  let mem := slots.foldl (fun t a => memPutRo s.ro t a 8 0) s.mem
  let mem := slots.foldl (fun t a => memPutRo s.ro t (a + 0x18) 4 0) mem
  let f := (s.stream st).sframe.toNat + 1
  let p : Proc := { Proc.reset with frame := f, dframe := f }
  let s := (List.range m.kernels.length).foldl (fun s i => s.setProc (m.procAt st i) p) { s with mem := mem }
  s.modStream st fun u =>
    { u with
      cfg := some m, image := some g.base, syncNo := m.nextSync s.now.toNat, fsOk := false, rowSeq := 0, openF := none,
      cut := none, ring := [], waiting := [], prev := [], frames := [] }

/-- A record with EN = 0 is applied (R312). -/
def State.applyOff (s : State) (st : Nat) : State :=
  s.modStream st fun u =>
    { u with
      cfg := none, image := none, fsOk := false, openF := none, cut := none, ring := [], waiting := [], prev := [], frames := [] }

/-- No frame of the stream is in flight (R312). -/
def Stream.quiet (u : Stream) : Bool := u.cfg.isNone || u.frames.isEmpty

/-- A record has been applied: its launch completes in the next clock, which gives its stamp (R312, R362). -/
def Launch.applied (l : Launch) : Launch := { l with st := .completing, tend := none }

/-- MILL_CONFIG_APPLY: the oldest record that waits is checked and applied once no frame is in flight (R312, R334); its launch then
completes. A refused record leaves the stream as it was. -/
def execMillConfigApply (sid : StreamId) (s : State) : Answer :=
  let st := sid.val
  let u := s.stream st
  match u.pending with
  | [] => .next s
  | (q, lseq, dw) :: rest =>
    if !u.quiet then .next s
    else
      let s := s.setStream st { u with pending := rest }
      match s.millCheck dw with
      | .bad b =>
        let s := s.modStream st fun u =>
          { u with syncNo := match u.cfg with
              | some m => Nat.max u.syncNo (m.nextSync s.now.toNat)
              | none => u.syncNo }
        .next (s.refuseMill q lseq st b)
      | .off => .next ((s.applyOff st).modLaunch q lseq Launch.applied)
      | .on m g => .next ((s.applyMill st m g).modLaunch q lseq Launch.applied)

/-! ## Strips (R316, R318) -/

/-- The inputs of the next strip of a processor are present (R316). -/
def State.stripReady (s : State) (n st : Nat) (m : MillCfg) (k : RowKernel) (p : Proc) : Bool :=
  let pos := n % 8 - m.first
  let ih := m.inRows pos
  let newest := k.winRow ih p.orow 0
  let whole (j : Nat) : Bool := s.rowComplete st m pos p.frame (k.winRow ih p.orow j)
  match m.before pos with
  | none => k.named.all whole
  | some pre =>
    (k.named.all fun j => k.winRow ih p.orow j == newest || whole j) &&
      (if k.rOf p.orow ≤ ih - 1 then
        match k.needs pre p.strip with
        | none => whole 0
        | some l =>
          match (s.proc (n - 1)).outRow p.frame newest with
          | some r => decide (l + 1 ≤ r.strips)
          | none => false
      else whole 0)

/-- The first strip of a row opens its output row; the row 16 before it loses its samples (R313). -/
def Proc.openRow (p : Proc) : Proc :=
  let old := p.out.length - 15
  { p with out := (p.out.zipIdx.map fun r => if r.2 < old then { r.1 with samples := [] } else r.1) ++
      [⟨p.frame, p.orow, 0, [], 0, false⟩] }

/-- STRIP_START: the next strip of a processor starts once its inputs are present; the rows of a frame begin once every row of the
frame before has completed (R316). -/
def execStripStart (pid : ProcId) (s : State) : Answer :=
  let n := pid.val
  let p := s.proc n
  match s.chainOf n with
  | none => .next s
  | some (st, m) =>
    match m.kernels[n % 8 - m.first]? with
    | none => .next s
    | some k =>
      if p.busy || (p.orow == 0 && p.strip == 0 && p.dframe != p.frame) || !s.stripReady n st m k p then .next s
      else .next (s.setProc n { (if p.strip = 0 then p.openRow else p) with busy := true, ip := 0, begun := some s.clk })

/-- OUTPUT_ROW_COMPLETE: the oldest row whose strips have all completed, and whose named window rows are complete, takes its status
and is complete (R318). -/
def execOutputRowComplete (pid : ProcId) (s : State) : Answer :=
  let n := pid.val
  let p := s.proc n
  match s.chainOf n with
  | none => .next s
  | some (st, m) =>
    let pos := n % 8 - m.first
    match m.kernels[pos]?, p.outRow p.dframe p.drow with
    | some k, some r =>
      let stats := k.named.map fun j => s.rowStatus st m pos p.dframe (k.winRow (m.inRows pos) p.drow j)
      if r.strips < k.nstrip then .next s
      else
        match allSome stats with
        | none => .next s
        | some l =>
          let p := p.modRow p.dframe p.drow fun r => { r with status := l.foldl Nat.max r.status, complete := true }
          .next (s.setProc n (if p.drow + 1 < m.outRows pos then { p with drow := p.drow + 1 }
            else { p with drow := 0, dframe := p.dframe + 1 }))
    | _, _ => .next s

/-! ## Slots (R330 to R332) -/

/-- SLOT_RESET: the slot of the oldest frame in flight is reset, FRAME last (R331). -/
def execSlotReset (sid : StreamId) (s : State) : Answer :=
  let st := sid.val
  let u := s.stream st
  match u.cfg, u.frames with
  | some m, f :: rest =>
    if f.slotReset then .next s
    else
      let a := m.slot f.frame
      let put := memPutRo s.ro
      let mem := put s.mem (a + 0x18) 8 (st * 2 ^ 48 + m.rows * 2 ^ 32)
      let mem := put mem (a + 0x20) 8 0
      let mem := put mem (a + 0x28) 8 (m.ofmt * 2 ^ 32 + m.rowpitch * 2 ^ 16 + m.iw m.kernels.length)
      let mem := put mem (a + 0x30) 16 0
      let mem := put mem (a + 0x08) 16 0
      let mem := put mem (a + 0x40) 0x400 0
      let mem := put mem a 8 f.frame
      .next ({ s with mem := mem }.setStream st { u with frames := { f with slotReset := true } :: rest })
  | _, _ => .next s

/-- The samples of a complete output row, those no `lst` wrote free (R325). -/
def State.rowSamples (s : State) (r : OutRow) (ow : Nat) : List (BitVec 16) :=
  (List.range ow).map fun i =>
    match tabFind r.samples i with
    | some v => v.2
    | none => (Config.freeWord (s.free + i)).setWidth 16

/-- The payload of a tile row: converted once to OFMT, saturations counted in SATC (R332). -/
def State.tilePayload (s : State) (st : Nat) (m : MillCfg) (f : FrameRun) (r : OutRow) : State :=
  let ow := m.iw m.kernels.length
  let b := (s.rowSamples r ow).flatMap fun v => leBytes 2 v.toNat
  let c := convertBytes (if m.inSigned m.kernels.length then 0x09 else 0x0D) m.ofmt b
  let a := m.slot f.frame + 0x1000 + r.row * m.rowpitch
  ({ s with free := s.free + ow, mem := memWrite s.mem a (guardRo s.ro a c.1) }).modStream st fun u =>
    { u.modFrame f.frame fun g => { g with stage := 1, due := s.clk + Nat.max 1 (cdiv c.1.length 128) } with
      satc := satAdd u.satc c.2.2 }

/-- A frame's counts of R330 with one row more. -/
def FrameRun.count (f : FrameRun) (status : Nat) : FrameRun :=
  { f with
    ndrop := f.ndrop + (if status = 1 then 1 else 0), nlate := f.nlate + (if status = 2 then 1 else 0),
    ncorr := f.ncorr + (if status = 3 then 1 else 0) }

/-- The status pair, the counts, and the stamps of the first and last rows (R330, R332); the last row waits until the row time of
input row HEIGHT − 1 is known. -/
def State.tileStatus (s : State) (st : Nat) (m : MillCfg) (f : FrameRun) (r : OutRow) : State :=
  let last := decide (r.row + 1 = m.rows)
  if last && f.tend.isNone then s
  else
    let a := m.slot f.frame
    let put := memPutRo s.ro
    let g := f.count r.status
    let b := memNat s.mem (a + 0x40 + r.row / 4) 1
    let sh := 4 ^ (r.row % 4)
    let b := b - b / sh % 4 * sh + r.status * sh
    let mem := put s.mem (a + 0x40 + r.row / 4) 1 b
    let mem := put mem (a + 0x20) 8 (g.ncorr * 2 ^ 32 + g.nlate * 2 ^ 16 + g.ndrop)
    let mem := if r.row = 0 then put mem (a + 0x08) 8 (f.tstart.getD 0).toNat else mem
    let mem := if last then put mem (a + 0x10) 8 (f.tend.getD 0).toNat else mem
    ({ s with mem := mem }).modStream st fun u => u.modFrame f.frame fun _ => { g with stage := 2, due := s.clk + 1 }

/-- At the end of frame `f` the processor at position `i` keeps the rows of later frames, and of `f` and earlier ones those that it or a
later processor of the chain has still to complete or to read (R316, R318). -/
def State.dropRows (s : State) (st : Nat) (m : MillCfg) (f i : Nat) : State :=
  let n := m.procAt st i
  let p := s.proc n
  let needed (g : Nat) : Bool := (List.range m.kernels.length).any fun j => decide (i ≤ j) && decide ((s.proc (m.procAt st j)).dframe ≤ g)
  s.setProc n { p with out := p.out.filter fun r => decide (f < r.frame) || needed r.frame }

/-- ROWCNT advances; the last row of the frame ends it and it is to be recorded (R332, R337). -/
def State.tileCounter (s : State) (st : Nat) (m : MillCfg) (f : FrameRun) : State :=
  let s := { s with mem := memPutRo s.ro s.mem (m.slot f.frame + 0x18) 4 (f.rowcnt + 1) }
  if f.rowcnt + 1 < m.rows then
    s.modStream st fun u => u.modFrame f.frame fun h => { h with rowcnt := h.rowcnt + 1, stage := 0, due := s.clk }
  else
    let s := s.modStream st fun u =>
      { u with
        frames := u.frames.filter fun h => h.frame != f.frame,
        recs := u.recs ++ [⟨f.frame, s.clk, s.now, m.slot f.frame, m.slotIdx f.frame⟩] }
    (List.range m.kernels.length).foldl (fun s i => s.dropRows st m f.frame i) s

/-- TILE_ROW_WRITE: the writer's next step for the oldest frame in flight: the payload of its next complete row, in a later clock its
status and counts, and in the clock after that the counter (R332). -/
def execTileRowWrite (sid : StreamId) (s : State) : Answer :=
  let st := sid.val
  let u := s.stream st
  match u.cfg, u.frames with
  | some m, f :: _ =>
    if !f.slotReset || decide (s.clk < f.due) then .next s
    else
      match (s.proc (m.procAt st (m.kernels.length - 1))).outRow f.frame f.rowcnt with
      | none => .next s
      | some r =>
        if !r.complete then .next s
        else
          match f.stage with
          | 0 => .next (s.tilePayload st m f r)
          | 1 => .next (s.tileStatus st m f r)
          | _ => .next (s.tileCounter st m f)
  | _, _ => .next s

/-! ## The processor's clock (R317) -/

/-- The word a processor issues next: none while no strip runs, nor in the clock in which one starts. -/
def State.lnWord (s : State) : Option W64 :=
  let n := s.lnFocus.val
  let p := s.proc n
  if p.busy && p.begun != some s.clk then
    match s.chainOf n with
    | some (_, m) =>
      match m.kernels[n % 8 - m.first]? with
      | some k => k.code[p.ip]?
      | none => none
    | none => none
  else none

end Sys2Proof.Machine
end

