-- ==== Sys2Proof/Machine/Align.lean ====
section
/-! DEFINITION. The alignment unit: the almanac (R337, R338), fuse rules and their commands (R339 to R343), the order of events
(R344), matching (R345 to R348), broadcasts (R349) and faults (R350). -/

namespace Sys2Proof.Machine

/-! ## Rules (R339, R343) -/

/-- NMEM: one above the highest member position in use. -/
def Rule.nmem (r : Rule) : Nat := r.members.zipIdx.foldl (fun n m => if m.1.isSome then m.2 + 1 else n) 0

/-- The member streams. -/
def Rule.streams (r : Rule) : List Nat := r.members.filterMap id

/-- PEND changes, and STATE with it (R339). -/
def Rule.setPend (r : Rule) (p : Bool) : Rule := { r with pend := p, st := if p then 2 else 1, dlAt := none }

/-- The rule is armed (R339). -/
def Rule.armed (r : Rule) : Bool := r.st == 1 || r.st == 2

/-- The first stream that a list names twice. -/
def firstTwice : List Nat → Option Nat
  | [] => none
  | a :: r => if r.contains a then some a else firstTwice r

/-- The first failed check of `farm` with the stream it concerns (R343, R350). -/
def Rule.incomplete (r : Rule) : Option (Nat × Nat) :=
  let n := r.nmem
  if ¬ ((r.members.take n).all Option.isSome = true) ∨ (n = 0 ∧ r.mode ≠ 2) ∨ (n ≠ 0 ∧ r.mode = 2) then some (1, 0)
  else
    match firstTwice r.streams with
    | some st => some (2, st)
    | none =>
      if n ≠ 0 ∧ n ≤ r.refpos then some (3, 0)
      else if n ≠ 0 ∧ r.dead = 0 then some (4, 0)
      else if r.ringSet = false ∨ r.cntSet = false then some (5, 0)
      else if r.ring.toNat ≤ r.cnt.toNat ∧ r.cnt.toNat < r.ring.toNat + 1024 * r.nrec then some (6, 0)
      else none

/-! ## The order of events (R344) -/

/-- Orders events by clock, class and index. -/
def evLess (a b : Nat × Nat × Nat) : Bool :=
  decide (a.1 < b.1) || (a.1 == b.1 && (decide (a.2.1 < b.2.1) || (a.2.1 == b.2.1 && decide (a.2.2 < b.2.2))))

/-- The events that wait for the unit: recordings (class 0, by stream), deadlines (1, by rule), receipts (3, by port). -/
def State.alEvents (s : State) : List (Nat × Nat × Nat) :=
  (s.streams.filterMap fun p => p.2.recs.head?.map fun r => (r.clk, 0, p.1)) ++
    (s.rules.filterMap fun p => if p.2.pend then p.2.dlAt.map fun d => (d.1, 1, p.1) else none) ++
    (s.links.filterMap fun p => p.2.rxReady.head?.map fun r => (r.2.2, 3, p.1))

/-- An event is the first that waits, and its processing can begin: in the clock after it, once the unit is free (R344, R346). -/
def State.alReady (s : State) (e : Nat × Nat × Nat) : Bool :=
  decide (s.alFree ≤ s.clk) && decide (e.1 < s.clk) && s.alEvents.all fun f => f == e || evLess e f

/-! ## The almanac (R337, R338) -/

/-- The entries of a stream that hold a frame whose TSTART lies above a floor (R345). -/
def State.liveEntries (s : State) (st : Nat) (floor : W64) : List AlmEntry :=
  ((List.range 4).map (s.alm st)).filter fun e => e.frame != 0 && decide (floor.toNat < e.tstart.toNat)

/-- |a − b|. -/
def dist (a b : W64) : Nat := (a.toNat - b.toNat) + (b.toNat - a.toNat)

/-- The live entry nearest to a time, ties to the larger FRAME (R345). -/
def State.near (s : State) (st : Nat) (floor t : W64) : Option AlmEntry :=
  (s.liveEntries st floor).foldl (fun best e =>
    match best with
    | none => some e
    | some b =>
      if dist e.tstart t < dist b.tstart t ∨ (dist e.tstart t = dist b.tstart t ∧ b.frame.toNat < e.frame.toNat) then some e
      else best) none

/-! ## Records (R346 to R348) -/

/-- SPREAD of the present members; with none present it is free (R348, log entry 27). -/
def spreadOf (free : Nat) (l : List AlmEntry) : Nat :=
  match l with
  | [] => ((Config.freeWord free).setWidth 32).toNat
  | e :: r =>
    let hi := r.foldl (fun a e => Nat.max a e.tstart.toNat) e.tstart.toNat
    let lo := r.foldl (fun a e => Nat.min a e.tstart.toNat) e.tstart.toNat
    Nat.min (hi - lo) (2 ^ 32 - 1)

/-- The bytes of a fuse record with counter value `n` (R348). -/
def fuseBytes (q : Nat) (r : Rule) (n : W32) (part : Bool) (anchor : W64) (cs : List (Nat × Option AlmEntry)) (free : Nat) :
    List Byte :=
  let miss := (cs.zipIdx.map fun c => if c.1.2.isNone then 2 ^ c.2 else 0).foldl (· + ·) 0
  let dws : List Nat :=
    [n.toNat * 2 ^ 32 + part.toNat * 2 ^ 24 + cs.length * 2 ^ 16 + q,
      miss * 2 ^ 48 + r.refpos * 2 ^ 32 + spreadOf free (cs.filterMap (·.2)), anchor.toNat, 0, 0, 0, 0, 0] ++
    cs.flatMap fun c =>
      match c.2 with
      | none => [0, 0, 0, c.1 * 2 ^ 56]
      | some e =>
        [e.frame.toNat, e.tstart.toNat, e.tend.toNat,
          c.1 * 2 ^ 56 + e.slot.toNat * 2 ^ 48 + e.ncorr.toNat * 2 ^ 32 + e.nlate.toNat * 2 ^ 16 + e.ndrop.toNat]
  let b := dws.flatMap (leBytes 8)
  b ++ List.replicate (1024 - b.length) 0

/-- A record is written in 16 clocks, and the counter advances in the clock after its last write (R346, R347); the unit is free
after that. With MODE = 1 a broadcast follows (R349). -/
def State.alRecord (s : State) (q : Nat) (r : Rule) (data : List Byte) : State :=
  let n := r.counter + 1
  let t := s.alFree
  let a := r.ring.toNat + 1024 * ((n - 1).toNat % r.nrec)
  let b := if r.mode = 1 then some (r.port, r.prule, data) else none
  { (s.setRule q { r with counter := n }) with
    alFree := t + 17,
    alWrites := s.alWrites ++ [⟨t + 15, a, data, none⟩, ⟨t + 16, r.cnt.toNat, leBytes 4 n.toNat, b⟩] }

/-! ## Matching (R345) -/

/-- `decide` of R345 at event time `te`. After a record, what is left is tried again; `fuel` bounds the records. -/
def State.alDecide (s : State) (q : Nat) (te : W64) (part : Bool) : Nat → State
  | 0 => s
  | fuel + 1 =>
    let r := s.rule q
    let ms := r.streams
    let ref := s.near (ms.getD r.refpos 0) r.floor r.topen
    let anchor := match ref with
      | some e => e.tstart
      | none => r.topen
    let cs := ms.map fun st => (st, (s.near st r.floor anchor).filter fun e => decide (dist e.tstart anchor ≤ r.delta))
    let whole := ref.isSome && cs.all fun c => c.2.isSome
    if whole || part then
      let s := { s with free := s.free + 1 }.alRecord q r (fuseBytes q r (r.counter + 1) (!whole) anchor cs s.free)
      let r := s.rule q
      let r := { (r.setPend false) with
        npart := if whole then r.npart else satInc r.npart, floor := anchor + BitVec.ofNat 64 r.delta }
      let live := ms.flatMap fun st => s.liveEntries st r.floor
      match live with
      | [] => s.setRule q r
      | e :: l =>
        let t := l.foldl (fun a e => Nat.min a e.tstart.toNat) e.tstart.toNat
        (s.setRule q { (r.setPend true) with topen := BitVec.ofNat 64 t, dl := te + BitVec.ofNat 64 r.dead }).alDecide q te
          false fuel
    else s

/-- A rule is tested for a recorded entry of a member (R345). -/
def State.testRule (s : State) (q : Nat) (e : AlmEntry) (te : W64) : State :=
  let s := { s with alFree := s.alFree + 2 }
  let r := s.rule q
  if e.tstart.toNat ≤ r.floor.toNat then s.setRule q { r with ign := satInc r.ign }
  else
    let s := if r.pend then s
      else s.setRule q { (r.setPend true) with topen := e.tstart, dl := te + BitVec.ofNat 64 r.dead }
    s.alDecide q te false 65

/-- FRAME_RECORDING: the unit reads the slot's header, writes the almanac entry, and tests every armed rule that names the stream, in
ascending rule order (R337). -/
def execFrameRecording (sid : StreamId) (s : State) : Answer :=
  let st := sid.val
  let u := s.stream st
  match u.recs with
  | [] => .next s
  | f :: rest =>
    if !s.alReady (f.clk, 0, st) then .next s
    else
      let d (i : Nat) : Nat := memDword s.mem f.addr i
      let e : AlmEntry :=
        { frame := BitVec.ofNat 64 (d 0), tstart := BitVec.ofNat 64 (d 1), tend := BitVec.ofNat 64 (d 2), trec := f.te,
          slot := BitVec.ofNat 8 f.idx, rows := BitVec.ofNat 16 (bitsOf (d 3) 47 32),
          ndrop := BitVec.ofNat 16 (bitsOf (d 4) 15 0), nlate := BitVec.ofNat 16 (bitsOf (d 4) 31 16),
          ncorr := BitVec.ofNat 16 (bitsOf (d 4) 47 32) }
      let s := (s.setStream st { u with recs := rest }).setAlm st ((e.frame - 1).toNat % 4) e
      let s := { s with alFree := s.clk + 4 }
      .next ((List.range 64).foldl (fun s q =>
        if (s.rule q).armed && (s.rule q).streams.contains st then s.testRule q e f.te else s) s)

/-- RULE_DEADLINE: device time has passed the DL of a rule with a pending match, and it decides, possibly in part (R345). -/
def execRuleDeadline (q : RuleId) (s : State) : Answer :=
  let r := s.rule q.val
  match r.dlAt with
  | none => .next s
  | some (clk, te) =>
    if r.pend && s.alReady (clk, 1, q.val) then .next (({ s with alFree := s.clk + 2 }).alDecide q.val te true 65)
    else .next s

/-! ## Broadcasts (R349) -/

/-- BROADCAST_RECEIPT: a complete broadcast for a mirror rule becomes that rule's next record, with PEER set; for another rule it is
dropped and counted. -/
def execBroadcastReceipt (p : LinkId) (s : State) : Answer :=
  let l := s.link p.val
  match l.rxReady with
  | [] => .next s
  | (q, data, clk) :: rest =>
    if !s.alReady (clk, 3, p.val) then .next s
    else
      let s := s.setLink p.val { l with rxReady := rest }
      let r := s.rule q
      if r.st = 3 then
        let d0 := leNat (data.take 8)
        let d0 := (r.counter + 1).toNat * 2 ^ 32 + (d0 % 2 ^ 32 - d0 / 2 ^ 25 % 2 * 2 ^ 25 + 2 ^ 25)
        .next (({ s with alFree := s.clk }).alRecord q r (leBytes 8 d0 ++ data.drop 8))
      else .next { s with bdrop := satInc s.bdrop, alFree := s.clk + 1 }

/-! ## Commands (R340, R342, R350) -/

/-- The word of the alignment command at the head of a context's queue. -/
def Context.alWord (x : Context) : Nat :=
  match x.alq with
  | e :: _ => e.w.toNat
  | [] => 0

/-- The number of that command since dispatch (R350). -/
def Context.alCmd (x : Context) : Nat :=
  match x.alq with
  | e :: _ => e.num
  | [] => 0

/-- A fault of the command at the head of the queue in focus (R350): it stays there, and the unit is free in the next clock. -/
def State.alFault (s : State) (unit : Nat) (f : FaultInfo) : State :=
  let n := (s.ctx s.focus).alCmd % 2 ^ 32
  ({ s with alFree := s.clk + 1 }).raise s.focus 5 unit (BitVec.ofNat 64 (n % 4 * 2 ^ 32 + n)) f

/-- A fault with dword 0 of the command in DETAIL0 (R350). -/
def State.alBad (s : State) (code det1 : Nat) : FaultInfo :=
  ⟨code, 0, 0, BitVec.ofNat 64 ((s.ctx s.focus).alWord % 2 ^ 64), BitVec.ofNat 64 det1⟩

/-- A memory fault of a command (R72, R350): PATH 5, CLASS 0. -/
def alMemFault (code addr size : Nat) : FaultInfo := memFault code addr (memDet0 false false true 0 false pathAL 0 size)

/-- The pusher's partition is granted a rule (R357). -/
def State.granted (s : State) (q : Nat) : Bool :=
  match (s.ctx s.focus).job with
  | some j => (s.part j.part).prules.getLsbD q
  | none => false

/-- A command for rule `q`, in any STATE or only in STATE 0, with its own check: its effect as a whole and the clocks it takes, or
its fault (R342, R350). -/
def State.alCommand (s : State) (q : BitVec 6) (any : Bool) (check : Rule → Option (Nat × FaultInfo)) (cost : Nat)
    (eff : State → State) : Answer :=
  let r := s.rule q.toNat
  if !s.granted q.toNat then .next (s.alFault 0 (s.alBad 0x0702 2))
  else if !any && r.st != 0 then .next (s.alFault 0 (s.alBad 0x0702 1))
  else
    match check r with
    | some (unit, f) => .next (s.alFault unit f)
    | none =>
      .next (eff (({ s with alFree := s.clk + cost }).modCtx s.focus fun x => { x with alq := x.alq.tail }))

/-- Sets the definition of a rule. -/
def State.define (s : State) (q : BitVec 6) (check : Rule → Option (Nat × FaultInfo)) (f : Rule → Rule) : Answer :=
  s.alCommand q false check 1 fun s => s.setRule q.toNat (f (s.rule q.toNat))

/-- The member byte `i` of a dword: none with V = 0 (R340). -/
def memberAt (m : W64) (i : Nat) : Option Nat :=
  let b := (m.toNat / 256 ^ i) % 256
  if 128 ≤ b then some (b % 128) else none

/-- `fmem`: eight member positions. -/
def execFmem (rule : BitVec 6) (part : Bool) (members : W64) (s : State) : Answer :=
  s.define rule (fun _ => none) fun r =>
    { r with members := r.members.zipIdx.map fun m => if m.2 / 8 = part.toNat then memberAt members (m.2 % 8) else m.1 }

/-- `ftol`. -/
def execFtol (rule : BitVec 6) (refpos : BitVec 4) (delta dead : W32) (s : State) : Answer :=
  s.define rule (fun _ => none) fun r => { r with refpos := refpos.toNat, delta := delta.toNat, dead := dead.toNat }

/-- The address fault, the access-path fault or the alignment fault of a ring or counter address (R59, R2, R342). -/
def alAddrFault (a n align : Nat) : Option (Nat × FaultInfo) :=
  match addrFault a n with
  | some f => some (0, alMemFault 0x0101 f n)
  | none =>
    match regionOf a with
    | some (.granary, _) => if a % align = 0 then none else some (0, alMemFault 0x0104 a n)
    | _ => some (0, alMemFault 0x0105 a n)

/-- `fring`: the ring of NRECM1 + 1 records. -/
def execFring (rule : BitVec 6) (nrecm1 : Byte) (ring : Addr) (s : State) : Answer :=
  s.define rule (fun _ => alAddrFault ring.toNat (1024 * (nrecm1.toNat + 1)) 1024) fun r =>
    { r with ring := ring, nrec := nrecm1.toNat + 1, ringSet := true }

/-- `fcnt`. -/
def execFcnt (rule : BitVec 6) (cnt : Addr) (s : State) : Answer :=
  s.define rule (fun _ => alAddrFault cnt.toNat 4 4) fun r => { r with cnt := cnt, cntSet := true }

/-- `fpeer`. -/
def execFpeer (rule prule : BitVec 6) (mode : BitVec 2) (port : Bool) (s : State) : Answer :=
  s.define rule (fun _ => none) fun r => { r with mode := mode.toNat, port := port.toNat, prule := prule.toNat }

/-- What stops `farm`: the incomplete rule, then the leases of the ring and the counter, then a read-only range among them (R342,
R343, R28, R69; log entry 86). -/
def State.armFault (s : State) (r : Rule) : Option (Nat × FaultInfo) :=
  let ls := (s.ctx s.focus).leases
  let n := 1024 * r.nrec
  let f (code size : Nat) (a : Nat) : Nat × FaultInfo := (0, alMemFault code a size)
  match r.incomplete with
  | some (k, st) => some (st, s.alBad 0x0703 k)
  | none =>
    (((leaseFault ls false true r.ring.toNat n).map (f 0x0102 n)).or ((leaseFault ls false true r.cnt.toNat 4).map (f 0x0102 4))).or
      (((roFault s.ro r.ring.toNat n).map (f 0x0103 n)).or ((roFault s.ro r.cnt.toNat 4).map (f 0x0103 4)))

/-- `farm`: FLOOR is the acceptance time; the counter becomes 0 in the next clock (R342). -/
def execFarm (rule : BitVec 6) (s : State) : Answer :=
  s.alCommand rule false s.armFault 2 fun s =>
    let r := s.rule rule.toNat
    { (s.setRule rule.toNat
        { r with st := if r.mode = 2 then 3 else 1, pend := false, dlAt := none, floor := s.now, counter := 0 }) with
      alWrites := s.alWrites ++ [⟨s.clk + 1, r.cnt.toNat, leBytes 4 0, none⟩] }

/-- `fdis`: STATE 0; a pending match goes without a record. -/
def execFdis (rule : BitVec 6) (s : State) : Answer :=
  s.alCommand rule true (fun _ => none) 1 fun s =>
    let r := s.rule rule.toNat
    s.setRule rule.toNat { r with st := 0, pend := false, dlAt := none }

/-- `fforce`: a deadline for a rule with PEND = 1. -/
def execFforce (rule : BitVec 6) (s : State) : Answer :=
  s.alCommand rule true (fun _ => none) 1 fun s =>
    if (s.rule rule.toNat).pend then ({ s with alFree := s.alFree + 2 }).alDecide rule.toNat s.now true 65 else s

/-! ## The unit's clock (R141, R344) -/

/-- A broadcast leaves on port `p` as 32 flits, each to be acknowledged (R349). -/
def Link.cast (l : Link) : Link :=
  { l with flitNo := l.flitNo + 32, bcast := l.bcast ++ [(List.range 32).map (l.flitNo + ·)] }

/-- A write of the unit (R28, R69). -/
def State.alStore (s : State) (w : AlWrite) : State := s.storeRo w.addr w.data

/-- The writes that are due perform; a broadcast follows its counter advance, or is abandoned and counted (R347, R349). -/
def State.alFlush (s : State) : State :=
  let due := s.alWrites.filter fun w => decide (w.due ≤ s.clk)
  let s := { s with alWrites := s.alWrites.filter fun w => decide (s.clk < w.due) }
  due.foldl (fun s w =>
    let s := s.alStore w
    match w.bcast with
    | none => s
    | some (p, q, d) =>
      if (s.link p).up then (s.setLink p (s.link p).cast).send (.broadcast p q d)
      else { s with bfail := satInc s.bfail }) s

/-- Every access that the sequencer issued before the push of an entry has performed (R342). -/
def Context.pushedAfter (x : Context) (e : AlEntry) : Bool :=
  (x.loads.all fun l => !l.host || decide (e.after ≤ l.num)) && x.ex.held.all fun h => h.store?.all fun u => decide (e.after ≤ u.2)

/-- The context whose head command the unit takes next: the oldest by push clock, then by core and context (R141), of those whose
accesses before the push have performed (R342); it passes over an older head that still waits for its own (log entry 83). -/
def State.alNext (s : State) : Option CtxId :=
  let cand := s.ctxs.filterMap fun p =>
    match p.2.alq with
    | e :: _ => if decide (e.born < s.clk) && !p.2.alHalted && p.2.pushedAfter e then some (e.born, p.1) else none
    | [] => none
  (cand.foldl (fun best c =>
    match best with
    | none => some c
    | some b => if c.1 < b.1 ∨ (c.1 = b.1 ∧ c.2 < b.2) then some c else some b) none).map fun c => ctxOf c.2

/-- The meanings of the commands, for the decoder (R340). -/
def alMeanings : AlCases (State → Answer) :=
  ⟨execFmem, execFtol, execFring, execFcnt, execFpeer, execFarm, execFdis, execFforce⟩

/-- DETAIL1 of an illegal command: 1 for its OP, 2 for a field (R350). -/
def alReason (w : Nat) : Nat := if 1 ≤ w % 256 ∧ w % 256 ≤ 8 then 2 else 1

/-- A command is accepted for the context in focus. -/
def State.alAccept (s : State) : Answer :=
  let w := (s.ctx s.focus).alWord
  match decodeAlWith alMeanings w with
  | some f => f s
  | none => .next (s.alFault 0 (s.alBad 0x0701 (alReason w)))

/-- The first event that waits is processed. -/
def State.alEvent (s : State) (e : Nat × Nat × Nat) : Answer :=
  match e.2.1 with
  | 0 => execFrameRecording ⟨e.2.2 % 128, Nat.mod_lt _ (by decide)⟩ s
  | 1 => execRuleDeadline ⟨e.2.2 % 64, Nat.mod_lt _ (by decide)⟩ s
  | _ => execBroadcastReceipt ⟨e.2.2 % 2, Nat.mod_lt _ (by decide)⟩ s

/-- The first clock before `hi` in which device time has reached `t`, in units of 1/6000000 ns, with its time then, from the stretches of
its course. -/
def firstReach (t : Nat) : List (Nat × Nat × Nat) → Nat → Option (Nat × Nat)
  | [], _ => none
  | (c, u, gain) :: r, hi =>
    match firstReach t r c with
    | some v => some v
    | none =>
      let k := if t ≤ u then 0 else cdiv (t - u) gain
      if c + k < hi then some (c + k, u + k * gain) else none

/-- The first clock in which device time exceeded a deadline that it has passed, and its time then in ns (R344). -/
def State.passedAt (s : State) (dl : W64) : Nat × W64 :=
  match firstReach ((dl.toNat + 1) * 6000000) s.timeLog (s.clk + 1) with
  | some v => (v.1, BitVec.ofNat 64 (v.2 / 6000000))
  | none => (s.clk, s.now)

/-- Device time has passed the deadline of a rule: the event's clock and time are kept (R344). -/
def State.noteDeadlines (s : State) : State :=
  { s with
    rules := s.rules.map fun p =>
      (p.1, if p.2.pend && p.2.dlAt.isNone && decide (p.2.dl.toNat < s.now.toNat) then { p.2 with dlAt := some (s.passedAt p.2.dl) }
        else p.2) }

end Sys2Proof.Machine
end

