-- ==== Sys2Proof/Machine/Sched.lean ====
section
/-! DEFINITION. The scheduler's queues and launches: doorbells (R354), admission (R358 to R360), preparation (R29, R65, R153, R368),
completion and successors (R361, R362), exception queues (R371) and interrupts (R373). -/

namespace Sys2Proof.Machine

/-! ## Registers of a queue (R355) -/

/-- EN, FG and SWAP of QCFG. -/
def Queue.en (q : Queue) : Bool := q.qcfg.getLsbD 63
def Queue.fg (q : Queue) : Bool := q.qcfg.getLsbD 61
def Queue.swap (q : Queue) : Bool := q.qcfg.getLsbD 60
/-- ACTM1, RSV, CEIL and PRIO. -/
def Queue.actm1 (q : Queue) : Nat := bitsOf q.qcfg.toNat 51 48
def Queue.rsv (q : Queue) : Nat := bitsOf q.qcfg.toNat 47 40
def Queue.ceil (q : Queue) : Nat := bitsOf q.qcfg.toNat 6 4
def Queue.prio (q : Queue) : Nat := bitsOf q.qcfg.toNat 2 0
/-- T1, T2, T3 in µs and WDEN. -/
def Queue.t1 (q : Queue) : Nat := bitsOf q.qwda.toNat 31 0
def Queue.t2 (q : Queue) : Nat := bitsOf q.qwda.toNat 63 32
def Queue.t3 (q : Queue) : Nat := bitsOf q.qwdb.toNat 31 0
def Queue.wden (q : Queue) : Bool := q.qwdb.getLsbD 32
/-- Entries of the exception ring, and its place. -/
def Queue.xsize (q : Queue) : Nat := 2 ^ bitsOf q.qxring.toNat 63 60
def Queue.xbase (q : Queue) : Nat := bitsOf q.qxring.toNat 47 0
/-- CVEC, XVEC and COAL. -/
def Queue.xvec (q : Queue) : Nat := bitsOf q.qint.toNat 42 32
def Queue.cvec (q : Queue) : Nat := bitsOf q.qint.toNat 26 16
def Queue.coal (q : Queue) : Nat := bitsOf q.qint.toNat 9 0

/-- Clusters of a partition (R356), and its RGLIM. -/
def Part.clust (p : Part) : Nat := bitsOf p.pclu.toNat 11 0
def Part.rglim (p : Part) : Nat := bitsOf p.pclu.toNat 63 48
/-- No work item is dispatched on the partition's cores (R376, R377). -/
def Part.barred (p : Part) : Bool := !p.drains.isEmpty || p.resetting.isSome

/-! ## Launch records (R22, R23, R359) -/

/-- Dword `i` of a launch's record. -/
def Launch.d (l : Launch) (i : Nat) : Nat := recDw l.dw i
/-- OP of a record. -/
def recOp (dw : List W64) : Nat := bitsOf (recDw dw 0) 7 0
/-- The six field widths, outermost first (R19). -/
def recWidths (dw : List W64) : List Nat := (List.range 6).map fun i => bitsOf (recDw dw 0) (29 + 6 * i) (24 + 6 * i)

/-- Dword 0 keeps R22 and R23. -/
def recHeadOk (dw : List W64) : Bool :=
  let d := recDw dw 0
  let s := (recWidths dw).foldl (· + ·) 0
  bitsOf d 63 60 == 0 && bitsOf d 15 8 == 1 && decide (s ≤ 64) && decide (bitsOf d 23 20 ≤ 8) && bitsOf d 18 16 != 7

/-- SIGNAL, LEASES, IMAGE and GRAPH keep R22 and R23. -/
def recSignalOk (dw : List W64) : Bool := decide (recDw dw 5 < 2 ^ 48) && decide (recDw dw 5 % 32 = 0)
def recLeasesOk (dw : List W64) : Bool :=
  bitsOf (recDw dw 6) 63 60 == 0 && (bitsOf (recDw dw 6) 59 48 == 0 || decide (recDw dw 6 % 16 = 0))
def recImageOk (dw : List W64) : Bool := decide (recDw dw 2 < 2 ^ 48) && decide (recDw dw 2 % 4096 = 0)
def recGraphOk (dw : List W64) : Bool := decide (recDw dw 8 < 2 ^ 48) && decide (recDw dw 8 % 64 = 0)

/-- A kernel launch record is well formed (R23). -/
def recKernelOk (dw : List W64) : Bool :=
  let d := recDw dw
  let s := (recWidths dw).foldl (· + ·) 0
  recHeadOk dw && decide (d 1 < 2 ^ s) && recImageOk dw && decide (d 3 < 2 ^ 16) && bitsOf (d 4) 31 27 == 0 &&
    decide (1 ≤ bitsOf (d 4) 8 0) && decide (bitsOf (d 4) 8 0 ≤ bitsOf (d 4) 17 9) &&
    decide (bitsOf (d 4) 17 9 ≤ bitsOf (d 4) 26 18) && decide (bitsOf (d 4) 26 18 ≤ 256) && bitsOf (d 4) 63 48 != 0 &&
    recSignalOk dw && recLeasesOk dw && decide (d 7 < 2 ^ 48) && decide (d 7 % 8 = 0) && recGraphOk dw &&
    decide (d 10 < 256) && [11, 12, 13, 14, 15].all fun i => d i == 0

/-- A null launch record is well formed (R359). -/
def recNullOk (dw : List W64) : Bool :=
  recHeadOk dw && recSignalOk dw && recGraphOk dw && [1, 2, 3, 4, 6, 7, 10, 11, 12, 13, 14, 15].all fun i => recDw dw i == 0

/-- The parts of a mill configuration record that admission checks (R311, R359). -/
def recMillOk (dw : List W64) : Bool :=
  decide (recDw dw 0 = 0x0103) && recImageOk dw && recSignalOk dw && recLeasesOk dw && recGraphOk dw

/-- A record is well formed (R23, R359). -/
def recOk (dw : List W64) : Bool :=
  match recOp dw with
  | 1 => recKernelOk dw
  | 2 => recNullOk dw
  | 3 => recMillOk dw
  | _ => false

/-- The record at count `n` of a queue (R353). -/
def State.recordAt (s : State) (q : Nat) (n : W32) : List W64 :=
  let u := s.queue q
  (List.range 16).map fun i => BitVec.ofNat 64 (memDword s.mem (u.base + 128 * (n.toNat % u.size)) i)

/-! ## Records of the scheduler (R363) -/

/-- A scheduler record: ENG 6. -/
def schedRec (s : State) (st code : Nat) (lseq : W32) : FaultRec :=
  { state := st, unit := 0, core := 0xFF, ctx := false, eng := 6, code := code, wid := 0, time := s.now, loc := 0, addr := 0,
    det0 := 0, det1 := 0, lseq := lseq }

/-! ## Doorbells (R353, R354) -/

/-- DOORBELL: QDB moves TAIL of a host-fed queue, or the queue freezes, with HEAD as LSEQ of its record (log entry 98); a device-fed
queue discards the write and counts it. In recovery the block does not respond (R389). -/
def execDoorbell (qid : QId) (v : W32) (s : State) : Answer :=
  let q := qid.val
  let u := s.queue q
  if s.phaseDev = 3 then .next s
  else if !u.hostFed then .next (s.countRsvw true)
  else if (v - u.head).toNat ≤ u.size ∧ (v - u.tail).toNat ≤ u.size then
    let new := (List.range (v - u.tail).toNat).map fun i => (u.tail + BitVec.ofNat 32 i, s.clk)
    .next (s.setQueue q { u with tail := v, born := u.born ++ new })
  else
    .next ((s.addFault q (.queue q) { schedRec s 3 0x0802 u.head with det1 := v.zeroExtend 64 }).freezeQueue q)

/-! ## Completion (R361, R362, R373) -/

/-- The 32 bytes of a completion signal (R362). -/
def signalBytes (value tstart tend : W64) (code : BitVec 16) (canc : Bool) : List Byte :=
  leBytes 8 value.toNat ++ leBytes 8 tstart.toNat ++ leBytes 8 tend.toNat ++ leBytes 8 (canc.toNat * 2 ^ 16 + code.toNat)

/-- Writes bytes under firmware's leases: to DRAM, the granary or the host window; elsewhere nothing can be written. -/
def State.fwWrite (s : State) (a : Nat) (l : List Byte) : State :=
  if rangeInDevice a l.length then s.storeRo a l
  else if inHost a then s.send (.hostWrite (s.bus a) l false) else s

/-- A launch that waits for its graph record reads DEP and ERR there (R360). -/
def State.graphWord (s : State) (g : Nat) : Nat × Nat :=
  let d := memDword s.mem g 0
  (d / 2 ^ 32, d % 2 ^ 32)

/-- A graph record keeps R360. -/
def State.graphOk (s : State) (g : Nat) : Bool :=
  let d1 := memDword s.mem g 1
  let n := bitsOf d1 59 48
  let a := bitsOf d1 47 0
  rangeInDevice g 64 && bitsOf d1 63 60 == 0 && ((List.range 6).all fun i => memDword s.mem g (2 + i) == 0) &&
    (n == 0 || (decide (a % 8 = 0) && rangeInDevice a (8 * n)))

/-- A launch whose dependences may be met moves on (R358): cancelled with its token; a null launch completes; a mill record goes to
its stream (R312); a kernel launch is prepared. -/
def State.depsMet (s : State) (l : Launch) : State :=
  let g := l.d 8
  let w := if g = 0 then (0, 0) else s.graphWord g
  if l.st ≠ .waiting ∨ w.2 ≠ 0 then s
  else if w.1 ≠ 0 then
    let t := tabFind s.zeroed g
    s.modLaunch l.q l.lseq fun l =>
      { l with st := .completing, code := BitVec.ofNat 16 w.1, canc := true, tstart := none,
               tend := some (t.getD s.now) }
  else if recOp l.dw = 2 then s.modLaunch l.q l.lseq fun l => { l with st := .completing, tend := some s.now }
  else if recOp l.dw = 3 then
    let st := recStream l.dw
    (s.modStream st fun u => { u with pending := u.pending ++ [(l.q, l.lseq, l.dw)] }).modLaunch l.q l.lseq fun l =>
      { l with st := .ready }
  else s.modLaunch l.q l.lseq fun l => { l with st := .preparing }

/-- Every launch that waits on a graph record is looked at again. -/
def State.wakeGraph (s : State) (g : Nat) : State :=
  (s.launches.filter fun l => l.d 8 == g).foldl (fun s l => s.depsMet l) s

/-- One successor: its token and its count, in one access (R361); a bad address is a graph fault (R363). -/
def State.successor (s : State) (q : Nat) (lseq : W32) (code : Nat) (tend : W64) (a : Nat) : State :=
  if a % 64 ≠ 0 ∨ rangeInDevice a 64 = false then
    s.addFault q (.queue q) { schedRec s 2 0x080A lseq with addr := BitVec.ofNat 64 (a % 2 ^ 48) }
  else
    let w := s.graphWord a
    let err := if code ≠ 0 ∧ w.1 = 0 then code else w.1
    let dep := w.2 - 1
    let s := s.storeRo a (leBytes 8 (err * 2 ^ 32 + dep))
    if w.2 ≠ 0 ∧ dep = 0 then ({ s with zeroed := tabSet s.zeroed a tend }).wakeGraph a else s

/-- The successors of a graph record, ascending (R361). -/
def State.successors (s : State) (q : Nat) (lseq : W32) (g code : Nat) (tend : W64) : State :=
  let d1 := memDword s.mem g 1
  let n := bitsOf d1 59 48
  let a := bitsOf d1 47 0
  if n = 0 then s
  else if a % 8 ≠ 0 ∨ rangeInDevice a (8 * n) = false then
    s.addFault q (.queue q) { schedRec s 2 0x080A lseq with addr := BitVec.ofNat 64 a }
  else (List.range n).foldl (fun s i => s.successor q lseq code tend (memDword s.mem a i)) s

/-- A completion enters coalescing (R373). -/
def State.coalesce (s : State) (q : Nat) : State :=
  let u := s.queue q
  s.setQueue q { u with
    coalPending := u.coalPending + 1,
    coalAt := if u.coalPending = 0 then some (s.now + BitVec.ofNat 64 (1000 * u.coal)) else u.coalAt }

/-- The completion of a record: its signal, its successors, its interrupt, in this order (R362). -/
def State.completeRecord (s : State) (q : Nat) (lseq : W32) (dw : List W64) (code : BitVec 16) (canc : Bool)
    (tstart tend : W64) : State :=
  let s := s.fwWrite (recDw dw 5) (signalBytes (dw.getD 9 0) tstart tend code canc)
  let g := recDw dw 8
  (if g = 0 then s else s.successors q lseq g code.toNat tend).coalesce q

/-- The completion of a record answered with skip or abort: signal and successors only where the fields SIGNAL and GRAPH allow them
(R22, R354). -/
def State.completeBad (s : State) (q : Nat) (lseq : W32) (dw : List W64) (code : BitVec 16) : State :=
  let a := bitsOf (recDw dw 5) 47 0
  let g := bitsOf (recDw dw 8) 47 0
  let s := if a % 32 = 0 ∧ rangeInDevice a 32 = true then
      s.storeRo a (signalBytes (dw.getD 9 0) s.now s.now code false) else s
  (if g ≠ 0 ∧ g % 64 = 0 ∧ rangeInDevice g 64 = true then s.successors q lseq g code.toNat s.now else s).coalesce q

/-- Number of work items of a record (R20). -/
def recFields (dw : List W64) (wid : Nat) : List Nat :=
  let ws := recWidths dw
  (List.range 6).map fun f => wid / 2 ^ ((ws.drop (f + 1)).foldl (· + ·) 0) % 2 ^ ws.getD f 0
/-- The number of values of each field (R20). -/
def recRadix (dw : List W64) : List Nat := (recFields dw (recDw dw 1)).map (· + 1)
def recTotal (dw : List W64) : Nat := (recRadix dw).foldl (· * ·) 1

/-- Every work item of a launch has ended (R358). -/
def Launch.finished (l : Launch) : Bool :=
  l.items.length == recTotal l.dw && l.items.all fun i => i.st == .ended || i.st == .killed

/-- A launch can complete: one in COMPLETING that has its stamp, as an applied mill record has from the next clock on (R312), or one in
RUNNING whose work items have all ended (R358). -/
def Launch.ends (l : Launch) : Bool := (l.st == .completing && l.tend.isSome) || (l.st == .running && l.finished)

/-- LAUNCH_COMPLETE: a launch in COMPLETING, or one in RUNNING whose work items have all ended, completes: its code is its own, or
that of its first STATE 2 record (R33, R358, R362). It is then DONE, and its leases end (R29). -/
def execLaunchComplete (qid : QId) (lseq : W32) (s : State) : Answer :=
  match s.launchOf qid.val lseq with
  | none => .next s
  | some l =>
    if l.ends then
      let code := if l.st = .completing then l.code
        else match l.err with
          | some e => BitVec.ofNat 16 e
          | none => 0
      let tend := l.tend.getD s.now
      let s := { s with launches := s.launches.filter fun m => !(m.q == l.q && m.lseq == l.lseq) }.dropImages
      .next (s.completeRecord l.q l.lseq l.dw code l.canc (l.tstart.getD tend) tend)
    else .next s

/-- COALESCING_TIMER: the timer of a queue expires; CVEC is raised once for every completion pending (R373). -/
def execCoalescingTimer (qid : QId) (s : State) : Answer :=
  let q := qid.val
  let u := s.queue q
  match u.coalAt with
  | none => .next s
  | some t =>
    if s.now.toNat < t.toNat then .next s
    else
      let s := s.setQueue q { u with coalPending := 0, coalAt := none }
      .next ((List.range u.coalPending).foldl (fun s _ => s.sendMsix u.cvec) s)

/-! ## Admission (R358 to R360) -/

/-- Launches of a queue between WAITING and COMPLETING. -/
def State.activeOf (s : State) (q : Nat) : Nat := (s.launches.filter fun l => l.q == q).length

/-- In reduced service a record may have to wait at the head of its queue: a mill record for a stream not in service, and a launch
whose partition has no cluster in service, that is not cluster 0 (R392). -/
def State.heldBack (s : State) (q : Nat) (dw : List W64) : Bool :=
  s.phaseDev == 1 &&
    (if recOp dw = 3 then !([0, 4, 8, 12].contains (recStream dw))
    else !(s.part (s.queue q).part).pclu.getLsbD 0)

/-- A new launch (R359, R364). -/
def State.newLaunch (s : State) (q : Nat) (dw : List W64) : Launch :=
  let u := s.queue q
  { q := q, lseq := u.head, dw := dw, st := .waiting, prio := u.prio,
    appended := match u.born.find? fun b => b.1 == u.head with
      | some b => b.2
      | none => s.clk,
    leases := [], kernel := none, items := [], groups := [], tstart := none, code := 0, err := none, canc := false,
    tend := none, fired := 0, idleFrom := s.now, noFree := none }

/-- HEAD passes an admitted record. -/
def Queue.pass (u : Queue) : Queue := { u with head := u.head + 1, born := u.born.filter fun b => b.1 != u.head }

/-- A mill record that reaches its stream now: no dependence is left (R312, R359). -/
def State.millNow (s : State) (dw : List W64) : Bool :=
  let g := recDw dw 8
  recOp dw == 3 && (g == 0 || s.graphWord g == (0, 0))

/-- No other record of a stream waits, and no frame is in flight: a record is applied at once (R312). -/
def Stream.idle (u : Stream) : Bool := u.pending.isEmpty && u.quiet

/-- A launch joins the admitted ones. -/
def State.admission (s : State) (q : Nat) (l : Launch) : State :=
  { (s.setQueue q (s.queue q).pass) with launches := s.launches ++ [l] }

/-- A well-formed head record is admitted: a bad graph record completes it with the graph error; a mill record is refused where it stands,
or has passed: it is applied at once if it reaches its stream now and that is idle; else its dependences decide, and it becomes pending
(R312, R334, R359, R360, log entry 50). -/
def State.admitOk (s : State) (q : Nat) (dw : List W64) : State :=
  let l := s.newLaunch q dw
  let g := l.d 8
  if g ≠ 0 ∧ s.graphOk g = false then
    s.admission q { l with st := .completing, code := 0x080A, tend := some s.now, dw := dw.set 8 0 }
  else if recOp dw = 3 then
    let st := recStream dw
    let now := s.millNow dw && (s.stream st).idle
    match s.millCheck dw with
    | .bad b => s.refuseMill q l.lseq st b
    | .off => if now then (s.applyOff st).admission q l.applied else (s.admission q l).depsMet l
    | .on m im => if now then (s.applyMill st m im).admission q l.applied else (s.admission q l).depsMet l
  else (s.admission q l).depsMet l

/-- LAUNCH_ADMIT: an enabled queue that is not frozen and has room among its admitted launches takes up its head record; a malformed
one freezes it (R23, R359). While a live update pauses admission, none is taken (R382). -/
def execLaunchAdmit (qid : QId) (s : State) : Answer :=
  let q := qid.val
  let u := s.queue q
  if !u.en || u.frozen || u.count == 0 || decide (u.actm1 + 1 ≤ s.activeOf q) || s.pausedAt.isSome || s.phaseDev == 3 then .next s
  else
    let dw := s.recordAt q u.head
    if !recOk dw then
      let a := u.base + 128 * (u.head.toNat % u.size)
      .next ((s.addFault q (.queue q) { schedRec s 3 0x0801 u.head with loc := BitVec.ofNat 64 a }).freezeQueue q)
    else if s.heldBack q dw then .next s
    else .next (s.admitOk q dw)

/-! ## Preparation (R29, R65, R68, R153, R368) -/

/-- The views of a kernel lie inside the register region, and their counts inside R153. -/
def viewsOk (k : Kernel) (cv1 : Nat) : Bool :=
  decide (k.vn ≤ 128) && decide (k.an ≤ 255) && decide (k.mn ≤ 512) &&
    (k.vn == 0 || decide (256 * k.vbase + 256 * k.vn ≤ cv1 * 4096)) &&
    (k.an == 0 || decide (4096 * k.abase + 4096 * k.an ≤ cv1 * 4096)) &&
    (k.mn == 0 || decide (2048 * k.mbase + 2048 * k.mn ≤ cv1 * 4096))

/-- The error code that ends preparation, or the leases and the kernel with its image (R358). -/
def State.prepare (s : State) (l : Launch) : Sum Nat (List Lease × Image × Kernel) :=
  match leaseList s.mem (l.d 6) with
  | none => .inl 0x0803
  | some ls =>
    match s.imageOf (l.d 2) with
    | none => .inl 0x0804
    | some g =>
      let i := bitsOf (l.d 3) 15 0
      if g.nkern ≤ i then .inl 0x0804
      else
        let k := g.kernel s.mem i
        let u := s.queue l.q
        let lim := (s.part u.part).rglim
        if !viewsOk k (bitsOf (l.d 4) 8 0) then .inl 0x0805
        else if !u.fg && lim != 0 && decide (lim < bitsOf (l.d 4) 63 48) then .inl 0x0806
        else .inr (ls, g, k)

/-- The ranges that firmware holds marked as compressed tensors from now on: read-only whatever their lease (R69, log entry 93). -/
def State.markTensors (s : State) (l : List (Addr × W32)) : State :=
  { s with ro := s.ro.filter s.verified.contains ++ l.map fun p => ⟨p.1.toNat, p.2.toNat⟩ }

/-- LAUNCH_PREPARED: firmware has pinned the leases, verified the image and checked kernel, views and region bound: the launch is
ready, or completes with the error (R358, R363). Its marks of compressed tensors hold from here on (R69). A launch that still waits
looks at its dependences. -/
def execLaunchPrepared (qid : QId) (by_ : Prepared) (s : State) : Answer :=
  match s.launchOf qid.val by_.lseq with
  | none => .next s
  | some l =>
    if l.st = .preparing then
      let s := s.markTensors by_.tensors
      match s.prepare l with
      | .inl c => .next (s.modLaunch l.q l.lseq fun l => { l with st := .completing, code := BitVec.ofNat 16 c, tend := some s.now })
      | .inr (ls, g, k) => .next ((s.holdImage g).modLaunch l.q l.lseq fun l => { l with st := .ready, leases := ls, kernel := some k })
    else .next (s.depsMet l)

/-! ## Exception queues (R31, R34, R35, R371) -/

/-- The bytes of a fault record (R31). -/
def faultBytes (q : Nat) (r : FaultRec) (rseq : W32) : List Byte :=
  leBytes 8 (r.state * 2 ^ 48 + q * 2 ^ 40 + r.unit * 2 ^ 32 + r.core * 2 ^ 24 + r.ctx.toNat * 2 ^ 20 + r.eng * 2 ^ 16 + r.code) ++
    leBytes 8 r.wid.toNat ++ leBytes 8 r.time.toNat ++ leBytes 8 r.loc.toNat ++ leBytes 8 r.addr.toNat ++
    leBytes 8 r.det0.toNat ++ leBytes 8 r.det1.toNat ++ leBytes 8 (rseq.toNat * 2 ^ 32 + r.lseq.toNat)

/-- The order of R34: clock of detection, core, engine. -/
def faultLess (a b : FaultEntry) : Bool :=
  evLess (a.clk, a.r.core, a.r.eng) (b.clk, b.r.core, b.r.eng)

/-- The engine of a context that reports a fault. -/
def FaultEntry.engine? (e : FaultEntry) : Option (Nat × Nat) :=
  match e.src with
  | .ctx c => some (c, e.r.eng)
  | .old c => some (c, e.r.eng)
  | _ => none

/-- A fault may be reported: its engine has no other that is reported and awaits its answer, nor one found before it and not reported
yet (R34). -/
def State.reportable (s : State) (e : FaultEntry) : Bool :=
  e.engine?.isNone ||
    !((s.faults.any fun f => f.engine? == e.engine? && f.rseq.isSome && !f.dead) ||
      (s.faults.takeWhile (· != e)).any fun f => f.engine? == e.engine? && f.rseq.isNone)

/-- A record that waits for a slot of its queue: one that may be reported, found in an earlier clock (R34, R35). -/
def State.waitsSlot (s : State) (q : Nat) (e : FaultEntry) : Bool :=
  e.q == q && e.rseq.isNone && s.reportable e && decide (e.clk < s.clk)

/-- The next record of a queue to be written: of those not written that may be, the first by R34. -/
def State.nextFault (s : State) (q : Nat) : Option FaultEntry :=
  (s.faults.filter fun e => e.q == q && e.rseq.isNone && s.reportable e).foldl (fun best e =>
    match best with
    | none => some e
    | some b => if faultLess e b then some e else some b) none

/-- Changes the first entry equal to one. -/
def modFirst {α : Type} [DecidableEq α] (e : α) (f : α → α) : List α → List α
  | [] => []
  | a :: r => if a = e then f a :: r else a :: modFirst e f r

/-- Every record of a queue that waits for a slot is counted (R35). -/
def State.countFaults (s : State) (q : Nat) : State :=
  let f : FaultEntry → FaultEntry := fun e =>
    if s.waitsSlot q e then { e with counted := true } else e
  { s with faults := s.faults.map f }

/-- The 64-byte header of an exception ring: TAIL, OVF and zeros (R371). -/
def xheader (tail : W32) (ovf : BitVec 16) : List Byte := leBytes 8 tail.toNat ++ leBytes 8 ovf.toNat ++ List.replicate 48 0

/-- EXCEPTION_RECORD_WRITE: the next record goes to a free slot, whole, then TAIL; XVEC is raised in the clock after. The
first STATE 2 record of a launch's work items, by RSEQ, gives the launch its code (R33). With no slot
free every record that waits for one counts in OVF once and the summary interrupt is raised (R34, R35, R371, R373). A record is written
from the clock after its detection. -/
def execExceptionRecordWrite (qid : QId) (s : State) : Answer :=
  let q := qid.val
  let u := s.queue q
  match s.nextFault q with
  | none => .next s
  | some e =>
    if s.clk ≤ e.clk then .next s
    else if (u.xtail - u.xhead).toNat < u.xsize then
      let r := u.xtail
      let s := s.fwWrite (u.xbase + 64 + 64 * (r.toNat % u.xsize)) (faultBytes q e.r r)
      let s := { s with faults := modFirst e (fun e => { e with rseq := some r }) s.faults }
      let s := if e.r.state = 2 ∧ e.engine?.isSome = true then s.modLaunch q e.r.lseq fun l => l.noteErr e.r.code else s
      let s := s.setQueue q { u with xtail := r + 1 }
      let s := s.fwWrite u.xbase (xheader (r + 1) u.ovf)
      .next { s with msixDue := s.msixDue ++ [u.xvec] }
    else
      let new := (s.faults.filter fun e => s.waitsSlot q e && !e.counted).length
      if new = 0 then .next s
      else
        let o := satAdd u.ovf new
        let s := s.setQueue q { u with ovf := o }
        let s := s.countFaults q
        .next ((s.fwWrite u.xbase (xheader u.xtail o)).raiseSint sintXOVF)

/-- XHEAD_WRITE: the runtime frees slots (R371). In recovery the block does not respond (R389). -/
def execXheadWrite (qid : QId) (v : W32) (s : State) : Answer :=
  .next (if s.phaseDev = 3 then s else s.setQueue qid.val { s.queue qid.val with xhead := v })

end Sys2Proof.Machine
end

