-- ==== Sys2Proof/Machine/Dispatcher.lean ====
section
/-! DEFINITION. The hardware dispatcher: which work item runs on which context (R364 to R368), the dispatch (R25, R26, R84) and the
restart (R98), priorities (R364) and the slow swap (R369). -/

namespace Sys2Proof.Machine

/-! ## Work items (R19 to R21, R365) -/

/-- PLACE, CORES, WPOS (0 means 2) and the carve-out of a launch (R22). -/
def Launch.place (l : Launch) : Nat := bitsOf (l.d 0) 18 16
def Launch.cores (l : Launch) : Nat := bitsOf (l.d 10) 7 0
def Launch.wpos (l : Launch) : Nat := if bitsOf (l.d 0) 23 20 = 0 then 2 else bitsOf (l.d 0) 23 20
def Launch.cv1 (l : Launch) : Nat := bitsOf (l.d 4) 8 0
def Launch.cv2 (l : Launch) : Nat := bitsOf (l.d 4) 17 9
def Launch.cv3 (l : Launch) : Nat := bitsOf (l.d 4) 26 18

/-- The digits of a number in a mixed radix, most significant first. -/
def digitsOf (radix : List Nat) (n : Nat) : List Nat :=
  radix.zipIdx.map fun r => n / (radix.drop (r.2 + 1)).foldl (· * ·) 1 % r.1

/-- The identifier whose fields have these values (R19). -/
def widOf (ws fields : List Nat) : W64 :=
  BitVec.ofNat 64 ((fields.zipIdx.map fun f => f.1 * 2 ^ (ws.drop (f.2 + 1)).foldl (· + ·) 0).foldl (· + ·) 0)

/-- The number of placement groups of a launch, and of the items of one (R21). -/
def Launch.groupCount (l : Launch) : Nat := ((recRadix l.dw).take l.place).foldl (· * ·) 1
def Launch.groupSize (l : Launch) : Nat := ((recRadix l.dw).drop l.place).foldl (· * ·) 1

/-- The placement group of an identifier, counted in ascending order (R21). -/
def Launch.groupOf (l : Launch) (wid : W64) : Nat :=
  ((recFields l.dw wid.toNat).zip (recRadix l.dw) |>.take l.place).foldl (fun g f => g * f.2 + f.1) 0

/-- Items of a group that have been dispatched once. -/
def Launch.begun (l : Launch) (g : Nat) : Nat := (l.items.filter fun i => l.groupOf i.wid == g).length

/-- The identifier of item `j` of group `g` (R20, R21). -/
def Launch.itemWid (l : Launch) (g j : Nat) : W64 := widOf (recWidths l.dw) (digitsOf (recRadix l.dw) (g * l.groupSize + j))

/-- Some work item of the launch has not been dispatched. -/
def Launch.hasPending (l : Launch) : Bool := decide (l.items.length < recTotal l.dw)

/-- The group a core of a cluster serves next: the lowest open one of its cluster with undispatched items, else the lowest unopened
one (R365). -/
def Launch.nextGroup (l : Launch) (cluster : Nat) : Option Nat :=
  match (l.groups.filter fun g => g.2 == cluster && decide (l.begun g.1 < l.groupSize)).map Prod.fst with
  | g :: r => some (r.foldl Nat.min g)
  | [] => if l.groups.length < l.groupCount then some l.groups.length else none

/-- An open group of the launch in a cluster has undispatched items (R364 item 1). -/
def Launch.openIn (l : Launch) (cluster : Nat) : Bool :=
  l.groups.any fun g => g.2 == cluster && decide (l.begun g.1 < l.groupSize)

/-- Cores that hold a work item of the launch (R22 CORES). -/
def Launch.coresHeld (l : Launch) : Nat :=
  ((l.items.filter fun i => i.st == .dispatched || i.st == .discarded).map fun i => i.ctx / 2).eraseDups.length

/-! ## Contexts -/

/-- A context holds a work item, running or discarded (R364, R367). -/
def Context.holds (x : Context) : Bool := x.job.isSome && x.run != .ended

/-- A context that holds no work item. -/
def State.freeCtx (s : State) (c : CtxId) : Bool := !(s.ctx c).holds

/-- A core is in placement (R377, R380, R393), and in reduced service one of cluster 0 (R392). -/
def State.inPlacement (s : State) (g : Nat) : Bool :=
  let k := s.core g
  (s.phaseDev != 1 || decide (g < 16)) && !k.retired && !k.fenced && !k.stopped && !k.testDue

/-- The partition of a cluster, if it belongs to one (R356). -/
def State.partOf (s : State) (cluster : Nat) : Option Nat :=
  (List.range 8).find? fun p => (s.part p).pclu.getLsbD cluster && decide (cluster < 12)

/-- Cores of a partition, ascending. -/
def State.coresOf (s : State) (p : Nat) : List Nat := (List.range 192).filter fun g => (s.part p).pclu.getLsbD (g / 16)

/-- The two contexts of a core fit its pool (R64): `fg` and `bg` are their CV3. -/
def fits (fg bg : Nat) : Bool := decide (fg * 4096 + 65536 * cdiv bg 16 ≤ 2 ^ 20)

/-- CV3 of what a context holds, 0 if nothing. -/
def Context.heldCv3 (x : Context) : Nat :=
  match x.job with
  | some j => if x.holds then j.cv3 else 0
  | none => 0

/-- A carve-out of `cv3` fits beside what the other context of the core holds (R64). -/
def State.fitsOn (s : State) (c : CtxId) (cv3 : Nat) : Bool :=
  if c.bg then
    let o := s.ctx (ctxOf (c.val - 1))
    !o.holds || fits o.heldCv3 cv3
  else
    let o := s.ctx (ctxOf (c.val + 1))
    !o.holds || fits cv3 o.heldCv3

/-! ## The wheel (R84) -/

/-- The positions that contexts own. -/
def State.wheelHeld (s : State) : List Nat := s.ctxs.flatMap fun p => p.2.wheel

/-- The first free position at or after `p`, searching cyclically. -/
def wheelFrom (held : List Nat) (p : Nat) : Option Nat :=
  (List.range 512).findSome? fun i => if held.contains ((p + i) % 512) then none else some ((p + i) % 512)

/-- Inserts into an ascending list. -/
def insertAsc (p : Nat) : List Nat → List Nat
  | [] => [p]
  | a :: r => if p < a then p :: a :: r else a :: insertAsc p r

/-- The `n` positions of R84, ascending; none while fewer are free. -/
def wheelPick (held : List Nat) (n : Nat) : Option (List Nat) :=
  match wheelFrom held 0 with
  | none => none
  | some p0 =>
    (List.range n).foldl (fun acc i =>
      match acc with
      | none => none
      | some l => (wheelFrom (held ++ l) (p0 + 512 * i / n)).map fun p => insertAsc p l) (some [])

/-- The positions a work item of a launch gets: none are needed without the wheel flag (R84). -/
def State.wheelFor (s : State) (l : Launch) : Option (List Nat) :=
  match l.kernel with
  | some k => if k.wheel then wheelPick s.wheelHeld l.wpos else some []
  | none => some []

/-! ## Reservation (R366) -/

/-- The cores reserved for a queue: of its partition the RSV lowest not reserved for a lower queue. -/
def State.reserved (s : State) (q : Nat) : List Nat :=
  let p := (s.queue q).part
  let before := ((List.range q).filter fun r => (s.queue r).part == p).foldl (fun n r => n + (s.queue r).rsv) 0
  ((s.coresOf p).drop before).take (s.queue q).rsv

/-- A core is reserved against a launch. -/
def State.barredBy (s : State) (l : Launch) (g : Nat) : Bool :=
  s.launches.any fun m =>
    (m.st == .ready || m.st == .running) && recOp m.dw == 1 && m.hasPending && decide (l.prio < m.prio) &&
      (s.reserved m.q).contains g

/-! ## The choice (R364) -/

/-- A launch that may dispatch at all: READY or RUNNING, with an undispatched item, below CORES, with wheel positions for one more
context, in a partition that is not draining. -/
def State.mayDispatch (s : State) (l : Launch) : Bool :=
  (l.st == .ready || l.st == .running) && recOp l.dw == 1 && l.hasPending && (l.cores == 0 || decide (l.coresHeld < l.cores)) &&
    (s.wheelFor l).isSome && !(s.part (s.queue l.q).part).barred

/-- A launch may use a free context, apart from what R368 asks of a background one. -/
def State.pairs (s : State) (l : Launch) (c : CtxId) : Bool :=
  s.freeCtx c && (s.swapped.all fun p => p.1 != c.val) && (s.queue l.q).fg != c.bg && s.inPlacement c.core &&
    (s.part (s.queue l.q).part).pclu.getLsbD c.cluster && !s.barredBy l c.core && s.fitsOn c l.cv3 && (l.nextGroup c.cluster).isSome

/-- A foreground item waits for a core: its foreground context is held, or could take a launch now (R368). -/
def State.fgBusy (s : State) (live : List Launch) (c : CtxId) : Bool :=
  let f := ctxOf (c.val - 1)
  !s.freeCtx f || (s.swapped.any fun p => p.1 == f.val) || live.any fun l => s.pairs l f

/-- A launch may use a context in this clock (R364, R368). -/
def State.eligible (s : State) (live : List Launch) (l : Launch) (c : CtxId) : Bool :=
  s.pairs l c && (!c.bg || !s.fgBusy live c)

/-- One launch goes before another: higher effective priority, then earlier append, then lower queue. -/
def launchLess (a b : Launch) : Bool :=
  decide (b.prio < a.prio) || (a.prio == b.prio && (decide (a.appended < b.appended) || (a.appended == b.appended &&
    decide (a.q < b.q))))

/-- The first of a list by an order, the earlier kept on a tie. -/
def firstBy {α : Type} (less : α → α → Bool) : List α → Option α
  | [] => none
  | a :: r =>
    match firstBy less r with
    | none => some a
    | some b => if less b a then some b else some a

/-- The launch and the context chosen in this clock, if any. -/
def State.choice (s : State) : Option (Launch × CtxId) :=
  let live := s.launches.filter s.mayDispatch
  match firstBy launchLess (live.filter fun l => allCtx.any fun c => s.eligible live l c) with
  | none => none
  | some l =>
    let cs := allCtx.filter fun c => s.eligible live l c
    match cs.find? fun c => l.openIn c.cluster with
    | some c => some (l, c)
    | none => cs.head?.map fun c => (l, c)

/-! ## Dispatch (R25, R26, R91) -/

/-- What a context holds of a work item of a launch. -/
def State.jobOf (s : State) (l : Launch) (k : Kernel) (wid : W64) : Job :=
  { q := l.q, lseq := l.lseq, part := (s.queue l.q).part, wid := wid, last := BitVec.ofNat 64 (l.d 1), widths := recWidths l.dw,
    place := l.place, regmax := bitsOf (l.d 4) 63 48, slipb := bitsOf (l.d 4) 47 32, strict := (l.d 0).testBit 19,
    cv1 := l.cv1, cv2 := l.cv2, cv3 := l.cv3, args := BitVec.ofNat 64 (l.d 7), leases := l.leases, k := k }

/-- A context at the dispatch of a work item: the registers of R25, the control registers at their reset values, the engines empty;
the pool and q0 to q7 of an earlier item of the same launch are kept, and read as zero otherwise (R26, R159). -/
def Context.dispatch (x : Context) (j : Job) (wheel : List Nat) : Context :=
  let same := x.lastLaunch == some (j.q, j.lseq)
  let regs := (Vector.replicate 32 (0 : W64)).set 1 j.args
  let q := if same then x.ex.q else Vector.replicate 8 0
  let z (b : Bank) : Bank := { b with sel := ⟨false, 0, 0⟩ }
  { Context.reset with
    run := .run, pc := BitVec.ofNat 48 j.k.entry, x := regs, job := some j, lastLaunch := some (j.q, j.lseq),
    raddr := BitVec.ofNat 48 j.k.entry, wheel := wheel, pool := if same then x.pool else [],
    ex := { ExState.reset with q := q }, banks := x.banks.map z, tables := x.tables.map fun t => { t with valid := 0 },
    shadow := { Shadow.reset with x := regs, q := q } }

/-- A foreground item placed on a core whose background runs waits for the background's discard (R368). -/
def State.yieldBg (s : State) (c : CtxId) : State :=
  if c.bg then s
  else
    let b := ctxOf (c.val + 1)
    let x := s.ctx b
    if x.holds && x.run != .idle then
      Answer.stateOr s (execPreemptionRequest b (s.modCtx c fun y => { y with await := true }))
    else s

/-- A pre-emption that took effect at once releases the foreground in the next clock; the tick does it. -/
def State.dispatchOn (s : State) (l : Launch) (c : CtxId) : State :=
  match l.kernel, l.nextGroup c.cluster, s.wheelFor l with
  | some k, some g, some w =>
    let wid := l.itemWid g (l.begun g)
    let s := (s.modCtx c fun x => x.dispatch (s.jobOf l k wid) w).modLaunch l.q l.lseq fun l =>
      { l.setItem wid .dispatched c.val with
        st := .running, tstart := some (l.tstart.getD s.now), idleFrom := s.now,
        groups := if l.groups.any fun u => u.1 == g then l.groups else l.groups ++ [(g, c.cluster)] }
    { s.yieldBg c with dispClk := some s.clk }
  | _, _, _ => s

/-! ## Restart (R98, R364, R367) -/

/-- A context's own work item waits to be dispatched again: discarded in it, or swapped out of it (R98, R369). -/
def State.waitsHere (s : State) (c : CtxId) : Option Context :=
  let x := s.ctx c
  if x.holds then (if x.run = .idle then some x else none)
  else (s.swapped.find? fun p => p.1 == c.val).map Prod.snd

/-- The launch of a work item a context holds. -/
def State.launchFor (s : State) (x : Context) : Option Launch :=
  match x.job with
  | some j => s.launchOf j.q j.lseq
  | none => none

/-- The positions with which a context's item can be restarted now, none if it cannot. A swap being made takes its context first
(R369); its core must still be one of the item's partition (R356). -/
def State.restartWheel (s : State) (live : List Launch) (c : CtxId) : Option (List Nat) :=
  match s.waitsHere c with
  | none => none
  | some x =>
    match s.launchFor x with
    | none => none
    | some l =>
      if s.inPlacement c.core && !(s.part (s.queue l.q).part).barred && (s.swapReq.all fun r => r.1 != c.val) &&
          (s.part (s.queue l.q).part).pclu.getLsbD c.cluster && s.fitsOn c x.heldCv3 && (!c.bg || !s.fgBusy live c) then s.wheelFor l
      else none

/-- The context whose restart is served next: ascending core, foreground first. -/
def State.nextRestart (s : State) : Option CtxId :=
  let live := s.launches.filter s.mayDispatch
  (s.ctxs.map fun p => ctxOf p.1).find? fun c => (s.restartWheel live c).isSome

/-- No work item has been dispatched in this clock (R364). -/
def State.slotFree (s : State) : Bool := s.dispClk != some s.clk

/-- WORK_ITEM_RESTART: the discarded work item of a context is dispatched again from its region shadow and RADDR, with new wheel
positions (R98); it is served in the order of R364. -/
def execWorkItemRestart (c : CtxId) (s : State) : Answer :=
  if s.slotFree && s.nextRestart == some c then
    match s.waitsHere c, s.restartWheel (s.launches.filter s.mayDispatch) c with
    | some x, some w =>
      let s := { s.setCtx c (x.restore w) with
        swapped := s.swapped.filter fun p => p.1 != c.val || (s.ctx c).holds, dispClk := some s.clk }
      .next ((s.setItemOf c .dispatched).yieldBg c)
    | _, _ => .next s
  else .next s

/-- WORK_ITEM_DISPATCH: of the pairs R364 allows, the first launch and its context; restarts go before. -/
def execWorkItemDispatch (s : State) : Answer :=
  if s.slotFree && s.nextRestart.isNone then
    match s.choice with
    | some (l, c) => .next (s.dispatchOn l c)
    | none => .next s
  else .next s

/-! ## Priority (R364) -/

/-- Ten milliseconds, in ns. -/
def riseNs : Nat := 10000000

/-- Some item of the launch is DISPATCHED. -/
def Launch.running (l : Launch) : Bool := l.items.any fun i => i.st == .dispatched

/-- PRIORITY_RISE: after 10 ms of device time in which a launch has an undispatched work item and none dispatched, its effective
priority rises by one, up to CEIL. -/
def execPriorityRise (qid : QId) (lseq : W32) (s : State) : Answer :=
  let q := qid.val
  match s.launchOf q lseq with
  | none => .next s
  | some l =>
    if recOp l.dw == 1 && l.st != .completing && l.hasPending && !l.running && decide (l.idleFrom.toNat + riseNs ≤ s.now.toNat) then
      .next (s.modLaunch q lseq fun l =>
        { l with prio := Nat.min (l.prio + 1) (Nat.max l.prio (s.queue q).ceil), idleFrom := l.idleFrom + BitVec.ofNat 64 riseNs })
    else .next s

/-! ## The slow swap (R369) -/

/-- A foreground launch waits for the slow swap: READY, with no free foreground context in its partition for 1 ms. -/
def State.mayswap (s : State) (l : Launch) : Bool :=
  l.st == .ready && (s.queue l.q).fg && (l.noFree.any fun t => decide (t.toNat + 1000000 ≤ s.now.toNat))

/-- A foreground context in the launch's partition holds an item of a SWAP queue of lower effective priority. -/
def State.victimOk (s : State) (l : Launch) (v : CtxId) : Bool :=
  !v.bg && (s.part (s.queue l.q).part).pclu.getLsbD v.cluster && (s.ctx v).holds && (s.swapped.all fun p => p.1 != v.val) &&
    (match s.launchFor (s.ctx v) with
    | some m => (s.queue m.q).swap && decide (m.prio < l.prio)
    | none => false)

/-- The pool of a context that is swapped out, CV3·4 KiB, is copied into firmware's store in DRAM, whose place no rule gives: a free one
(R369, log entry 31). -/
def State.saveSwap (s : State) (x : Context) : State :=
  let n := 4096 * x.heldCv3
  let a := 4096 * (Config.swapPage s.free % (2 ^ 25 - x.heldCv3))
  { s with mem := memWrite s.mem a (guardRo s.ro a (memRead x.pool 0 n)), free := s.free + 1 }

/-- SLOW_SWAP: firmware requests the victim's pre-emption; at the discard the core's copy engine saves the context in firmware's store,
from which it is restored as `swapped` holds it, and the new item runs in it (log entry 31), under the conditions of every dispatch
(R356, R364, R366). -/
def execSlowSwap (qid : QId) (lseq : W32) (victim : CtxId) (s : State) : Answer :=
  let q := qid.val
  let v := victim.val
  match s.launchOf q lseq with
  | none => .next s
  | some l =>
    if s.swapReq.contains (v, q, lseq) then
      let x := s.ctx victim
      let t := { s with
        swapReq := s.swapReq.filter (· != (v, q, lseq)), swapped := tabSet s.swapped v x,
        ctxs := tabSet s.ctxs v { x with job := none } }
      if s.victimOk l victim && x.run == .idle && s.slotFree && s.nextRestart.isNone && s.mayDispatch l && s.inPlacement victim.core &&
          !s.barredBy l victim.core && s.fitsOn victim l.cv3 && (l.nextGroup victim.cluster).isSome then
        .next ((t.saveSwap x).dispatchOn l victim)
      else .next s
    else if s.mayswap l && s.victimOk l victim && (s.swapReq.all fun r => r.1 != v && r.2 != (q, lseq)) && s.pausedAt.isNone then
      .next (Answer.stateOr s (execPreemptionRequest victim { s with swapReq := s.swapReq ++ [(v, q, lseq)] }))
    else .next s

/-- A swap is still wanted: its launch waits and its victim holds the item (R369). -/
def State.swapWanted (s : State) (r : Nat × Nat × W32) : Bool :=
  match s.launchOf r.2.1 r.2.2 with
  | some l => l.st == .ready && l.hasPending && s.victimOk l (ctxOf r.1)
  | none => false

/-! ## The clock's part -/

/-- The background of a core runs (R368). -/
def State.bgRuns (s : State) (c : CtxId) : Bool :=
  let x := s.ctx (ctxOf (c.val + 1))
  x.holds && x.run != .idle

/-- A foreground that waited starts in the clock after the background's discard or end (R368). -/
def State.releaseFg (s : State) : State :=
  let f : Nat × Context → Nat × Context := fun p =>
    if p.2.await && !s.bgRuns (ctxOf p.1) then (p.1, { p.2 with await := false }) else p
  { s with ctxs := s.ctxs.map f }

/-- Keeps the times from which a launch has had no item dispatched, and no free foreground context (R364, R369); stamps a mill record
applied in the clock before (R312); drops swaps no longer wanted (R369). -/
def State.noteLaunches (s : State) : State :=
  let f : Launch → Launch := fun l =>
    let free := (s.coresOf (s.queue l.q).part).any fun g => s.freeCtx (ctxOf (2 * g))
    { l with
      idleFrom := if l.running || !l.hasPending then s.now else l.idleFrom,
      noFree := if l.st == .ready && (s.queue l.q).fg && !free then some (l.noFree.getD s.now) else none,
      tend := if l.st == .completing then some (l.tend.getD s.now) else l.tend }
  { s with launches := s.launches.map f, swapReq := s.swapReq.filter s.swapWanted }

end Sys2Proof.Machine
end

