-- ==== Sys2Proof/Machine/Watchdog.lean ====
section
/-! DEFINITION. What ends work items and launches from outside: kills (R367, R370), the watchdog ladder (R374 to R376), the reset of
a partition (R377, R378), QKILL (R379) and self-test slots (R380). -/

namespace Sys2Proof.Machine

/-! ## Kills (R367, R370, R376) -/

/-- Work items of a launch that hold a context. -/
def Launch.held (l : Launch) : List Item := l.items.filter fun i => i.st == .dispatched || i.st == .discarded

/-- A context is emptied of its work item. -/
def Context.emptied (x : Context) : Context :=
  { x with run := .idle, job := none, pend := false, cmt := false, await := false }

/-- A context holds this item of a launch. -/
def Context.runs (x : Context) (q : Nat) (lseq : W32) (wid : W64) : Bool :=
  match x.job with
  | some j => x.holds && j.q == q && j.lseq == lseq && j.wid == wid
  | none => false

/-- A work item is discarded with no restart, in its context or swapped out of it (R376). -/
def State.killItem (s : State) (q : Nat) (lseq : W32) (i : Item) : State :=
  let c := ctxOf i.ctx
  if (s.ctx c).runs q lseq i.wid then (s.abandon c).modCtx c Context.emptied
  else { s with swapped := s.swapped.filter fun p => !(p.1 == i.ctx && p.2.runs q lseq i.wid) }

/-- Answers to records of the killed items come too late (R370). -/
def State.killRecords (s : State) (q : Nat) (lseq : W32) (wids : List W64) : State :=
  let f : FaultEntry → FaultEntry := fun e =>
    if e.q == q && e.r.lseq == lseq && decide (e.r.eng ≤ 5) && decide (e.r.state ≤ 1) && wids.contains e.r.wid then
      { e with dead := true } else e
  { s with faults := s.faults.map f }

/-- A killed launch: every item KILLED, and COMPLETING with its code and stamp (R362, R376). -/
def Launch.killed (l : Launch) (code : Nat) (tend : W64) : Launch :=
  let f : Item → Item := fun i => if i.st == .ended then i else { i with st := .killed }
  { l with items := l.items.map f, st := .completing, code := BitVec.ofNat 16 code, tend := some tend }

/-- A launch is killed (R376). -/
def State.killLaunch (s : State) (l : Launch) (code : Nat) (tend : W64) : State :=
  let s := l.held.foldl (fun s i => s.killItem l.q l.lseq i) s
  let s := s.killRecords l.q l.lseq (l.held.map (·.wid))
  { s.modLaunch l.q l.lseq fun l => l.killed code tend with
    swapReq := s.swapReq.filter fun r => r.2 != (l.q, l.lseq) && !(l.held.any fun i => i.ctx == r.1) }

/-- Cores that run an item of the launch with CMT = 1 (R376, R377). -/
def State.cmtCores (s : State) (l : Launch) : List Nat :=
  (l.held.filter fun i =>
    let x := s.ctx (ctxOf i.ctx)
    x.runs l.q l.lseq i.wid && x.cmt).map fun i => i.ctx / 2

/-- The partition of a launch drains until its reset at `due`, when a killed item had CMT = 1 (R376, R379). -/
def State.drain (s : State) (l : Launch) (cores : List Nat) (due : W64) : State :=
  if cores.isEmpty then s
  else
    let p := (s.queue l.q).part
    s.setPart p { s.part p with drains := (s.part p).drains ++ [⟨due, l.q, l.lseq, cores⟩] }

/-- Work items of a launch that a kill marks KILLED: all but those that have ended, dispatched or not (R376). -/
def Launch.toKill (l : Launch) : Nat := recTotal l.dw - (l.items.filter fun i => i.st == .ended).length

/-- The 0x0807 record: the lowest killed core and its item, the counts and TSTART (R363). -/
def State.killRecord (s : State) (l : Launch) (cmt : Nat) (time : W64) : State :=
  let r := schedRec s 2 0x0807 l.lseq
  let low := firstBy (fun a b : Item => decide (a.ctx < b.ctx)) l.held
  let r := match low with
    | some i => { r with core := i.ctx / 2, ctx := i.ctx % 2 == 1, wid := i.wid }
    | none => r
  s.addFault l.q (.queue l.q)
    { r with time := time, det0 := BitVec.ofNat 64 (l.toKill * 2 ^ 32 + cmt), det1 := l.tstart.getD 0 }

/-- A running launch is killed with its 0x0807 record; its partition drains until `due` (R376). -/
def State.killRunning (s : State) (l : Launch) (tend due : W64) : State :=
  let cores := s.cmtCores l
  ((s.killRecord l cores.length tend).killLaunch l 0x0807 tend).drain l cores due

/-! ## The watchdog ladder (R374 to R376) -/

/-- The deadline of step `n` at `us` µs after the first dispatch (R374). -/
def Launch.deadline (l : Launch) (us : Nat) : Option W64 := l.tstart.map fun t => t + BitVec.ofNat 64 (1000 * us)

/-- A step of a running launch's watchdog is due (R374). -/
def State.stepDue (s : State) (l : Launch) (fired us : Nat) : Option W64 :=
  if l.st == .running && !l.finished && (s.queue l.q).wden && l.fired == fired then
    (l.deadline us).filter fun t => decide (t.toNat ≤ s.now.toNat)
  else none

/-- Every dispatched item of a launch is asked to give way (R375). -/
def State.preemptLaunch (s : State) (l : Launch) : State :=
  (l.items.filter fun i => i.st == .dispatched).foldl (fun s i =>
    Answer.stateOr s (execPreemptionRequest (ctxOf i.ctx) s)) s

/-- WATCHDOG_T1: pre-emption is requested of every dispatched item (R375). -/
def execWatchdogT1 (qid : QId) (lseq : W32) (s : State) : Answer :=
  match s.launchOf qid.val lseq with
  | none => .next s
  | some l =>
    match s.stepDue l 0 (s.queue qid.val).t1 with
    | none => .next s
    | some _ => .next ((s.modLaunch l.q lseq fun l => { l with fired := 1 }).preemptLaunch l)

/-- WATCHDOG_T2: every work item is killed; the launch completes with 0x0807 and the step's deadline as its stamp (R362, R376). -/
def execWatchdogT2 (qid : QId) (lseq : W32) (s : State) : Answer :=
  match s.launchOf qid.val lseq with
  | none => .next s
  | some l =>
    match s.stepDue l 1 (s.queue qid.val).t2, l.deadline (s.queue qid.val).t3 with
    | some t, some due => .next (s.killRunning l t due)
    | _, _ => .next s

/-! ## The reset of a partition (R377, R378) -/

/-- The queues of a partition (R356, R378), enabled or not. -/
def State.queuesOf (s : State) (p : Nat) : List Nat := (List.range 64).filter fun q => (s.queue q).part == p

/-- The 0x0808 record (R363, R377). -/
def State.resetRecord (s : State) (q : Nat) (lseq : W32) (p count : Nat) (fenced : List Nat) (time : W64) : State :=
  s.addFault q (.queue q)
    { schedRec s 2 0x0808 lseq with
      time := time, det0 := BitVec.ofNat 64 (count * 2 ^ 32 + p),
      det1 := BitVec.ofNat 64 (fenced.length * 2 ^ 32 + fenced.foldl Nat.min 255) }

/-- PARTITION_RESET: the drain that is due takes effect: its cores are fenced, every launch still running in the partition is killed
with 0x0808, and the reset of the partition's cores begins (R377). -/
def execPartitionReset (pid : PartId) (s : State) : Answer :=
  let p := pid.val
  let u := s.part p
  match u.drains.find? fun d => decide (d.due.toNat ≤ s.now.toNat) with
  | none => .next s
  | some d =>
    let fenced := d.cores.eraseDups
    let s := fenced.foldl (fun s g => s.setCore g { s.core g with fenced := true }) s
    let live := s.launches.filter fun l => l.st == .running && !l.finished && (s.queue l.q).part == p
    let s := live.foldl (fun s l =>
      (s.resetRecord l.q l.lseq p live.length fenced d.due).killLaunch l 0x0808 d.due) s
    let s := s.resetRecord d.q d.lseq p live.length fenced d.due
    .next (s.setPart p { u with drains := u.drains.erase d, resetting := some (u.resetting.getD s.now), timedOut := false })

/-- A context after the reset of its core (R377). -/
def Context.scrub (x : Context) : Context :=
  let z (b : Bank) : Bank := { b with sel := { b.sel with valid0 := 0, valid1 := 0 } }
  { x.emptied with
    pool := [], sem := Vector.replicate 16 0, wheel := [], lastLaunch := none, banks := x.banks.map z,
    tables := x.tables.map fun t => { t with valid := 0 } }

/-- The reset of a partition can complete: begun, and not during a live update that began before it (R377, R382). -/
def State.resetReady (s : State) (p : Nat) : Bool :=
  match (s.part p).resetting, s.pausedAt with
  | none, _ => false
  | some _, none => true
  | some t, some u => decide (t.toNat < u.toNat)

/-- PARTITION_RESET_COMPLETE: the partition's contexts are emptied, its pools zero, its valid counts and semaphores zero and its
wheel positions free (R377). -/
def execPartitionResetComplete (pid : PartId) (s : State) : Answer :=
  let p := pid.val
  if s.resetReady p then
    let f : Nat × Context → Nat × Context := fun c =>
      if (s.part p).pclu.getLsbD (c.1 / 32) then (c.1, c.2.scrub) else c
    .next ({ s with ctxs := s.ctxs.map f }.setPart p { s.part p with resetting := none, timedOut := false })
  else .next s

/-- A launch that cannot go on completes with a code: its items are killed, and a mill record leaves its stream. -/
def State.endLaunch (s : State) (l : Launch) (code : Nat) : State :=
  let s := if recOp l.dw = 3 then
      s.modStream (recStream l.dw) fun u => { u with pending := u.pending.filter fun r => !(r.1 == l.q && r.2.1 == l.lseq) }
    else s
  s.killLaunch l code s.now

/-- RESET_TIMEOUT: a reset not done 1 ms after it began freezes every queue of the partition, and every admitted launch of theirs
completes with 0x0809 (R378). -/
def execResetTimeout (pid : PartId) (s : State) : Answer :=
  let p := pid.val
  let u := s.part p
  match u.resetting with
  | none => .next s
  | some t =>
    if u.timedOut || decide (s.now.toNat < t.toNat + 1000000) then .next s
    else
      let qs := s.queuesOf p
      let s := qs.foldl (fun s q => (s.addFault q (.queue q) (schedRec s 3 0x0809 (s.queue q).head)).freezeQueue q) s
      let live := s.launches.filter fun l => qs.contains l.q && l.st != .completing
      .next ((live.foldl (fun s l => s.endLaunch l 0x0809) s).setPart p { u with timedOut := true })

/-! ## QKILL (R379) -/

/-- QKILL: a write with GO = 1 kills the launch it names: one that has dispatched as at T2, its partition to be reset 1 ms later; one
that has not completes with 0x0807 and no record. In recovery the block does not respond (R389). -/
def execQkill (qid : QId) (go : Bool) (lseq : W32) (s : State) : Answer :=
  match s.launchOf qid.val lseq with
  | none => .next s
  | some l =>
    if s.phaseDev = 3 || !go || l.st == .completing || l.finished then .next s
    else if l.st == .running then .next (s.killRunning l s.now (s.now + 1000000))
    else .next (s.endLaunch l 0x0807)

/-! ## Self-test slots (R380, R276) -/

/-- The queue and LSEQ under which a record of a core's own goes out: those of the work item it holds or held last. -/
def State.coreQueue (s : State) (g : Nat) : Nat × W32 :=
  let of (x : Context) : Option (Nat × W32) :=
    match x.job with
    | some j => some (j.q, j.lseq)
    | none => x.lastLaunch
  match of (s.ctx (ctxOf (2 * g))) with
  | some v => v
  | none => (of (s.ctx (ctxOf (2 * g + 1)))).getD (0, 0)

/-- Pre-emption of both work items of a core is requested (R380, R394). -/
def State.preemptCore (s : State) (g : Nat) : State :=
  let s := Answer.stateOr s (execPreemptionRequest (ctxOf (2 * g)) s)
  Answer.stateOr s (execPreemptionRequest (ctxOf (2 * g + 1)) s)

/-- A retirement of slices takes effect once no command of the core is in compute: its record, STATE 4, and SINT.RETIRE; a core
without a slice leaves placement (R276, R296, R393). -/
def State.retireSlices (s : State) (g : Nat) : State :=
  let k := s.core g
  let busy (c : CtxId) : Bool :=
    let x := s.ctx c
    (x.mx.runs.any fun r => r.stage == .compute) && !(x.noteAt s.clk).boundary
  match k.newSlv with
  | none => s
  | some v =>
    if busy (ctxOf (2 * g)) || busy (ctxOf (2 * g + 1)) then s
    else
      let w := s.coreQueue g
      let r : FaultRec :=
        { state := 4, unit := 0, core := g, ctx := false, eng := 2, code := 0x050B, wid := 0, time := s.now, loc := 0,
          addr := 0, det0 := 0, det1 := v.zeroExtend 64, lseq := w.2 }
      let s := (s.setCore g { k with slv := v, newSlv := none, retired := k.retired || v == 0 }).addFault w.1 .device r
      let s := s.raiseSint sintRETIRE
      if v = 0 then s.preemptCore g else s

/-- Slices to retire that can be retired now are (R276). -/
def State.retireDue (s : State) : State :=
  (s.cores.filter fun p => p.2.newSlv.isSome).foldl (fun s p => s.retireSlices p.1) s

/-- The foreground context that a dispatch of this clock would take (R364, R370). -/
def State.fgTakes (s : State) (c : CtxId) : Bool :=
  s.slotFree &&
    (match s.nextRestart with
    | some d => d == c
    | none => s.choice.any fun p => p.2 == c)

/-- A self-test slot can run on a core: it is not retired, and its contexts are free, or an overdue slot takes the core at its items'
discard; not while its partition's reset runs (R380), and unless it is overdue not in the clock of a foreground dispatch (R370). -/
def State.slotReady (s : State) (g : Nat) : Bool :=
  let quiet (c : CtxId) : Bool := s.freeCtx c || ((s.core g).testDue && (s.ctx c).run == .idle)
  !(s.core g).retired && ((s.core g).testDue || !s.fgTakes (ctxOf (2 * g))) && quiet (ctxOf (2 * g)) && quiet (ctxOf (2 * g + 1)) &&
    (match s.partOf (g / 16) with
    | some p => (s.part p).resetting.isNone
    | none => true)

/-- SELF_TEST_SLOT: a slot runs; `failing` names the slices whose signature fails. They retire; a passing slot brings a fenced core
back (R377, R380, R396). -/
def execSelfTestSlot (g : CoreId) (failing : BitVec 4) (s : State) : Answer :=
  if s.slotReady g.val then
    let k := s.core g.val
    let k := { k with lastTest := s.now, stopped := false, testDue := false }
    let bad := failing &&& k.slv
    if bad = 0 then .next (s.setCore g.val { k with pass := satInc k.pass, fenced := false })
    else
      .next ((s.setCore g.val { k with fail := satInc k.fail, newSlv := some (k.newSlv.getD k.slv &&& ~~~bad) }).raiseSint
        sintSELFT)
  else .next s

/-- SELF_TEST_DISPATCH_STOP: 90 ms after a core's last slot, nothing more is dispatched to it (R380). -/
def execSelfTestDispatchStop (g : CoreId) (s : State) : Answer :=
  let k := s.core g.val
  if k.lastTest.toNat + 90000000 ≤ s.now.toNat then .next (s.setCore g.val { k with stopped := true }) else .next s

/-- SELF_TEST_OVERDUE: at 100 ms the core's items are pre-empted for the slot (R380). -/
def execSelfTestOverdue (g : CoreId) (s : State) : Answer :=
  let k := s.core g.val
  if k.lastTest.toNat + 100000000 ≤ s.now.toNat ∧ k.testDue = false ∧ k.retired = false then
    .next ((s.setCore g.val { k with testDue := true }).preemptCore g.val)
  else .next s

end Sys2Proof.Machine
end

