-- ==== Sys2Proof/Machine/Answers.lean ====
section
/-! DEFINITION. The answers to fault records (R32, R372): resume, skip and abort on each engine (R104, R184, R260, R298, R351), on
a launch (R33, R372) and on a queue (R354, R378). -/

namespace Sys2Proof.Machine

/-- The answers to a fault record. -/
inductive Ans | resume | skip | abort
  deriving DecidableEq, Repr

/-- STATE accepts the answer (R32). -/
def ansOk (st : Nat) (a : Ans) : Bool :=
  match st, a with
  | 0, _ => true
  | 1, .skip => true
  | 1, .abort => true
  | 2, .abort => true
  | 3, .skip => true
  | 3, .abort => true
  | 4, .resume => true
  | _, _ => false

/-- The context of a record that an engine of a context waits on. -/
def FaultEntry.ctx? (e : FaultEntry) : Option CtxId :=
  match e.src with
  | .ctx c => some (ctxOf c)
  | _ => none

/-! ## STATE 0 and STATE 1: engines of a context -/

/-- After its answer a sequencer runs again; a host-window fault found in HALT is then raised (R34), and a request held in HALT acts as
in RUN (R94). -/
def State.leaveHalt (s : State) (c : CtxId) : State :=
  let s := s.modCtx c fun x => { x with run := if x.run = .halt then .run else x.run }
  let x := s.ctx c
  match x.seqLate with
  | f :: r => if x.run = .run then (s.setCtx c { x with seqLate := r }).raiseAt c 0 0 f else s
  | [] => if x.pend && !x.cmt then s.discardItem c else s

/-- The fault is the no-handler fault of an interrupt (R100, R103). -/
def FaultEntry.noHandler (e : FaultEntry) : Bool := e.r.code == 0x0204 && e.r.det0.getLsbD 31

/-- resume of a sequencer fault (R104). -/
def State.resumeSq (s : State) (c : CtxId) (e : FaultEntry) : State :=
  (s.modCtx c fun x => if e.r.code = 0x0206 then { x with ccyc := 0 } else x).leaveHalt c

/-- skip of a sequencer fault: past the instruction, or with the interrupt's enable bit cleared (R104). -/
def State.skipSq (s : State) (c : CtxId) (e : FaultEntry) : State :=
  let w := e.r.loc.toNat % 2 ^ 48
  (s.modCtx c fun x =>
    if e.noHandler then
      { x with pc := BitVec.ofNat 48 w, ie := x.ie &&& ~~~(if e.r.det0.setWidth 16 = (2 : BitVec 16) then 2#3 else 4#3) }
    else { x with pc := BitVec.ofNat 48 (w + lenOf (memNat s.mem w 4)) }).leaveHalt c

/-- resume of an execute fault: the bundle again; after a slip-budget fault the block's slip count is 0 (R184). -/
def Context.resumeEx (x : Context) (code : Nat) : Context :=
  let f : RunBlock → RunBlock := fun b => if code = 0x0304 then { b with slip := 0 } else b
  { x with ex := { x.ex with halted := false, block := x.ex.block.map f } }

/-- skip of an execute fault: the rest of the block is abandoned (R184). -/
def Context.skipEx (x : Context) : Context :=
  let x := x.dropBlock
  { x with ex := { x.ex with halted := false } }

/-- The number of the command a record names (R258, R295, R350). -/
def FaultEntry.num (e : FaultEntry) : W32 := e.r.loc.setWidth 32

/-- A matrix command pops a format word: a multiply or a `drain` (R269, R298). -/
def isTileWord (w : Nat) : Bool := w % 256 == 1 || w % 256 == 2 || w % 256 == 4

/-- skip of a matrix fault: STATE 0 leaves the queue with no effect, a tile command with the format word at the head except after an
underflow; STATE 1 goes on (R298). -/
def Context.skipMx (x : Context) (e : FaultEntry) : Context :=
  let x := { x with mx := { x.mx with halted := false } }
  if e.r.state = 1 then x
  else
    let tile := x.mxq.any fun u => u.num == e.num && isTileWord u.w.toNat
    { x with
      mxq := x.mxq.filter fun u => u.num != e.num, fq := if tile && e.r.code != 0x0503 then x.fq.tail else x.fq }

/-- skip of a copy fault: the command completes with no completion word; of STATE 0 with no move (R260). -/
def State.skipCp (s : State) (c : CtxId) (e : FaultEntry) : State :=
  let s := s.modCtx c fun x => { x with cp := { x.cp with halted := false } }
  let s := match (s.ctx c).cp.binds.find? fun b => b.num == e.num with
    | some b => s.endBinding c b
    | none => s
  let s := s.modCtx c fun x =>
    let x := x.cpNoSum e.num
    match x.cpRun e.num with
    | some r => x.cpLeave r
    | none => { x with cpq := x.cpq.filter fun u => u.num != e.num }
  s.cpLate c

/-- resume acts on the engine that faulted (R104, R184, R260, R298, R351). -/
def State.resumeEng (s : State) (c : CtxId) (e : FaultEntry) : State :=
  let s := s.modCtx c fun x => { x with rcnt := satInc x.rcnt }
  match e.r.eng with
  | 0 => s.resumeSq c e
  | 1 => s.modCtx c fun x => x.resumeEx e.r.code
  | 2 => s.modCtx c fun x => { x with mx := { x.mx with halted := false } }
  | 3 => (s.modCtx c fun x => { x with cp := { x.cp with halted := false } }).cpLate c
  | 5 => s.modCtx c fun x => { x with alHalted := false }
  | _ => s

/-- skip acts on the engine that faulted. -/
def State.skipEng (s : State) (c : CtxId) (e : FaultEntry) : State :=
  match e.r.eng with
  | 0 => s.skipSq c e
  | 1 => s.modCtx c Context.skipEx
  | 2 => s.modCtx c fun x => x.skipMx e
  | 3 => s.skipCp c e
  | 5 => s.modCtx c fun x => { x with alHalted := false, alq := x.alq.tail }
  | _ => s

/-- An abort of a STATE 0 or 1 record kills the launch, without a record of its own; it completes with the record's CODE, and a
partition that then drains is reset 1 ms later (R33, R372). -/
def State.abortLaunch (s : State) (e : FaultEntry) : State :=
  match s.launchOf e.q e.r.lseq with
  | none => s
  | some l =>
    if l.st = .completing then s
    else
      let cores := s.cmtCores l
      (s.killLaunch l e.r.code s.now).drain l cores (s.now + 1000000)

/-! ## STATE 3: the queue (R354, R378) -/

/-- The record at HEAD is discarded and completes with a code (R354). -/
def State.dropHead (s : State) (q : Nat) (code : Nat) : State :=
  let u := s.queue q
  let dw := s.recordAt q u.head
  (s.setQueue q u.pass).completeBad q u.head dw (BitVec.ofNat 16 code)

/-- Every record from HEAD on is discarded, each as a skipped one (R354). -/
def State.dropAll (s : State) (q : Nat) (code : Nat) : State :=
  (List.range (s.queue q).count).foldl (fun s _ => s.dropHead q code) s

/-- Records announced and not admitted are withdrawn (R354, R378). -/
def Queue.withdraw (u : Queue) (toTail : Bool) : Queue :=
  if toTail then { u with head := u.tail, born := [] } else { u with tail := u.head, born := [] }

/-- A record of a launch admitted already, a mill configuration refused when it was to be applied (R312, R334). -/
def State.admitted (s : State) (e : FaultEntry) : Bool := (s.launchOf e.q e.r.lseq).isSome

/-- skip of a STATE 3 record (R354, R378). -/
def State.skipQueue (s : State) (e : FaultEntry) : State :=
  if e.r.code = 0x0801 ∨ e.r.code = 0x0601 then
    if s.admitted e then
      s.modLaunch e.q e.r.lseq fun l => { l with st := .completing, code := BitVec.ofNat 16 e.r.code, tend := some s.now }
    else s.dropHead e.q e.r.code
  else s

/-- abort of a STATE 3 record (R354, R378). -/
def State.abortQueue (s : State) (e : FaultEntry) : State :=
  match e.r.code with
  | 0x0802 => s.setQueue e.q ((s.queue e.q).withdraw false)
  | 0x0809 => s.setQueue e.q ((s.queue e.q).withdraw true)
  | _ => (if s.admitted e then s.skipQueue e else s).dropAll e.q e.r.code

/-- A queue runs on when no record that froze it awaits its answer. -/
def State.thaw (s : State) (q : Nat) : State :=
  s.setQueue q { s.queue q with frozen := s.faults.any fun e => e.q == q && e.r.state == 3 }

/-! ## Answers (R372) -/

/-- A resume of a record whose item has been discarded since is counted in RCNT of that item, wherever it is now: in a context, swapped
out of it, or moved to another (R91, R93, log entry 40). -/
def State.countResume (s : State) (e : FaultEntry) : State :=
  let f : Nat × Context → Nat × Context := fun p =>
    if p.2.runs e.q e.r.lseq e.r.wid then (p.1, { p.2 with rcnt := satInc p.2.rcnt }) else p
  { s with ctxs := s.ctxs.map f, swapped := s.swapped.map f }

/-- What an accepted answer does. -/
def State.answered (s : State) (e : FaultEntry) (a : Ans) : State :=
  match e.r.state, a with
  | 3, .skip => (s.skipQueue e).thaw e.q
  | 3, .abort => (s.abortQueue e).thaw e.q
  | 0, .abort => s.abortLaunch e
  | 1, .abort => s.abortLaunch e
  | 0, .resume => match e.src with
    | .ctx c => s.resumeEng (ctxOf c) e
    | .old _ => s.countResume e
    | _ => s
  | _, .skip => match e.ctx? with
    | some c => s.skipEng c e
    | none => s
  | _, _ => s

/-- An answer changes nothing and is counted (R372). -/
def State.badAnswer (s : State) (q : Nat) : State :=
  s.setQueue q { s.queue q with badans := satInc (s.queue q).badans }

/-- QXANS names record `rseq`: it takes effect when that record awaits its answer and its STATE accepts it (R372). -/
def State.answer (s : State) (q : Nat) (rseq : W32) (a : Ans) : State :=
  match s.faults.find? fun e => e.q == q && e.rseq == some rseq && !e.dead with
  | none => s.badAnswer q
  | some e =>
    if ansOk e.r.state a then { s with faults := s.faults.filter (· != e) }.answered e a else s.badAnswer q

/-- The write of an answer; in recovery the block does not respond (R389). -/
def State.answerEvent (s : State) (q : Nat) (rseq : W32) (a : Ans) : State := if s.phaseDev = 3 then s else s.answer q rseq a

/-- ANSWER_RESUME. -/
def execAnswerResume (qid : QId) (rseq : W32) (s : State) : Answer := .next (s.answerEvent qid.val rseq .resume)
/-- ANSWER_SKIP. -/
def execAnswerSkip (qid : QId) (rseq : W32) (s : State) : Answer := .next (s.answerEvent qid.val rseq .skip)
/-- ANSWER_ABORT. -/
def execAnswerAbort (qid : QId) (rseq : W32) (s : State) : Answer := .next (s.answerEvent qid.val rseq .abort)

end Sys2Proof.Machine
end

