-- ==== Sys2Proof/Machine/MatrixOps.lean ====
section
/-! DEFINITION. The matrix engine's shared operations (spec/10, spec/02 R52 to R58): operands in the pool, the checks at begin,
the sums, and the stages of a command. -/

namespace Sys2Proof.Machine

/-! ## The format word (R271, R272) -/

def fwAfmt (w : W64) : Nat := bitsOf w.toNat 4 0
def fwBfmt (w : W64) : Nat := bitsOf w.toNat 9 5
def fwAnp (w : W64) : Nat := bitsOf w.toNat 11 10
def fwBnp (w : W64) : Nat := bitsOf w.toNat 13 12
def fwAcbk (w : W64) : Nat := bitsOf w.toNat 17 16
def fwAcbf (w : W64) : Bool := w.getLsbD 18
def fwBcbk (w : W64) : Nat := bitsOf w.toNat 20 19
def fwBcbf (w : W64) : Bool := w.getLsbD 21
/-- MODE: true is ACC32F. -/
def fwMode (w : W64) : Bool := w.getLsbD 26
def fwOfmt (w : W64) : Nat := bitsOf w.toNat 31 27
def fwAsc (w : W64) : Bool := w.getLsbD 32
def fwBsc (w : W64) : Bool := w.getLsbD 33
def fwCcl (w : W64) : Nat := bitsOf w.toNat 35 34

/-- An operand format of a multiply: a plane format or an index format (R272). -/
def opFmtOk (c : Nat) : Bool := decide (c < 8) || (decide (0x13 ≤ c) && decide (c ≤ 0x15))

/-- A format word of `mmul` and `mmuls` that R272 allows: bits 63:36, 31:27, 25:22 and 15:14 zero. -/
def mulWordOk (w : W64) : Bool :=
  w &&& 0xFFFFFFF0FBC0C000 == 0 && opFmtOk (fwAfmt w) && opFmtOk (fwBfmt w) && (fwMode w || (!fwAsc w && !fwBsc w)) &&
    (decide (8 ≤ fwAfmt w) || (!fwAcbf w && fwAcbk w == 0)) && (decide (8 ≤ fwBfmt w) || (!fwBcbf w && fwBcbk w == 0))

/-- A format word of `drain` that R272 allows: only MODE and OFMT. -/
def drainWordOk (w : W64) : Bool :=
  w &&& 0xFFFFFFFF03FFFFFF == 0 &&
    (decide (fwOfmt w ≤ 0x0E) || (decide (0x10 ≤ fwOfmt w) && decide (fwOfmt w ≤ 0x12)))

/-! ## Operands (R273, R275) -/

/-- How an operand is stored: planes, signedness, bytes of a 32-element block, and index width, 0 for planes. -/
structure OpInfo where
  planes : Nat
  signed : Bool
  stride : Nat
  w : Nat
  vq : Bool
  deriving DecidableEq, Repr

/-- The storage of a format with its codebook form (R42, R49, R50, R273). -/
def opInfo (c : Nat) (vq : Bool) : OpInfo :=
  if c < 8 then ⟨fmtPlanes c, fmtSigned c, planeStride (fmtPlanes c), 0, false⟩
  else
    let w := if c = 0x13 then 4 else if c = 0x14 then 6 else 8
    if vq then ⟨1, true, w, w, true⟩ else ⟨4, true, 4 * w, w, false⟩

def infoA (w : W64) : OpInfo := opInfo (fwAfmt w) (fwAcbf w)
def infoB (w : W64) : OpInfo := opInfo (fwBfmt w) (fwBcbf w)

/-- The indices of a byte range (R50). -/
def indicesOf (w : Nat) (bs : List Byte) : List Nat := (List.range (8 * bs.length / w)).map (indexAt (leNat bs) w)

/-- The 32 values of one block, read with `n` planes (R38, R49, R286). -/
def blockVals (o : OpInfo) (n : Nat) (code : List (BitVec 16)) (bs : List Byte) : List Int :=
  if o.w = 0 then (List.range 32).map fun i => planeRead o.signed o.planes n (elemDigits bs o.planes i)
  else if o.vq then
    (indicesOf o.w bs).flatMap fun i => (List.range 4).map fun k => sextN 4 ((code.getD i 0).toNat / 16 ^ k)
  else (indicesOf o.w bs).map fun i => planeRead true 4 n (code.getD i 0).toNat

/-- An operand's 32 rows of `k` blocks (R273). -/
def operandVals (o : OpInfo) (n k : Nat) (code : List (BitVec 16)) (bs : List Byte) : List (List (List Int)) :=
  (List.range 32).map fun m => (List.range k).map fun b => blockVals o n code ((bs.drop ((m * k + b) * o.stride)).take o.stride)

/-! ## Sums (R52 to R55, R58) -/

/-- Saturation to 64 bits (R53, R58, R290). -/
def sat64 (x : Int) : Nat × FlagSet :=
  let lo : Int := -(2 ^ 63 : Nat)
  let hi : Int := ((2 ^ 63 - 1 : Nat) : Int)
  (wrapN 64 (satI x lo hi), flagIf (x < lo || hi < x) flSA)

/-- An FP32 result that saturates where it would overflow: SA and NX, never OF (R54, R58). -/
def sat32 (r : Nat × FlagSet) : Nat × FlagSet :=
  if r.2 &&& flOF = 0 then r else (r.1 / 2 ^ 31 * 2 ^ 31 + 0x7F7FFFFF, (r.2 &&& ~~~flOF) ||| flSA)

/-- The dot product of two blocks (R52). -/
def dotInt (a b : List Int) : Int := (a.zip b).foldl (fun s p => s + p.1 * p.2) 0

/-- One block into an accumulator element: integer mode (R53). -/
def accInt (acc : Nat) (bi : Int) : Nat × FlagSet := sat64 (sextN 64 acc + bi)

/-- One block into an accumulator element: scaled mode (R54, R55). -/
def accFloat (acc : Nat) (bi : Int) (ea eb : Nat) : Nat × FlagSet :=
  if bi = 0 then (acc, 0)
  else
    let p := sat32 (fp32.round (bi < 0) bi.natAbs ((ea : Int) + eb - 254))
    let r := sat32 (fp32.add acc p.1)
    (r.1, p.2 ||| r.2)

/-- H[i][j] = −1 (R57). -/
def hadamardNeg (i j : Nat) : Bool := (List.range 5).foldl (fun a k => a != (i.testBit k && j.testBit k)) false

/-- A signed sum of 32 ACC64I elements (R58). -/
def hsumInt (l : List (Nat × Bool)) : Nat × FlagSet :=
  sat64 (l.foldl (fun s p => if p.2 then s - sextN 64 p.1 else s + sextN 64 p.1) 0)

/-- A signed sum of 32 ACC32F elements, rounded once (R58). -/
def hsumFloat (l : List (Nat × Bool)) : Nat × FlagSet :=
  let vs := l.map fun p => if p.2 then (fp32.dec p.1).neg else fp32.dec p.1
  sat32 (fp32.withNaN vs (vs.tail.foldl (fun a v => a.bind fun x => x.addV v) (vs.head?)))

/-- The elements of a tile. -/
def tileElems (f32 : Bool) (bs : List Byte) : List Nat :=
  let w := if f32 then 4 else 8
  (List.range 1024).map fun i => leNat ((bs.drop (w * i)).take w)

/-- A tile's bytes. -/
def tileBytes (f32 : Bool) (l : List Nat) : List Byte := l.flatMap (leBytes (if f32 then 4 else 8))

/-- Every element's value with the union of the flags. -/
def withFlags (l : List (Nat × FlagSet)) : List Nat × FlagSet := (l.map Prod.fst, flagUnion (l.map Prod.snd))

/-! ## What a command asks to begin (R274, R278, R297) -/

/-- A matrix command under the format word at the head of the queue. -/
structure MxPlan where
  t : MxTail
  op : Nat
  /-- the ACC field, none where the command has none -/
  acc : Option Byte
  /-- ACC32F -/
  f32 : Bool
  tile : Bool
  crier : Bool
  /-- CMASK breaks R282 -/
  maskBad : Bool
  fmtBad : Bool
  /-- operand ranges with their m-view numbers -/
  a : Option (Nat × Nat × Nat)
  b : Option (Nat × Nat × Nat)
  /-- other pool bytes: address, length, whether written, alignment -/
  chk : List (Nat × Nat × Bool × Nat)
  /-- the accumulator tile, where its old value is read -/
  accRd : Option (Nat × Nat)
  rd : List (Nat × Nat)
  wr : List (Nat × Nat)

/-- DETAIL0 of the plan's faults at begin. -/
def MxPlan.det0 (p : MxPlan) : W64 := mxDet0 p.op (p.acc.getD 0).toNat 0

/-- A fault of R296 at begin. -/
def MxPlan.fault (p : MxPlan) (code : Nat) (det1 : Nat) : FaultInfo := ⟨code, 0, 0, p.det0, BitVec.ofNat 64 det1⟩

/-- The operand-range fault of an operand (R274): the view number is the larger of the first view and the last one touched (log entry
108). -/
def rangeBad (k : Kernel) (o : Nat) (r : Option (Nat × Nat × Nat)) : Option Nat :=
  match r with
  | none => none
  | some (a, n, v) =>
    let last := (a + n - 1 - 2048 * k.mbase) / 2048
    if k.mn ≤ v ∨ k.mn ≤ last ∨ a / 2 ^ 14 ≠ (a + n - 1) / 2 ^ 14 then some (o * 2 ^ 16 + Nat.max v last % 2 ^ 16) else none

/-- The operand-range fault of ACC (R274). -/
def accBad (k : Kernel) (p : MxPlan) : Option Nat :=
  match p.acc with
  | none => none
  | some a =>
    let top := if p.f32 then a.toNat else a.toNat + 1
    if k.an ≤ top then some (2 * 2 ^ 16 + if k.an ≤ a.toNat then a.toNat else top) else none

/-- The checks before the crier bus, in the order of R297. Of several operands out of range the record names A before B before ACC, and of
several other ranges that fail one check the first of the plan's list (log entry 103). -/
def mxEarly (x : Context) (j : Job) (p : MxPlan) : Option FaultInfo :=
  if p.maskBad then some (p.fault 0x0501 3)
  else if p.tile && x.fq.isEmpty then some (p.fault 0x0503 0)
  else if p.fmtBad then some (p.fault 0x0502 (x.fq.headD 0).toNat)
  else
    match (rangeBad j.k 0 p.a).or ((rangeBad j.k 1 p.b).or (accBad j.k p)) with
    | some d => some (p.fault 0x0505 d)
    | none =>
      let mem (code : Nat) (c : Nat × Nat × Bool × Nat) (a : Nat) : FaultInfo :=
        memFault code a (memDet0 true false c.2.2.1 0 false pathMX 0 c.2.1)
      match p.chk.findSome? fun c => (poolFault j.cv1 j.cv2 j.cv3 pathMX c.1 c.2.1).map (mem 0x0106 c) with
      | some f => some f
      | none =>
        match p.chk.findSome? fun c => if c.1 % c.2.2.2 = 0 then none else some (mem 0x0104 c c.1) with
        | some f => some f
        | none =>
          match p.a, p.b with
          | some a, some b =>
            let ga := a.1 / 2 ^ 14 % 4
            let gb := b.1 / 2 ^ 14 % 4
            if ga = gb then some (p.fault 0x0504 (ga * 4 + gb)) else none
          | _, _ => none

/-- The invalid-index fault of an operand (R286). Of several failing indices the record names the smallest (log entry 80). -/
def mxIndexBad (x : Context) (clk : Nat) (p : MxPlan) (o : OpInfo) (bank : Nat) (r : Option (Nat × Nat × Nat)) : Option FaultInfo :=
  match r with
  | none => none
  | some (a, n, _) =>
    if o.w = 0 then none
    else
      let valid := (x.frontSide clk bank).2
      ((indicesOf o.w (x.poolGet clk a n)).filter fun i => decide (valid ≤ i)).foldl (fun acc i =>
        match acc with
        | some j => some (Nat.min i j)
        | none => some i) (none : Option Nat) |>.map fun i =>
          p.fault 0x0508 (bank * 2 ^ 40 + o.w * 2 ^ 32 + i * 2 ^ 16 + valid)

/-- The invalid-block fault of a scale array (R45). -/
def mxScaleBad (p : MxPlan) (o : Nat) (bs : List Byte) : Option FaultInfo :=
  (bs.findIdx? (· == 0xFF)).map fun i => p.fault 0x0509 (o * 2 ^ 32 + i)

/-- The scale bytes a begin reads: `n` of them at `a`, where the array is used. -/
def scaleBytes (x : Context) (clk : Nat) (use : Bool) (a n : Nat) : List Byte := if use then x.poolGet clk a n else []

/-- Two ranges overlap. -/
def rangesMeet (a b : Nat × Nat) : Bool := decide (a.1 < b.1 + b.2) && decide (b.1 < a.1 + a.2)

/-- The begun commands that had not completed before clock `clk`: one that completes in it still holds its stage and its bytes for this
clock (R278 to R280). -/
def Context.mxEarlier (x : Context) (clk : Nat) : List MxRun := x.mx.runs ++ (x.noteAt clk).gone

/-- Conditions 1 to 3 of R278: the setup stage is free; no command that has not completed, and no write of one that R213 holds, writes a
byte that this one reads or writes; and for `msem` every earlier command has completed. -/
def mxReady (x : Context) (clk : Nat) (p : MxPlan) : Bool :=
  let earlier := x.mxEarlier clk
  decide (x.mx.free ≤ clk) && (x.mx.runs.all fun r => r.stage != .setup) &&
    (earlier.all fun r => r.span.all fun w => (p.rd ++ p.wr).all fun u => !rangesMeet w u) &&
    (x.ex.held.all fun h => h.src != .mx || (p.rd ++ p.wr).all fun u => !rangesMeet (h.addr, 1) u) &&
    (p.op != 8 || (earlier.isEmpty && !x.heldMx))

/-- The semaphore wait can be granted now (R281, R144). -/
def mxGrant (x : Context) (t : MxTail) : Bool := t.wval == 0 || decide (t.wval.toNat ≤ x.semVal t.wsem.toNat)

/-! ## Beginning (R275, R276, R278) -/

/-- MXCAP as commands beginning in the present clock see it (R277). -/
def State.capByte (s : State) : Byte :=
  match s.mxcapNew with
  | some (t, v) => if t < s.clk then v else s.mxcap
  | none => s.mxcap

/-- The plane cap of a class (R275, R277). -/
def State.planeCap (s : State) (ccl : Nat) : Nat := s.capByte.toNat / 4 ^ ccl % 4 + 1

/-- F of R276; a core without slices has no placement, and folds into one slice's rounds. -/
def foldOf (slv : BitVec 4) : Nat :=
  let n := ((List.range 4).filter fun i => slv.getLsbD i).length
  if n = 0 then 4 else cdiv 4 n

/-- The begin clock of a command (R278): a tile command pops its format word, the semaphore is taken, and the run holds what
that clock fixed. -/
def State.mxStart (s : State) (c : CtxId) (e : MxEntry) (p : MxPlan) (slen : Nat) (r : MxRun) : State :=
  s.modCtx c fun x =>
    let x := if p.t.wval = 0 then x else x.semTake s.clk p.t.wsem.toNat p.t.wval.toNat
    let r := { r with
      num := e.num, stage := .setup, due := s.clk + slen, fmt := if p.tile then x.fq.headD 0 else 0,
      acc0 := match p.accRd with
        | some u => x.poolGet s.clk u.1 u.2
        | none => [],
      span := p.wr }
    { x with
      fq := if p.tile then x.fq.tail else x.fq,
      mx := { x.mx with runs := x.mx.runs ++ [r], held := false, free := s.clk + 1 } }

/-- A run with nothing fixed yet. -/
def bareRun (i : Instr) (clen wlen : Nat) : MxRun :=
  { num := 0, i := i, stage := .setup, due := 0, clen := clen, wlen := wlen, fmt := 0, na := 1, nb := 1, fold := 1,
    codeA := [], codeB := [], reads := [], idxA := [], idxB := [], scaleA := [], scaleB := [], acc0 := [], src0 := [],
    group := [], span := [], writes := [], flags := 0, undef := none }

/-- T of R279. -/
def tLen (f32 : Bool) : Nat := if f32 then 16 else 32

/-- The head command of the context in focus tries to begin (R278): checks in the order of R297, then its wait, then `go`.
Condition 2 takes a tile command with no format word as if that word were 0 (log entry 107). -/
def State.mxOp (s : State) (plan : Context → Job → W64 → MxPlan) (late : Context → MxPlan → Option FaultInfo)
    (go : CtxId → MxEntry → MxPlan → State → State) : Answer :=
  let c := s.focus
  let x := s.ctx c
  match x.job, x.mxHead with
  | some j, some e =>
    let p := plan x j (x.fq.headD 0)
    if x.mx.halted || !mxReady x s.clk p then .next s
    else
      match (mxEarly x j p).or (late x p) with
      | some f => .next (s.mxReport c e.num f)
      | none => if mxGrant x p.t then .next (go c e p s) else .next s
  | _, _ => .next s

end Sys2Proof.Machine
end

