-- ==== Sys2Proof/Machine/Matrix.lean ====
section
/-! DEFINITION. The matrix commands (R284 to R292), the crier bus (R282, R283), and the stages and completion of a command
(R279, R280). -/

namespace Sys2Proof.Machine

/-! ## Multiplies (R273, R275, R284 to R286) -/

/-- The member number of a context's core in its cluster (R282). -/
def memberOf (c : CtxId) : Nat := c.val / 2 % 16

/-- CMASK includes the own core and another (R282). -/
def maskOk (mask : BitVec 16) (me : Nat) : Bool :=
  mask.getLsbD me && (List.range 16).any fun i => decide (i ≠ me) && mask.getLsbD i

/-- What a multiply asks at begin (R273, R274). -/
def mulPlan (c : CtxId) (f : MulForm) (op : Nat) (j : Job) (fw : W64) : MxPlan :=
  let kb := f.kbm1.toNat + 1
  let f32 := fwMode fw
  let own := f.bsel != 1
  let a : Nat × Nat × Nat :=
    (2048 * (j.k.mbase + f.aop.toNat), 32 * (if op = 2 then 2 * kb else kb) * (infoA fw).stride, f.aop.toNat)
  let b : Nat × Nat × Nat := (2048 * (j.k.mbase + f.bop.toNat), 32 * kb * (infoB fw).stride, f.bop.toNat)
  let tile := tileRange j f.acc f32
  let chk : List (Nat × Nat × Bool × Nat) :=
    (if fwAsc fw then [(f.asca.toNat, 32 * kb, false, 1)] else []) ++
      (if fwBsc fw && own then [(f.bsca.toNat, 32 * kb, false, 1)] else []) ++
      if op = 2 ∧ own then [(f.mdat.toNat, 256 * kb, false, 8)] else []
  { t := f.t, op := op, acc := some f.acc, f32 := f32, tile := true, crier := f.bsel != 0,
    maskBad := f.bsel != 0 && !maskOk f.cmask (memberOf c), fmtBad := !mulWordOk fw, a := some a,
    b := if own then some b else none, chk := chk, accRd := if f.zacc then none else some tile,
    rd := [(a.1, a.2.1)] ++ (if own then [(b.1, b.2.1)] else []) ++ (chk.map fun u => (u.1, u.2.1)) ++
      (if f.zacc then [] else [tile]),
    wr := [tile] }

/-- The checks of a multiply's begin clock: indices, then scales; a receiver's B is its sender's to check (R282, R286, R45). Where both
operands fail a check the record names A, and of several invalid blocks the one whose scale byte lies lowest (log entry 80). -/
def mulLate (clk : Nat) (f : MulForm) (fw : W64) (x : Context) (p : MxPlan) : Option FaultInfo :=
  let n := 32 * (f.kbm1.toNat + 1)
  ((mxIndexBad x clk p (infoA fw) (fwAcbk fw) p.a).or (mxIndexBad x clk p (infoB fw) (fwBcbk fw) p.b)).or
    ((mxScaleBad p 0 (scaleBytes x clk (fwAsc fw) f.asca.toNat n)).or
      (mxScaleBad p 1 (scaleBytes x clk (fwBsc fw && p.b.isSome) f.bsca.toNat n)))

/-- A multiply begins (R275, R278). -/
def State.mulStart (s : State) (c : CtxId) (e : MxEntry) (p : MxPlan) (f : MulForm) (i : Instr) (group : List Nat) : State :=
  let x := s.ctx c
  let fw := x.fq.headD 0
  let cap := s.planeCap (fwCcl fw)
  let na := Nat.min (Nat.min (fwAnp fw + 1) (infoA fw).planes) cap
  let nb := Nat.min (Nat.min (fwBnp fw + 1) (infoB fw).planes) cap
  let kb := f.kbm1.toNat + 1
  let side (o : OpInfo) (bank : Nat) (r : Option (Nat × Nat × Nat)) : List (BitVec 16) × List (Nat × Bool) × List Byte :=
    match r with
    | some u =>
      if o.w = 0 then ([], [], [])
      else ((x.frontSide s.clk bank).1, [(bank, x.frontOf s.clk bank)], x.poolGet s.clk u.1 u.2.1)
    | none => ([], [], [])
  let a := side (infoA fw) (fwAcbk fw) p.a
  let b := side (infoB fw) (fwBcbk fw) p.b
  let core := s.core c.core
  let s := if cap < fwAnp fw + 1 ∨ cap < fwBnp fw + 1 then s.setCore c.core { core with clamp := satInc core.clamp } else s
  let r : MxRun :=
    { bareRun i (8 * kb * na * nb) (tLen p.f32) with
      na := na, nb := nb, fold := foldOf core.slv, codeA := a.1, codeB := b.1, reads := a.2.1 ++ b.2.1, idxA := a.2.2,
      idxB := b.2.2, scaleA := scaleBytes x s.clk (fwAsc fw) f.asca.toNat (32 * kb),
      scaleB := scaleBytes x s.clk (fwBsc fw && p.b.isSome) f.bsca.toNat (32 * kb), group := group }
  s.mxStart c e p (8 + (if f.zacc then 0 else tLen p.f32) + cdiv (a.2.2.length + b.2.2.length) 256) r

/-! ## The crier bus (R282, R283) -/

/-- A context's counterpart: its oldest unbegun command, if that is a crier command (R282). -/
def State.crierHead (s : State) (d : CtxId) : Option (MxEntry × Instr × MulForm × Nat) :=
  match (s.ctx d).mxHead with
  | none => none
  | some e =>
    match decode .mx e.w.toNat with
    | none => none
    | some i => (crierOf i).map fun f => (e, i, f.1, f.2)

/-- A member whose counterpart is a crier command that meets conditions 1 to 3 of R278. -/
structure Crier where
  d : CtxId
  e : MxEntry
  i : Instr
  f : MulForm
  op : Nat
  p : MxPlan

/-- The member of context `d`, if it is there and ready, and no wait of another engine of it has been granted in this clock (R144). -/
def State.crier (s : State) (d : CtxId) : Option Crier :=
  let x := s.ctx d
  match x.job, s.crierHead d with
  | some j, some (e, i, f, op) =>
    let p := mulPlan d f op j (x.fq.headD 0)
    if s.serves d && !x.mx.halted && mxReady x s.clk p && s.placeOk d 3 then some ⟨d, e, i, f, op, p⟩ else none
  | _, _ => none

/-- The contexts a CMASK names, with the CTX of context `c` (R282). -/
def crierSet (c : CtxId) (mask : BitVec 16) : List CtxId :=
  ((List.range 16).filter fun i => mask.getLsbD i).map fun i => ctxOf (32 * c.cluster + 2 * i + c.val % 2)

/-- The fields of a format word that a crier group must agree on (R282). -/
def crierWord (fw : W64) : List Nat :=
  [fwBfmt fw, fwBnp fw, (fwBsc fw).toNat, (fwBcbf fw).toNat, (fwMode fw).toNat, fwCcl fw]

/-- All values of a list are equal. -/
def allSame {α : Type} [DecidableEq α] (l : List α) : Bool := l.all fun v => some v == l.head?

/-- The reason of the crier fault, the lowest that holds; 0 when the commands match (R282, R296). -/
def crierReason (s : State) (l : List Crier) : Nat :=
  if !allSame (l.map fun m => m.f.t.cseq) then 1
  else if !allSame (l.map fun m => m.f.cmask) then 2
  else if ((l.filter fun m => m.f.bsel == 2).length != 1) then 3
  else if !allSame (l.map fun m => crierWord ((s.ctx m.d).fq.headD 0)) then 4
  else if !allSame (l.map fun m => (m.op, m.f.kbm1)) then 5
  else 0

/-- DETAIL1 of a crier fault on member `m` (R296). -/
def crierDet (reason : Nat) (l : List Crier) (m : Crier) : Nat :=
  let o := (l.filter fun u => u.d != m.d).head?
  let n := match o with
    | some u => memberOf u.d * 2 ^ 48 + u.f.t.cseq.toNat * 2 ^ 32
    | none => 0
  reason * 2 ^ 52 + n + m.f.t.cseq.toNat * 2 ^ 16 + m.f.cmask.toNat

/-- Reports each member's fault, where it has one. -/
def State.crierFaults (s : State) (l : List Crier) (f : Crier → Option FaultInfo) : State :=
  l.foldl (fun s m =>
    match f m with
    | some g => s.mxReport m.d m.e.num g
    | none => s) s

/-- The late checks of a member (R278, R282). -/
def Crier.late (s : State) (m : Crier) : Option FaultInfo :=
  let x := s.ctx m.d
  mulLate s.clk m.f (x.fq.headD 0) x m.p

/-- The early checks of a member. -/
def Crier.early (s : State) (m : Crier) : Option FaultInfo :=
  let x := s.ctx m.d
  match x.job with
  | some j => mxEarly x j m.p
  | none => none

/-- The group of context `c`'s crier command (R282): while a member is awaited, own faults only; then own faults, the comparison,
the begin-clock checks, and when every wait can be granted the common begin. A member whose own check fails in the comparison clock meets
that fault alone, and the others wait (log entry 104). -/
def State.crierTry (s : State) (c : CtxId) : State :=
  match s.crier c with
  | none => s
  | some me =>
    let l := (crierSet c me.f.cmask).filterMap s.crier
    let own := if mxGrant (s.ctx c) me.p.t && (me.late s).isNone then s.modCtx c fun x => { x with mx := { x.mx with held := true } } else s
    match me.early s with
    | some g => s.mxReport c me.e.num g
    | none =>
      if l.length < (crierSet c me.f.cmask).length then
        match me.late s with
        | some g => s.mxReport c me.e.num g
        | none => own
      else if l.any fun m => (m.early s).isSome then own.crierFaults l fun m => m.early s
      else
        let why := crierReason s l
        if why ≠ 0 then s.crierFaults l fun m => some (m.p.fault 0x0506 (crierDet why l m))
        else if l.any fun m => (m.late s).isSome then own.crierFaults l fun m => m.late s
        else if l.all fun m => mxGrant (s.ctx m.d) m.p.t then
          l.foldl (fun s m => (s.mulStart m.d m.e m.p m.f m.i (l.map fun u => u.d.val)).noteActed (.ev m.d) 3) s
        else own

/-- CRIER_COMPARE: the group of a context's crier command is compared and, if it can, begins together (R282). -/
def execCrierCompare (c : CtxId) (s : State) : Answer := .next (s.crierTry c)

/-- A multiply at the head of the queue of the context in focus (R278, R284, R285). -/
def State.mulOp (s : State) (f : MulForm) (op : Nat) (i : Instr) : Answer :=
  if f.bsel = 0 then
    s.mxOp (fun _ j fw => mulPlan s.focus f op j fw) (fun x p => mulLate s.clk f (x.fq.headD 0) x p)
      fun c e p s => s.mulStart c e p f i []
  else execCrierCompare s.focus s

/-- `mmul` (R284). -/
def execMmul (f : MulForm) (s : State) : Answer := s.mulOp f 1 (.mmul f)
/-- `mmuls` (R285). -/
def execMmuls (f : MulForm) (s : State) : Answer := s.mulOp f 2 (.mmuls f)

/-! ## The other commands (R287 to R292) -/

/-- A plan that touches no pool byte and pops no format word. -/
def barePlan (t : MxTail) (op : Nat) : MxPlan :=
  { t := t, op := op, acc := none, f32 := false, tile := false, crier := false, maskBad := false, fmtBad := false, a := none,
    b := none, chk := [], accRd := none, rd := [], wr := [] }

/-- A plan on one tile. -/
def tilePlan (t : MxTail) (op : Nat) (j : Job) (acc : Byte) (f32 rd : Bool) : MxPlan :=
  let u := tileRange j acc f32
  { barePlan t op with
    acc := some acc, f32 := f32, accRd := if rd then some u else none, rd := if rd then [u] else [], wr := [u] }

/-- `hrot` (R287). -/
def execHrot (acc : Byte) (side kind : Bool) (t : MxTail) (s : State) : Answer :=
  s.mxOp (fun _ j _ => tilePlan t 3 j acc kind true) (fun _ _ => none) fun c e p s =>
    s.mxStart c e p (8 + tLen kind) { bareRun (.hrot acc side kind t) 32 (tLen kind) with fold := foldOf (s.core c.core).slv }

/-- Bytes of a drain's output (R288). -/
def drainSize (ofmt : Nat) : Nat := if fmtIsPlane ofmt then 32 * planeStride (fmtPlanes ofmt) else 1024 * fmtBytes ofmt

/-- `drain` (R288). -/
def execDrain (f : DrainForm) (s : State) : Answer :=
  s.mxOp
    (fun _ j fw =>
      let b := tilePlan f.t 4 j f.acc (fwMode fw) true
      let out := (f.dst.toNat, drainSize (fwOfmt fw))
      { b with
        tile := true, fmtBad := !drainWordOk fw,
        chk := [(out.1, out.2, true, 64)] ++ if f.dsce then [(f.dsca.toNat, 32, false, 1)] else [],
        rd := b.rd ++ (if f.dsce then [(f.dsca.toNat, 32)] else []), wr := out :: if f.clr then b.wr else [] })
    (fun x p =>
      if f.dsce && fmtIsPlane (fwOfmt (x.fq.headD 0)) then mxScaleBad p 2 (x.poolGet s.clk f.dsca.toNat 32) else none)
    fun c e p s =>
      let x := s.ctx c
      let fw := x.fq.headD 0
      s.mxStart c e p (8 + tLen p.f32)
        { bareRun (.drain f) 8 (cdiv (drainSize (fwOfmt fw)) 256 + if f.clr then tLen p.f32 else 0) with
          scaleA := scaleBytes x s.clk f.dsce f.dsca.toNat 32 }

/-- `acclr` (R289). -/
def execAcclr (acc : Byte) (kind : Bool) (t : MxTail) (s : State) : Answer :=
  s.mxOp (fun _ j _ => tilePlan t 5 j acc kind false) (fun _ _ => none) fun c e p s =>
    s.mxStart c e p 1 (bareRun (.acclr acc kind t) 0 (tLen kind))

/-- `accadd` (R290). -/
def execAccadd (src : BitVec 20) (acc : Byte) (kind : Bool) (t : MxTail) (s : State) : Answer :=
  s.mxOp
    (fun _ j _ =>
      let b := tilePlan t 6 j acc kind true
      let n := if kind then 4096 else 8192
      { b with chk := [(src.toNat, n, false, 64)], rd := (src.toNat, n) :: b.rd })
    (fun _ _ => none)
    fun c e p s =>
      s.mxStart c e p (8 + 2 * tLen kind)
        { bareRun (.accadd src acc kind t) 4 (tLen kind) with
          src0 := (s.ctx c).poolGet s.clk src.toNat (if kind then 4096 else 8192) }

/-- A command that completes in its begin clock: its signal falls in the next (R280). -/
def State.mxInstant (s : State) (c : CtxId) (e : MxEntry) (p : MxPlan) : State :=
  s.modCtx c fun x =>
    let x := if p.t.wval = 0 then x else x.semTake s.clk p.t.wsem.toNat p.t.wval.toNat
    { x with
      mxq := x.mxq.filter fun u => u.num != e.num,
      mx := { x.mx with
        held := false, free := s.clk + 1,
        sigs := if p.t.sval = 0 then x.mx.sigs else x.mx.sigs ++ [(e.num, p.det0, p.t.ssem.toNat, p.t.sval.toNat)] } }

/-- `cbswap`: exchanges the sides of a bank in its begin clock (R291, R219). -/
def execMxCbswap (bank : BitVec 2) (t : MxTail) (s : State) : Answer :=
  s.mxOp (fun _ _ _ => barePlan t 7) (fun _ _ => none) fun c e p s =>
    (s.mxInstant c e p).modCtx c fun x =>
      { x with
        banks := swapBank x.banks bank.toNat,
        note := let n := x.noteAt s.clk; { n with swaps := bank.toNat :: n.swaps } }

/-- `msem` (R292). -/
def execMsem (t : MxTail) (s : State) : Answer :=
  s.mxOp (fun _ _ _ => barePlan t 8) (fun _ _ => none) fun c e p s => s.mxInstant c e p

/-! ## Results -/

/-- The kept positions of a block's 32 weights (R285). -/
def keptAt (md : Nat) : List Nat :=
  (List.range 32).map fun i =>
    let nib := md / 16 ^ (i / 2) % 16
    4 * (i / 2) + if i % 2 = 0 then nib % 4 else nib / 4

/-- The first reserved group of an operand's metadata, in address order, as DETAIL1 of the sparse-metadata fault (R285, R296). -/
def sparseBad (kb : Nat) (md : List Nat) : Option Nat :=
  (md.zipIdx.flatMap fun d => (List.range 16).map fun g => (d.2, g, d.1 / 16 ^ g % 16)).findSome? fun v =>
    if v.2.2 / 4 ≤ v.2.2 % 4 then some (v.1 % kb * 2 ^ 16 + v.1 / kb * 2 ^ 8 + v.2.1 * 2 ^ 4 + v.2.2) else none

/-- The B side of a multiply as its sender reads it: values, metadata dwords and scale bytes (R282, R284, R285). -/
structure BSide where
  vals : List (List (List Int))
  md : List Nat
  scale : List Byte

/-- Reads B for a multiply of context `x`. -/
def bSide (x : Context) (clk : Nat) (j : Job) (r : MxRun) (f : MulForm) (op : Nat) : BSide :=
  let kb := f.kbm1.toNat + 1
  let o := infoB r.fmt
  let bs := if o.w = 0 then x.poolGet clk (2048 * (j.k.mbase + f.bop.toNat)) (32 * kb * o.stride) else r.idxB
  ⟨operandVals o r.nb kb r.codeB bs, if op = 2 then numsOf 8 (x.poolGet clk f.mdat.toNat (256 * kb)) else [], r.scaleB⟩

/-- The blocks of an A row as they meet B: as they stand, or picked by the metadata of column `n` (R285). -/
def aBlock (op kb : Nat) (row : List (List Int)) (md : List Nat) (n b : Nat) : List Int :=
  if op = 2 then
    let d := row.getD (2 * b) [] ++ row.getD (2 * b + 1) []
    (keptAt (md.getD (n * kb + b) 0)).map fun k => d.getD k 0
  else row.getD b []

/-- The accumulator tile a multiply leaves (R284, R285). -/
def mulTile (kb op : Nat) (f32 : Bool) (a : List (List (List Int))) (b : BSide) (scaleA : List Byte) (acc0 : List Nat) :
    List Nat × FlagSet :=
  withFlags ((List.range 1024).map fun e =>
    let m := e / 32
    let n := e % 32
    (List.range kb).foldl (fun s k =>
      let bi := dotInt (aBlock op kb (a.getD m []) b.md n k) ((b.vals.getD n []).getD k [])
      let t := if f32 then accFloat s.1 bi (scaleA.getD (m * kb + k) 0x7F).toNat (b.scale.getD (n * kb + k) 0x7F).toNat
        else accInt s.1 bi
      (t.1, s.2 ||| t.2)) (acc0.getD e 0, 0))

/-- A multiply's result, with B as its sender read it: the bytes to write, or the sparse-metadata fault with a tile of free
bytes (R284, R285). -/
def mulResult (x : Context) (clk : Nat) (j : Job) (r : MxRun) (f : MulForm) (op : Nat) (b : BSide) (free : Nat) : MxRun :=
  let kb := f.kbm1.toNat + 1
  let f32 := fwMode r.fmt
  let t := tileRange j f.acc f32
  match sparseBad kb b.md with
  | some d =>
    { r with writes := placed t.1 ((List.range t.2).map fun i => Config.freeByte (free + i)), undef := some (0x0507, BitVec.ofNat 64 d) }
  | none =>
    let o := infoA r.fmt
    let ka := if op = 2 then 2 * kb else kb
    let bs := if o.w = 0 then x.poolGet clk (2048 * (j.k.mbase + f.aop.toNat)) (32 * ka * o.stride) else r.idxA
    let v := mulTile kb op f32 (operandVals o r.na ka r.codeA bs) b r.scaleA (if f.zacc then [] else tileElems f32 r.acc0)
    { r with writes := placed t.1 (tileBytes f32 v.1), flags := v.2 }

/-- C·H or H·C (R287, R58). -/
def hrotTile (f32 side : Bool) (e : List Nat) : List Nat × FlagSet :=
  withFlags ((List.range 1024).map fun q =>
    let m := q / 32
    let n := q % 32
    let l := (List.range 32).map fun k =>
      if side then (e.getD (32 * k + n) 0, hadamardNeg m k) else (e.getD (32 * m + k) 0, hadamardNeg k n)
    if f32 then hsumFloat l else hsumInt l)

/-- x × SCL, exact, with IEEE specials (R288). -/
def drainScale (x : FVal) (scl : Nat) : FVal × FlagSet :=
  let y := fp32.dec scl
  if x.isNaN || y.isNaN then (.nan false, flagIf (x.isSNaN || y.isSNaN) flNV)
  else match x.mulV y with
    | some v => (v, 0)
    | none => (.nan false, flNV)

/-- One output element of a drain (R288): plane digits packed, or the element's bits. -/
def drainElem (f : DrainForm) (fw : W64) (e : Nat) (scale : Nat) : Nat × FlagSet :=
  let x := if fwMode fw then fp32.dec e else FVal.ofInt (sextN 64 e)
  let v := if f.uscl then drainScale x f.scl.toNat else (x, 0)
  let r := encVal (fwOfmt fw) (if fmtIsPlane (fwOfmt fw) then v.1.scale (127 - (scale : Int)) else v.1)
  (r.1, r.2 ||| v.2)

/-- A drain's result (R288). -/
def drainResult (j : Job) (r : MxRun) (f : DrainForm) : MxRun :=
  let f32 := fwMode r.fmt
  let o := fwOfmt r.fmt
  let e := tileElems f32 r.acc0
  let v := withFlags (e.zipIdx.map fun p => drainElem f r.fmt p.1 (r.scaleA.getD (p.2 / 32) 0x7F).toNat)
  let bs := if fmtIsPlane o then
      (List.range 32).flatMap fun m =>
        ((blockBytes 0 (fmtPlanes o) (fmtPlanes o) 0 fun i => v.1.getD (32 * m + i) 0).map Prod.snd) ++
          List.replicate (planeStride (fmtPlanes o) - 16 * fmtPlanes o) 0
    else v.1.flatMap (leBytes (fmtBytes o))
  let t := tileRange j f.acc f32
  { r with writes := placed f.dst.toNat bs ++ (if f.clr then placed t.1 (List.replicate t.2 0) else []), flags := v.2 }

/-- One element of `accadd` (R290). -/
def accaddElem (f32 : Bool) (a b : Nat) : Nat × FlagSet :=
  if f32 then if b % 2 ^ 31 = 0 then (a, 0) else sat32 (fp32.add a b) else sat64 (sextN 64 a + sextN 64 b)

/-- The result of a run that is no member of a group, computed as it enters compute. -/
def State.mxResult (s : State) (c : CtxId) (j : Job) (r : MxRun) : MxRun :=
  let x := s.ctx c
  let put (acc : Byte) (f32 : Bool) (v : List Nat × FlagSet) : MxRun :=
    { r with writes := placed (tileRange j acc f32).1 (tileBytes f32 v.1), flags := v.2 }
  match r.i with
  | .mmul f => mulResult x s.clk j r f 1 (bSide x s.clk j r f 1) s.free
  | .mmuls f => mulResult x s.clk j r f 2 (bSide x s.clk j r f 2) s.free
  | .hrot acc side kind _ => put acc kind (hrotTile kind side (tileElems kind r.acc0))
  | .drain f => drainResult j r f
  | .acclr acc kind _ => put acc kind (List.replicate 1024 0, 0)
  | .accadd _ acc kind _ =>
    put acc kind (withFlags (((tileElems kind r.acc0).zip (tileElems kind r.src0)).map fun v => accaddElem kind v.1 v.2))
  | _ => r

/-! ## Stages (R279, R280, R283) -/

/-- The run in the setup stage. -/
def Context.mxSetup (x : Context) : Option MxRun := x.mx.runs.find? fun r => r.stage == .setup

/-- A run may leave setup: its clocks have passed and the compute stage is free (R279). -/
def Context.mayCompute (x : Context) (clk : Nat) (r : MxRun) : Bool :=
  decide (r.due ≤ clk) && x.mx.runs.all fun u => u.stage != .compute

/-- The engine is not held by its group (R283). -/
def Context.mxFree (x : Context) : Context := { x with mx := { x.mx with held := false } }

/-- Replaces a run by number. -/
def Context.setMxRun (x : Context) (r : MxRun) : Context :=
  { x with mx := { x.mx with runs := x.mx.runs.map fun u => if u.num == r.num then r else u } }

/-- A multiply, which reads operands in compute (R279). -/
def isMul (i : Instr) : Bool :=
  match i with
  | .mmul _ => true
  | .mmuls _ => true
  | _ => false

/-- The member of a group that sends B (R282). -/
def isSender (i : Instr) : Bool :=
  match crierOf i with
  | some f => f.1.bsel == 2
  | none => false

/-- The setup runs of a group's members. -/
def State.groupRuns (s : State) (g : List Nat) : List (CtxId × MxRun) :=
  g.filterMap fun d => ((s.ctx (ctxOf d)).mx.runs.find? fun r => r.group == g && r.stage == .setup).map fun r => (ctxOf d, r)

/-- A group enters compute together: B is the sender's, the length the largest times the largest F (R283). -/
def State.groupCompute (s : State) (l : List (CtxId × MxRun)) : State :=
  let fold := l.foldl (fun a m => Nat.max a m.2.fold) 1
  let len := l.foldl (fun a m => Nat.max a m.2.clen) 0 * fold
  match l.find? fun m => isSender m.2.i with
  | none => s
  | some snd =>
    match (s.ctx snd.1).job, crierOf snd.2.i with
    | some js, some fs =>
      let b := bSide (s.ctx snd.1) s.clk js snd.2 fs.1 fs.2
      l.foldl (fun s m =>
        match (s.ctx m.1).job, crierOf m.2.i with
        | some j, some f =>
          let r := mulResult (s.ctx m.1) s.clk j m.2 f.1 f.2 b s.free
          ({ s with free := s.free + 8192 }).modCtx m.1 fun x =>
            (x.setMxRun { r with stage := .compute, due := s.clk + len }).mxFree
        | _, _ => s) s
    | _, _ => s

/-- A clock in which a member could have gone on and its group did not (R283). -/
def State.mxHold (s : State) (c : CtxId) : State := s.modCtx c fun x => { x with mx := { x.mx with held := true } }

/-- MX_ENTER_COMPUTE: the command in setup enters compute once its setup clocks have passed and the command before has left
compute (R279); a crier group enters together (R283), and waits
for ever for a member that a discard took in setup (log entry 105). Its result is formed here from the bytes the compute stage reads
(log entry 17). -/
def execMxEnterCompute (c : CtxId) (s : State) : Answer :=
  let x := s.ctx c
  match x.job, x.mxSetup with
  | some j, some r =>
    if !x.mayCompute s.clk r then .next s
    else if r.group.isEmpty then
      let t := s.mxResult c j r
      .next (({ s with free := s.free + 8192 }).modCtx c fun x =>
        x.setMxRun { t with stage := .compute, due := s.clk + r.clen * r.fold })
    else
      let l := s.groupRuns r.group
      if l.length = r.group.length && l.all fun m => (s.ctx m.1).mayCompute s.clk m.2 then .next (s.groupCompute l)
      else .next (s.mxHold c)
  | _, _ => .next s

/-- A run may leave compute: its clocks have passed and the writeback stage is free; a command that completes in this clock still holds
it (R279). -/
def Context.mayWrite (x : Context) (clk : Nat) (r : MxRun) : Bool :=
  decide (r.due ≤ clk) && (x.mxEarlier clk).all fun u => u.stage != .writeback

/-- The run in compute enters writeback: a command boundary (R276). -/
def Context.toWriteback (x : Context) (clk : Nat) (r : MxRun) : Context :=
  { x.setMxRun { r with stage := .writeback, due := clk + r.wlen - 1 } with note := { x.noteAt clk with boundary := true } }

/-- The compute runs of a group's members. -/
def State.groupCompRuns (s : State) (g : List Nat) : List (CtxId × MxRun) :=
  g.filterMap fun d => ((s.ctx (ctxOf d)).mx.runs.find? fun r => r.group == g && r.stage == .compute).map fun r => (ctxOf d, r)

/-- The command in compute enters writeback once its clocks have passed and the writeback stage is free (R279); the members of a crier
group leave compute together, and a member that only waits for another counts the clock (R283). -/
def State.mxWriteback (s : State) (c : CtxId) : State :=
  let x := s.ctx c
  match x.mx.runs.find? fun r => r.stage == .compute with
  | none => s
  | some r =>
    if !x.mayWrite s.clk r then s
    else if r.group.isEmpty then s.modCtx c fun x => x.toWriteback s.clk r
    else
      let l := s.groupCompRuns r.group
      if l.all fun m => (s.ctx m.1).mayWrite s.clk m.2 then
        l.foldl (fun s m => s.modCtx m.1 fun x => (x.toWriteback s.clk m.2).mxFree) s
      else s.mxHold c

/-- OP, ACC and tail of a command. -/
def mxParts (i : Instr) : Option (Nat × Nat × MxTail) :=
  match i with
  | .mmul f => some (1, f.acc.toNat, f.t)
  | .mmuls f => some (2, f.acc.toNat, f.t)
  | .hrot acc _ _ t => some (3, acc.toNat, t)
  | .drain f => some (4, f.acc.toNat, f.t)
  | .acclr acc _ t => some (5, acc.toNat, t)
  | .accadd _ acc _ t => some (6, acc.toNat, t)
  | .mxCbswap _ t => some (7, 0, t)
  | .msem t => some (8, 0, t)
  | _ => none

/-- A command's signal; a sum above 65535 is not applied and faults (R280). -/
def State.mxSignal (s : State) (c : CtxId) (num : W32) (det0 : W64) (n v : Nat) : State :=
  if v = 0 then s
  else
    match (s.ctx c).semSignal s.clk n v with
    | some x => s.setCtx c x
    | none =>
      s.mxReport c num ⟨0x050A, 1, 0, det0, BitVec.ofNat 64 (n * 2 ^ 32 + v * 2 ^ 16 + (s.ctx c).semTest s.clk n)⟩

/-- MX_COMMAND_COMPLETE: in its last writeback clock a command writes its bytes, raises its flags and signals, and leaves the queue
(R280), unless a plane write bars one of them: then it stays in writeback (R213, log entry 90); one whose results are undefined raises
its fault instead of flags and signal (R285). -/
def execMxCommandComplete (c : CtxId) (s : State) : Answer :=
  match (s.ctx c).mx.runs.find? fun r => r.stage == .writeback with
  | none => .next s
  | some r =>
    if s.clk < r.due || !((s.ctx c).barredBlocks s.clk r.writes).isEmpty then .next s
    else
      let s := s.modCtx c fun x =>
        let x := x.poolPut s.clk .mx r.writes
        { x with
          note := let n := x.noteAt s.clk; { n with gone := r :: n.gone },
          mxq := x.mxq.filter fun e => e.num != r.num, mx := { x.mx with runs := x.mx.runs.filter fun u => u.num != r.num } }
      match mxParts r.i with
      | none => .next s
      | some (op, acc, t) =>
        match r.undef with
        | some (code, det1) =>
          .next (s.mxReport c r.num ⟨code, 1, 0, mxDet0 op acc (if fwMode r.fmt then 1 else 2), det1⟩)
        | none =>
          .next ((s.modCtx c fun x => x.raiseFlags 2 r.flags).mxSignal c r.num (mxDet0 op acc 0) t.ssem.toNat t.sval.toNat)

/-! ## The matrix engine's clock -/

/-- Signals of the clock before (R280), and a fault held back, with the time of its detection (R31, R34). -/
def State.mxPending (s : State) (c : CtxId) : State :=
  let l := (s.ctx c).mx.sigs
  let s := s.modCtx c fun x => { x with mx := { x.mx with sigs := [] } }
  let s := l.foldl (fun s g => s.mxSignal c g.1 g.2.1 g.2.2.1 g.2.2.2) s
  let x := s.ctx c
  match x.mx.late with
  | f :: r => if x.mx.halted then s else (s.modCtx c fun x => { x with mx := { x.mx with late := r } }).raiseAt c 2 0 f
  | [] => s

/-- Stages advance, oldest first (R279). -/
def State.mxStages (s : State) (c : CtxId) : State :=
  (Answer.stateOr s (execMxEnterCompute c (s.mxWriteback c))).mxWriteback c

/-- A command that is no command of R269 faults as it would begin (R296): a reserved OP, or a field. ACC of its
record is bits 23:16 of dword 0 (log entry 106), and condition 2 of R278 tests no byte (log entry 107). -/
def State.mxIllegal (s : State) (c : CtxId) : State :=
  let x := s.ctx c
  match x.mxHead with
  | none => s
  | some e =>
    let op := e.w.toNat % 256
    let acc := if op = 7 ∨ op = 8 then 0 else e.w.toNat / 2 ^ 16 % 256
    if x.mx.halted || !mxReady x s.clk (barePlan ⟨0, 0, 0, 0, 0⟩ op) then s
    else s.mxReport c e.num ⟨0x0501, 0, 0, mxDet0 op acc 0, if 1 ≤ op ∧ op ≤ 8 then 2 else 1⟩

end Sys2Proof.Machine
end

