-- ==== Sys2Proof/Machine/Drain.lean ====
section
/-! DEFINITION. What a frozen execute core waits for, and its slip-budget fault (R33, R168, R169); the end of a work item: when its
engines have drained (R33, R149), and CONTEXT_ENDED. -/

namespace Sys2Proof.Machine

/-! ## Engines that can do no more (R33) -/

/-- An answer that only adds a frozen clock (R166). -/
def slips (s : State) (c : CtxId) (r : Answer) : Bool :=
  match r with
  | .next t =>
    (match (s.ctx c).ex.block, (t.ctx c).ex.block with
    | some a, some b => decide (a.slip < b.slip)
    | _, _ => false)
  | _ => false

/-- Slot D's operation cannot issue in this clock (R165). -/
def State.exFreezes (s : State) (c : CtxId) (i : Instr) : Bool :=
  let t := { s with focus := c }
  match i with
  | .vpop f => slips t c (execVpop f t)
  | .vpopx f => slips t c (execVpopx f t)
  | .vpush f => slips t c (execVpush f t)
  | .vpushc f => slips t c (execVpushc f t)
  | .loopc f => slips t c (execLoopc f t)
  | .semw f => slips t c (execSemw f t)
  | .fbput f => slips t c (execFbput f t)
  | _ => false

/-- Slot D's operation of the block that runs, if it has started and is to issue a bundle. -/
def Context.slotD (x : Context) : Option (RunBlock × Instr) :=
  match x.ex.block with
  | some b => if x.ex.halted || b.draining then none else (decode .slotD (slotWord b.bundle 3)).map fun i => (b, i)
  | none => none

/-! ## Freezes that a fault of another engine causes (R33, R169) -/

/-- The sequencer is stopped by a fault, or stalls on an engine that is. -/
def State.sqStopped (s : State) (x : Context) : Bool :=
  x.run == .halt || (x.run == .stall &&
    (match s.decodeAt x with
    | some (.pushtMx _) | some (.pushrMx _) | some (.pushf _) | some (.semwait _ _) => x.mx.halted
    | some (.pushtCp _) | some (.pushrCp _) => x.cp.halted
    | some (.pushtAl _) | some (.pushrAl _) => x.alHalted
    | some (.fenceX _ p) => (p.getLsbD 2 && x.mx.halted) || (p.getLsbD 3 && x.cp.halted)
    | some .region => x.mx.halted || x.cp.halted
    | _ => false))

/-- A bind of port `n` waits in the copy queue. -/
def Context.bindQueued (x : Context) (n : Nat) : Bool :=
  x.cpq.any fun e => (x.cpRun e.num).isNone && match decode .cp e.w.toNat with
    | some (.bind f) => f.port.toNat == n
    | _ => false

/-- What port `n` is to supply comes from a stopped engine: its binding is stopped by a fault (other active bindings go on, R260); or it
has none, and the copy engine is stopped, or no bind of it waits and the sequencer, which would push one, is. -/
def State.portStopped (s : State) (x : Context) (n : Nat) : Bool :=
  match x.binding (BitVec.ofNat 4 n) with
  | some b => (x.bindRun b).isNone
  | none => x.cp.halted || (!x.bindQueued n && s.sqStopped x)

/-- A matrix command the context holds is still to signal semaphore `n` (R280). -/
def Context.mxSignals (x : Context) (n : Nat) : Bool :=
  (x.mx.sigs.any fun g => g.2.2.1 == n) || x.mxq.any fun e =>
    match (decode .mx e.w.toNat).bind mxParts with
    | some p => p.2.2.sval != 0 && p.2.2.ssem.toNat == n
    | none => false

/-- The execute core has nothing left to do, or its next bundle is frozen (R33, R166). -/
def State.exStuck (s : State) (c : CtxId) (x : Context) : Bool :=
  x.exIdle || x.slotD.any fun d => s.exFreezes c d.2

/-- The semaphore and amount a matrix command waits for (R268); a crier command's wait is its group's (R282). -/
def MxEntry.wants (e : MxEntry) : Option (Nat × Nat) :=
  let w := e.w.toNat
  let v := w / 2 ^ 224 % 2 ^ 16
  let crier := (w % 256 == 1 || w % 256 == 2) && w / 2 ^ 9 % 4 != 0
  if v = 0 ∨ crier then none else some (w / 2 ^ 192 % 16, v)

/-- The next matrix command waits for a semaphore (R281). -/
def Context.mxWaits (x : Context) : Bool := (x.mxHead.bind MxEntry.wants).any fun u => decide (x.semVal u.1 < u.2)

/-- A begun matrix command has only its writeback left, and a plane write bars it (R213). -/
def Context.mxBarred (x : Context) (clk : Nat) (r : MxRun) : Bool := r.stage == .writeback && !(x.barredBlocks clk r.writes).isEmpty

/-- The matrix engine has nothing left to do, or its next command waits for a semaphore (R33, R281); a writeback that the execute core's
plane write bars waits for the execute core. -/
def State.mxStuck (s : State) (x : Context) : Bool :=
  (x.mxq.isEmpty && x.mx.runs.isEmpty) ||
    (!x.mx.halted && (x.mx.runs.all fun r => x.mxBarred s.clk r) && x.mx.sigs.isEmpty &&
      (x.mxWaits || (!x.mx.runs.isEmpty && x.mxHead.isNone)))

/-- What semaphore `n` is to gain comes from a stopped engine: from the matrix engine while a command it holds signals `n`, and it is
stopped, or waits for what the stopped sequencer would signal; else from the sequencer, by itself or through a command that it
pushes. -/
def State.semStopped (s : State) (x : Context) (n : Nat) : Bool :=
  if x.mxSignals n then x.mx.halted || (x.mxWaits && s.sqStopped x) else s.sqStopped x || x.mx.halted

/-- What a freeze of slot D's operation waits for comes from an engine that a fault has stopped: such a freeze raises no fault (R33,
R169, log entry 91). -/
def State.supplyStopped (s : State) (x : Context) (i : Instr) : Bool :=
  x.failed ||
    (match i with
    | .vpop f => s.portStopped x (f.a.toNat % 16)
    | .vpopx f => s.portStopped x (f.a.toNat % 16)
    | .loopc f => s.portStopped x (f.cnt.toNat % 16)
    | .vpush f => s.portStopped x (f.d.toNat % 16)
    | .vpushc f => s.portStopped x (f.d.toNat % 16)
    | .semw f => s.semStopped x (f.d.toNat % 16)
    | .fbput _ => s.sqStopped x
    | _ => false)

/-- SLIP_BUDGET_FAULT: in a frozen clock, a strict launch's block whose slip count has passed SLIPB (R168). -/
def execSlipBudgetFault (c : CtxId) (s : State) : Answer :=
  let x := s.ctx c
  match x.job, x.slotD with
  | some j, some (b, i) =>
    if j.strict && decide (j.slipb < b.slip) && s.exFreezes c i && !s.supplyStopped x i then
      .next (s.exFault c b 3 0x0304 0
        (BitVec.ofNat 64 (b.slip % 2 ^ 32 * 2 ^ 32 + freezeCode (slotWord b.bundle 3))))
    else .next s
  | _, _ => .next s

/-- The command at the head of the copy queue, if there is one, cannot begin (R233). -/
def State.cpHeadWaits (s : State) (c : CtxId) (x : Context) : Bool :=
  match x.cpHead with
  | none => true
  | some e =>
    match decode .cp e.w.toNat with
    | none => false
    | some i => s.cpWaits c i

/-- A binding waits for the execute core: an input binding for room, an output binding for an entry (R247). -/
def Context.bindWaits (x : Context) (b : Binding) : Bool :=
  let p := x.port b.f.port.toNat
  if b.f.out then p.entries.isEmpty else decide (p.depth ≤ p.entries.length)

/-- The copy engine has nothing left to do, or what is left waits for the execute core: bindings without room or without entries, and
behind them commands that cannot begin (R33, R233, R247). -/
def State.cpStuck (s : State) (c : CtxId) (x : Context) : Bool :=
  x.cpIdle ||
    (!x.cp.halted && (x.cp.runs.all fun r => x.heldCp r.num || (r.kind == .stream && !r.moved && r.host.isEmpty && r.peer.isEmpty && r.acked)) &&
      x.cp.binds.all x.bindWaits && s.cpHeadWaits c x)

/-! ## The end of a work item (R149) -/

/-- A context in DONE has nothing left to drain (R149), and every engine that has faulted, which stays stalled until then, has its record
in a slot (R35). Of a work item that a STATE 2 fault ended, every engine goes on until it is done or only waits for what the others
would supply (R33, log entry 13). -/
def State.drained (s : State) (c : CtxId) (x : Context) : Bool :=
  x.run == .done && x.readsIn && x.alq.isEmpty && x.mx.late.isEmpty &&
    (s.faults.all fun e => e.src != .ctx c.val || e.rseq.isSome) &&
    (if x.failed then s.exStuck c x && s.mxStuck x && s.cpStuck c x else x.ex.held.isEmpty && x.exIdle && x.mxIdle && x.cpIdle)

/-- Every write that waits for a plane write lands: those left where a STATE 2 fault ended the item while its execute core was frozen
(R33, R213). -/
def State.landHeldAll (s : State) (c : CtxId) : State :=
  s.modCtx c fun x =>
    let l := (x.ex.held.map fun h => (h.addr, h.byte)) ++ (x.mx.runs.filter fun r => r.stage == .writeback).flatMap (·.writes)
    { x with pool := memScatter x.pool l, ex := { x.ex with held := [] } }

/-- CONTEXT_ENDED: the drain after `done` is complete; leftover format words go, the wheel positions are freed, and the work
item has ended (R149). -/
def execContextEnded (c : CtxId) (s : State) : Answer :=
  let x := s.ctx c
  if s.drained c x then
    let s := (((s.detach c).landHeldAll c).freePool c (x.ports.flatMap Port.range)).setItemOf c .ended
    .next (s.modCtx c fun x => { x.discard with run := .ended, job := none, pend := false })
  else .next s

end Sys2Proof.Machine
end

