-- ==== Sys2Proof/Machine/ExFloat.lean ====
section
/-! DEFINITION. The floating-point operations and conversions of slot B (R196 to R202). -/

namespace Sys2Proof.Machine

/-- An operation on FP32 lanes. -/
def State.exF32 (s : State) (left : Nat) (f : VForm) (fn : Nat → Nat → Nat → Nat × FlagSet) : Answer :=
  s.exElems 1 left 4 f fn
/-- An operation on BF16 lanes. -/
def State.exBf (s : State) (left : Nat) (f : VForm) (fn : Nat → Nat → Nat → Nat × FlagSet) : Answer :=
  s.exElems 1 left 2 f fn

/-- `vadd.f32` (R196). -/
def execVaddF32 (f : VForm) (s : State) : Answer := s.exF32 4 f fun a b _ => fp32.add a b
/-- `vsub.f32` (R196). -/
def execVsubF32 (f : VForm) (s : State) : Answer := s.exF32 4 f fun a b _ => fp32.sub a b
/-- `vmul.f32` (R196). -/
def execVmulF32 (f : VForm) (s : State) : Answer := s.exF32 5 f fun a b _ => fp32.mul a b
/-- `vfma.f32`: the old destination is the addend, one rounding (R196). -/
def execVfmaF32 (f : VForm) (s : State) : Answer := s.exF32 5 f fun a b o => fp32.fma a b o
/-- `vmin.f32` (R197). -/
def execVminF32 (f : VForm) (s : State) : Answer := s.exF32 4 f fun a b _ => fp32.minmax false a b
/-- `vmax.f32` (R197). -/
def execVmaxF32 (f : VForm) (s : State) : Answer := s.exF32 4 f fun a b _ => fp32.minmax true a b
/-- `vadd.bf` (R196). -/
def execVaddBf (f : VForm) (s : State) : Answer := s.exBf 4 f fun a b _ => bf16.add a b
/-- `vsub.bf` (R196). -/
def execVsubBf (f : VForm) (s : State) : Answer := s.exBf 4 f fun a b _ => bf16.sub a b
/-- `vmul.bf` (R196). -/
def execVmulBf (f : VForm) (s : State) : Answer := s.exBf 5 f fun a b _ => bf16.mul a b
/-- `vfma.bf`: the old destination is the addend, one rounding (R196). -/
def execVfmaBf (f : VForm) (s : State) : Answer := s.exBf 5 f fun a b o => bf16.fma a b o
/-- `vmin.bf` (R197). -/
def execVminBf (f : VForm) (s : State) : Answer := s.exBf 4 f fun a b _ => bf16.minmax false a b
/-- `vmax.bf` (R197). -/
def execVmaxBf (f : VForm) (s : State) : Answer := s.exBf 4 f fun a b _ => bf16.minmax true a b
/-- `vceq.f32` (R198). -/
def execVceqF32 (f : VForm) (s : State) : Answer := s.exCmp 1 2 f fun a b => fp32.cmp .eq a b
/-- `vclt.f32` (R198). -/
def execVcltF32 (f : VForm) (s : State) : Answer := s.exCmp 1 2 f fun a b => fp32.cmp .lt a b
/-- `vcle.f32` (R198). -/
def execVcleF32 (f : VForm) (s : State) : Answer := s.exCmp 1 2 f fun a b => fp32.cmp .le a b

/-! ## Conversions (R199 to R202) -/

/-- A conversion to elements of `wd` bytes: field B holds the part and the source format (R199); which elements take part is
R200's. -/
def State.exConvert (s : State) (f : VForm) (wd : Nat) (conv : Nat → Nat → Nat × FlagSet) : Answer :=
  s.exOp 1 (fun e => [e.view f.d f.x, e.view f.a f.x]) fun e =>
    let sc := f.b.toNat % 32
    let p := f.b.toNat / 32
    let ws := fmtBytes sc
    let n := 256 / (if ws < wd then wd else ws)
    let ps := if n < 256 / ws then p else 0
    let pd := if n < 256 / wd then p else 0
    let a := lanesOf ws (e.vec (e.view f.a f.x))
    let m := e.mask f.q
    let res := (List.range n).map fun j => (pd * n + j, conv sc (a.getD (ps * n + j) 0))
    .run s (some (laneWrite 4 wd (e.addr (e.view f.d f.x)) m (fun i => 64 * (i - pd * n) / n) res))

/-- `vcvt.f32` (R199, R201). -/
def execVcvtF32 (f : VForm) (s : State) : Answer := s.exConvert f 4 fun sc v => convertVal sc 0x11 v
/-- `vcvt.bf` (R199, R201). -/
def execVcvtBf (f : VForm) (s : State) : Answer := s.exConvert f 2 fun sc v => convertVal sc 0x10 v
/-- `vcvt.i32` (R199, R201). -/
def execVcvtI32 (f : VForm) (s : State) : Answer := s.exConvert f 4 fun sc v => convertVal sc 0x0A v
/-- `vcvt.f8` (R199, R201). -/
def execVcvtF8 (f : VForm) (s : State) : Answer := s.exConvert f 1 fun sc v => convertVal sc 0x12 v
/-- `vcvt.bp`: bp_encode into 16 bits, d0 highest (R202). -/
def execVcvtBp (f : VForm) (s : State) : Answer := s.exConvert f 2 fun sc v => bpEncode true 4 (decVal sc v)

end Sys2Proof.Machine
end

