-- ==== Sys2Proof/Machine/ExInt.lean ====
section
/-! DEFINITION. The integer operations of slot A (R190 to R194) and the mask, lane and reduction operations of slot C (R203 to
R206, R56). -/

namespace Sys2Proof.Machine

/-! ## Slot A (R190 to R193) -/

/-- A 32-bit lane as signed. -/
def sx (a : Nat) : Int := sextN 32 a
/-- An integer as a 32-bit lane. -/
def lane (x : Int) : Nat := wrapN 32 x
/-- A sum saturated to INT32, with SA when clamped (R190). -/
def satLane (x : Int) : Nat × FlagSet :=
  let y := satI x (-2147483648) 2147483647
  (lane y, flagIf (y != x) flSA)
/-- a shifted right with copies of its sign, any count (R191). -/
def sraLane (a n : Nat) : Nat := lane (sx a / (2 ^ (if n < 32 then n else 31) : Nat))

/-- `vadd.i32` (R190). -/
def execVaddI32 (f : VForm) (s : State) : Answer := s.exLanes 0 2 f fun a b => (a + b) % 2 ^ 32
/-- `vsub.i32` (R190). -/
def execVsubI32 (f : VForm) (s : State) : Answer := s.exLanes 0 2 f fun a b => (a + 2 ^ 32 - b) % 2 ^ 32
/-- `vmul.i32` (R190). -/
def execVmulI32 (f : VForm) (s : State) : Answer := s.exLanes 0 3 f fun a b => a * b % 2 ^ 32
/-- `vmulh.i32` (R190). -/
def execVmulhI32 (f : VForm) (s : State) : Answer := s.exLanes 0 3 f fun a b => lane (sx a * sx b / 2 ^ 32)
/-- `vmin.i32` (R190). -/
def execVminI32 (f : VForm) (s : State) : Answer := s.exLanes 0 2 f fun a b => if sx b < sx a then b else a
/-- `vmax.i32` (R190). -/
def execVmaxI32 (f : VForm) (s : State) : Answer := s.exLanes 0 2 f fun a b => if sx a < sx b then b else a
/-- `vmin.n32` (R190). -/
def execVminN32 (f : VForm) (s : State) : Answer := s.exLanes 0 2 f fun a b => Nat.min a b
/-- `vmax.n32` (R190). -/
def execVmaxN32 (f : VForm) (s : State) : Answer := s.exLanes 0 2 f fun a b => Nat.max a b
/-- `vand` (R190). -/
def execVand (f : VForm) (s : State) : Answer := s.exLanes 0 2 f fun a b => a &&& b
/-- `vor` (R190). -/
def execVor (f : VForm) (s : State) : Answer := s.exLanes 0 2 f fun a b => a ||| b
/-- `vxor` (R190). -/
def execVxor (f : VForm) (s : State) : Answer := s.exLanes 0 2 f fun a b => a ^^^ b
/-- `vandn` (R190). -/
def execVandn (f : VForm) (s : State) : Answer := s.exLanes 0 2 f fun a b => a &&& (b ^^^ 0xFFFFFFFF)
/-- `vadds.i32` (R190). -/
def execVaddsI32 (f : VForm) (s : State) : Answer :=
  s.exElems 0 2 4 f fun a b _ => satLane (sx a + sx b)
/-- `vsubs.i32` (R190). -/
def execVsubsI32 (f : VForm) (s : State) : Answer :=
  s.exElems 0 2 4 f fun a b _ => satLane (sx a - sx b)
/-- `vshl` by a count per lane (R191). -/
def execVshl (f : VForm) (s : State) : Answer := s.exLanes 0 2 f fun a b => if b < 32 then a * 2 ^ b % 2 ^ 32 else 0
/-- `vshr` by a count per lane (R191). -/
def execVshr (f : VForm) (s : State) : Answer := s.exLanes 0 2 f fun a b => if b < 32 then a / 2 ^ b else 0
/-- `vsra` by a count per lane (R191). -/
def execVsra (f : VForm) (s : State) : Answer := s.exLanes 0 2 f fun a b => sraLane a b
/-- `vaddmin.i32`: the smaller of the old destination and the saturated sum (R192). -/
def execVaddminI32 (f : VForm) (s : State) : Answer :=
  s.exElems 0 2 4 f fun a b o =>
    let t := satLane (sx a + sx b)
    (if sx o < sx t.1 then o else t.1, t.2)

/-- `vaddi.i32` (R193). -/
def execVaddiI32 (f : IForm) (s : State) : Answer :=
  s.exMove 0 2 f fun l => l.map fun a => lane (sx a + f.imm.toInt)
/-- `vshli` (R193). -/
def execVshli (f : IForm) (s : State) : Answer :=
  s.exMove 0 2 f fun l => l.map fun a => a * 2 ^ f.imm.toNat % 2 ^ 32
/-- `vshri` (R193). -/
def execVshri (f : IForm) (s : State) : Answer :=
  s.exMove 0 2 f fun l => l.map fun a => a / 2 ^ f.imm.toNat
/-- `vsrai` (R193). -/
def execVsrai (f : IForm) (s : State) : Answer :=
  s.exMove 0 2 f fun l => l.map fun a => sraLane a f.imm.toNat
/-- `vmini.i32` (R193). -/
def execVminiI32 (f : IForm) (s : State) : Answer :=
  s.exMove 0 2 f fun l => l.map fun a => lane (satI (sx a) (-2147483648) f.imm.toInt)
/-- `vmaxi.i32` (R193). -/
def execVmaxiI32 (f : IForm) (s : State) : Answer :=
  s.exMove 0 2 f fun l => l.map fun a => lane (satI (sx a) f.imm.toInt 2147483647)

/-! ## Integer compares (R194) -/

/-- `vceq.i32` (R194). -/
def execVceqI32 (f : VForm) (s : State) : Answer := s.exCmp 0 2 f fun a b => (a == b, 0)
/-- `vclt.i32` (R194). -/
def execVcltI32 (f : VForm) (s : State) : Answer := s.exCmp 0 2 f fun a b => (decide (sx a < sx b), 0)
/-- `vcle.i32` (R194). -/
def execVcleI32 (f : VForm) (s : State) : Answer := s.exCmp 0 2 f fun a b => (decide (sx a ≤ sx b), 0)
/-- `vclt.n32` (R194). -/
def execVcltN32 (f : VForm) (s : State) : Answer := s.exCmp 0 2 f fun a b => (decide (a < b), 0)

/-! ## Slot C: select and lane movement (R203, R204) -/

/-- `vsel`: Q selects, every lane is written (R203). -/
def execVsel (f : VForm) (s : State) : Answer :=
  s.exOp 2 (fun e => [e.view f.d f.x, e.view f.a f.x, e.view f.b f.x]) fun e =>
    let a := lanesOf 4 (e.vec (e.view f.a f.x))
    let b := lanesOf 4 (e.vec (e.view f.b f.x))
    let m := e.mask f.q
    .run s (some (laneWrite 1 4 (e.addr (e.view f.d f.x)) (BitVec.allOnes 64) id
      ((numbered (a.zip b)).map fun v => (v.1, if m.getLsbD v.1 then v.2.1 else v.2.2, 0))))

/-- `vslu`: lanes up by n, zeros below (R204). -/
def execVslu (f : IForm) (s : State) : Answer :=
  s.exMove 2 2 f fun l => (List.range 64).map fun i => if f.imm.toNat ≤ i then l.getD (i - f.imm.toNat) 0 else 0
/-- `vsld`: lanes down by n, zeros above (R204). -/
def execVsld (f : IForm) (s : State) : Answer :=
  s.exMove 2 2 f fun l => (List.range 64).map fun i => l.getD (i + f.imm.toNat) 0
/-- `vbcst`: lane n to every lane (R204). -/
def execVbcst (f : IForm) (s : State) : Answer :=
  s.exMove 2 2 f fun l => List.replicate 64 (l.getD f.imm.toNat 0)

/-- A lane move of two vectors (R204). -/
def State.exMove2 (s : State) (f : VForm) (fn : List Nat → List Nat → List Nat) : Answer :=
  s.exOp 2 (fun e => [e.view f.d f.x, e.view f.a f.x, e.view f.b f.x]) fun e =>
    let a := lanesOf 4 (e.vec (e.view f.a f.x))
    let b := lanesOf 4 (e.vec (e.view f.b f.x))
    .run s (some (laneWrite 2 4 (e.addr (e.view f.d f.x)) (e.mask f.q) id (numbered ((fn a b).map fun v => (v, 0)))))

/-- `vperm`: lane (lane i of vb)[5:0] of va (R204). -/
def execVperm (f : VForm) (s : State) : Answer := s.exMove2 f fun a b => b.map fun i => a.getD (i % 64) 0
/-- `vfsu`: up by one lane, lane 63 of vb into lane 0 (R204). -/
def execVfsu (f : VForm) (s : State) : Answer := s.exMove2 f fun a b => (b.getD 63 0 :: a).take 64

/-! ## Masks (R205) -/

/-- An operation on two masks. -/
def State.exMask (s : State) (f : VForm) (fn : W64 → W64 → W64) : Answer :=
  s.exOp 2 (fun _ => []) fun e =>
    .run s (some (maskWrite 1 (f.d.toNat % 8) (BitVec.allOnes 64)
      (fn (e.mask (f.a.setWidth 3)) (e.mask (f.b.setWidth 3))) 0))
/-- The mask of the `n` lowest lanes. -/
def lowMask (n : Nat) : W64 := BitVec.ofNat 64 (2 ^ (if n < 64 then n else 64) - 1)

/-- `qand` (R205). -/
def execQand (f : VForm) (s : State) : Answer := s.exMask f fun a b => a &&& b
/-- `qor` (R205). -/
def execQor (f : VForm) (s : State) : Answer := s.exMask f fun a b => a ||| b
/-- `qxor` (R205). -/
def execQxor (f : VForm) (s : State) : Answer := s.exMask f fun a b => a ^^^ b
/-- `qandn` (R205). -/
def execQandn (f : VForm) (s : State) : Answer := s.exMask f fun a b => a &&& ~~~b
/-- `qnot` (R205). -/
def execQnot (f : VForm) (s : State) : Answer := s.exMask f fun a _ => ~~~a
/-- `qleni`: bits 0 to n − 1 (R205). -/
def execQleni (f : WForm) (s : State) : Answer :=
  s.exOp 2 (fun _ => []) fun _ =>
    .run s (some (maskWrite 1 (f.d.toNat % 8) (BitVec.allOnes 64) (lowMask f.imm.toNat) 0))
/-- `qlen`: bits 0 to min(mbN, 64) − 1, by the block's mailbox snapshot (R205, R155). -/
def execQlen (f : VForm) (s : State) : Answer :=
  s.exOp 2 (fun _ => []) fun e =>
    .run s (some (maskWrite 1 (f.d.toNat % 8) (BitVec.allOnes 64) (lowMask (e.b.mb.getD (f.a.toNat % 8) 0).toNat) 0))
/-- `qset`: bit i is lane i nonzero (R205). -/
def execQset (f : VForm) (s : State) : Answer :=
  s.exOp 2 (fun e => [e.view f.a f.x]) fun e =>
    .run s (some (maskWrite 1 (f.d.toNat % 8) (BitVec.allOnes 64)
      (maskOf ((lanesOf 4 (e.vec (e.view f.a f.x))).map (· != 0))) 0))

/-! ## Reductions (R206, R56) -/

/-- The tree of R56 over 2^k values: the lower half combined with the upper half, lane by lane, with the flags of every
step. -/
def reduceTree (fn : Nat → Nat → Nat × FlagSet) : Nat → List (Nat × FlagSet) → Nat × FlagSet
  | 0, l => l.headD (0, 0)
  | k + 1, l =>
    reduceTree fn k (((l.take (2 ^ k)).zip (l.drop (2 ^ k))).map fun p =>
      let v := fn p.1.1 p.2.1
      (v.1, p.1.2 ||| p.2.2 ||| v.2))

/-- A reduction of 2^k source elements, of which `lanes` reads the values; a source lane whose mask bit is 0 takes the
identity, and the result goes to every selected lane (R206). -/
def State.exReduce (s : State) (f : VForm) (k : Nat) (ident : Nat) (fn : Nat → Nat → Nat × FlagSet)
    (src : List Byte → List Nat) : Answer :=
  s.exOp 2 (fun e => [e.view f.d f.x, e.view f.a f.x]) fun e =>
    let m := e.mask f.q
    let a := (numbered (src (e.vec (e.view f.a f.x)))).map fun v =>
      (if m.getLsbD (v.1 * 64 / 2 ^ k) then v.2 else ident, (0 : FlagSet))
    let r := reduceTree fn k a
    .run s (some (laneWrite 6 4 (e.addr (e.view f.d f.x)) m id ((List.range 64).map fun i => (i, r.1, r.2))))

/-- `vradd.i32` (R206). -/
def execVraddI32 (f : VForm) (s : State) : Answer := s.exReduce f 6 0 (fun a b => ((a + b) % 2 ^ 32, 0)) (lanesOf 4)
/-- `vrmin.i32` (R206). -/
def execVrminI32 (f : VForm) (s : State) : Answer :=
  s.exReduce f 6 0x7FFFFFFF (fun a b => (if sx b < sx a then b else a, 0)) (lanesOf 4)
/-- `vrmax.i32` (R206). -/
def execVrmaxI32 (f : VForm) (s : State) : Answer :=
  s.exReduce f 6 0x80000000 (fun a b => (if sx a < sx b then b else a, 0)) (lanesOf 4)
/-- `vradd.f32` (R206). -/
def execVraddF32 (f : VForm) (s : State) : Answer := s.exReduce f 6 0x80000000 fp32.add (lanesOf 4)
/-- `vrmin.f32` (R206, R197). -/
def execVrminF32 (f : VForm) (s : State) : Answer := s.exReduce f 6 0x7F800000 (fp32.minmax false) (lanesOf 4)
/-- `vrmax.f32` (R206, R197). -/
def execVrmaxF32 (f : VForm) (s : State) : Answer := s.exReduce f 6 0xFF800000 (fp32.minmax true) (lanesOf 4)
/-- `vradd.bf`: 128 BF16 lanes widened and added in FP32 (R206, R56). -/
def execVraddBf (f : VForm) (s : State) : Answer :=
  s.exReduce f 7 0x80000000 fp32.add fun bs => (lanesOf 2 bs).map (· * 65536)

end Sys2Proof.Machine
end

