-- ==== Sys2Proof/Machine/Service.lean ====
section
/-! DEFINITION. The time base (R15 to R18), boot and bring-up (R389, R392), soft errors, retirement, evacuation and remap (R393 to
R395), thermal relief (R397), clock steps and ageing (R396). -/

namespace Sys2Proof.Machine

/-! ## Time base (R15 to R18) -/

/-- gPTP time minus device time, in ns. -/
def State.offset (s : State) (t : W64) : Int := (t.toNat : Int) - s.now.toNat

/-- The measured offset enters OFFS: its magnitude in units of 16 ns, at most 255 (R18). -/
def State.noteOffset (s : State) (t : W64) : State :=
  { s with offs := BitVec.ofNat 8 (Nat.min ((s.offset t).natAbs / 16) 255) }

/-- A forward step of device time to `t`, which the next clock's device time takes: every engine that reads it in one clock reads the
same value (R15, R16, R18). -/
def State.stepTo (s : State) (t : W64) : State :=
  { s with timeStep := some t, steps := satInc s.steps, stepped := true }

/-- GPTP_FIRST_LOCK: device time steps forward to a gPTP time ahead of it; otherwise it is slowed until within 100 ns (R15). -/
def execGptpFirstLock (port : BitVec 3) (t : W64) (s : State) : Answer :=
  if s.everLocked then .next s
  else
    let o := s.offset t
    let s := { s.noteOffset t with lock := true, hold := false, everLocked := true, tbPort := port }
    .next (if 0 < o then s.stepTo t else { s with ppm := if o < -100 then -500 else 0 })

/-- GPTP_SYNC: a valid Sync on the slave port: a lag above 1 ms steps device time forward, otherwise firmware sets the rate, below
nominal while device time leads by more than 100 ns; lock is regained from holdover (R16 to R18). -/
def execGptpSync (t : SyncMsg) (ppm : Int) (s : State) : Answer :=
  if !s.everLocked then .next s
  else
    let o := s.offset t.time
    let s := { s.noteOffset t.time with lock := true, hold := false, tbPort := t.port }
    let rate := if o < -100 ∧ 0 ≤ ppm then -500 else ppm
    .next (if 1000000 < o then { s.stepTo t.time with ppm := rate } else { s with ppm := rate })

/-- HOLDOVER_ENTRY: three Sync intervals without a valid message: the rate stays, HOLD reads 1 (R17). -/
def execHoldoverEntry (s : State) : Answer :=
  .next (if s.lock then { s with lock := false, hold := true } else s)

/-- TBNOW_LOW_READ: a 4-byte read of TBNOW latches its high half for the requester's next read at offset 4 (R18). In recovery only the
device summary block responds (R389). -/
def execTbnowLowRead (requester : Nat) (s : State) : Answer :=
  if s.phaseDev = 3 then .next (s.send .unsupported)
  else .next ({ s with latches := tabSet s.latches requester (s.now.extractLsb' 32 32) }.send
    (.barData (leBytes 4 (s.now.toNat % 2 ^ 32))))

/-! ## Boot and bring-up (R389, R392) -/

/-- The fuse minimum version (R389). -/
def State.fuseMin (s : State) : W32 := s.minVer.getD Config.fuseMinVer

/-- The signature of a firmware image verifies against key slot 0, which is not revoked (R387). -/
def fwSigned (i : FwImage) : Bool := slotKey 0 i.key && sm2Verify i.key i.image i.sig

/-- A firmware copy passes the checks of R389. -/
def State.imgOk (s : State) (i : FwImage) : Bool := fwSigned i && decide (s.fuseMin.toNat ≤ i.ver.toNat)

/-- MARGIN and MIN are not reset (R4, R396); LIMIT is firmware's. -/
def Age.kept (a : Age) : Age := { a with limit := Age.reset.limit, fresh := true }

/-- Firmware's host access map: 2 MiB units and their grants (R384). -/
def hostMapOf (map : List (Nat × BitVec 2)) : Tab (BitVec 2) := map.foldl (fun t p => tabSet t p.1 p.2) []

/-- DEVICE_RESET: every part takes its reset value, but for the fuses and the measured TJ, MARGIN and MIN, which are not reset (R4,
R396); the boot ROM takes the first flash copy that passes, whose host access map stands from then on (R384), else the device is in
recovery (R389). -/
def execDeviceReset (copy1 copy2 : FwImage) (s : State) : Answer :=
  let r := { State.reset with
    agenda := s.agenda, phase := s.phase, focus := s.focus, lnFocus := s.lnFocus, free := s.free, out := s.out, minVer := s.minVer,
    tj := s.tj, ages := s.ages.map fun (a : Nat × Age) => (a.1, a.2.kept) }
  let boot (n : BitVec 3) (i : FwImage) : State :=
    { r with boot := n, imgver := i.ver, tsver := i.tsver, fwdig := sm3 i.image, hostMap := hostMapOf i.map }
  .next (if s.imgOk copy1 then boot 1 copy1 else if s.imgOk copy2 then boot 2 copy2 else { r with boot := 7, phaseDev := 3 })

/-- REDUCED_SERVICE: within 120 ms: cluster 0 as partition 0, MXCAP 0, the clock at step 0 (R392). -/
def execReducedService (s : State) : Answer :=
  if s.phaseDev = 0 ∧ s.boot ≠ 7 then
    let s := (List.range 8).foldl (fun s p =>
      s.setPart p { s.part p with pclu := (s.part p).pclu &&& ~~~(0xFFF : W64) ||| (if p = 0 then 1 else 0) }) s
    .next { s with
      phaseDev := 1, mxcap := 0, mxcapNew := none, mxcapCfg := 0, clkStep := 0, clkStepNew := none, clkStepCfg := 0 }
  else .next s

/-- MXCAP takes a value for commands that begin from the next clock (R277). -/
def State.setMxcap (s : State) (v : Byte) : State :=
  { s with
    mxcap := match s.mxcapNew with
      | some (t, u) => if t < s.clk then u else s.mxcap
      | none => s.mxcap,
    mxcapNew := some (s.clk, v) }

/-- The value MXCAP holds. -/
def State.mxcapNow (s : State) : Byte := (s.mxcapNew.map Prod.snd).getD s.mxcap

/-- FULL_SERVICE: within 600 ms: every unit not retired is in service, MXCAP is as configured (R392), and so is the host access map
(R384). -/
def execFullService (mxcap : ServiceCfg) (s : State) : Answer :=
  .next (if s.phaseDev = 1 then
    { s.setMxcap mxcap.mxcap with phaseDev := 2, mxcapCfg := mxcap.mxcap, hostMap := hostMapOf mxcap.map }
  else s)

/-! ## Soft errors (R393, R396) -/

/-- One second, in ns. -/
def secondNs : Nat := 1000000000

/-- Errors of a window (now − 1 s, now]. -/
def inWindow (now : W64) (l : List W64) : List W64 := l.filter fun t => decide (now.toNat < t.toNat + secondNs)

/-- The number of a unit in a core's lists: slices 0 to 3, execute core 4, sequencer 5, pool 6. -/
def errUnitIdx : ErrUnit → Nat
  | .slice _ k => k.val
  | .exCore _ => 4
  | .sequencer _ => 5
  | .pool _ => 6
  | .channel _ => 0
  | .dualMatch => 0

/-- The window count of a unit of a core; it stays at 4 (R396). -/
def Core.window (k : Core) (now : W64) (u : Nat) : Nat :=
  if 4 ≤ k.winMax.getD u 0 then 4 else (inWindow now ((k.errs.filter fun e => e.1 == u).map Prod.snd)).length

/-- The window count of a channel. -/
def Channel.window (k : Channel) (now : W64) : Nat := if 4 ≤ k.winMax then 4 else (inWindow now k.errs).length

/-- A corrected error of a unit is counted; true when it marks the fault as lasting (R393). -/
def Core.count (k : Core) (now : W64) (u : Nat) : Core × Bool :=
  if 4 ≤ k.winMax.getD u 0 then ({ k with total := satInc k.total }, false)
  else
    let errs := (k.errs.filter fun e => decide (now.toNat < e.2.toNat + secondNs)) ++ [(u, now)]
    let n := (errs.filter fun e => e.1 == u).length
    let w := (List.range 7).map fun i => if i = u then n else k.winMax.getD i 0
    ({ k with total := satInc k.total, errs := errs, winMax := if 4 ≤ n then w else k.winMax }, decide (4 ≤ n))

/-- A core leaves placement: its work items are asked to give way (R394). -/
def State.retireCore (s : State) (g : Nat) : State :=
  ((s.setCore g { s.core g with retired := true }).raiseSint sintRETIRE).preemptCore g

/-- A lasting fault that cannot be corrected in place ends the work items it affects: CODE 0x0901, ENG 9, STATE 2 (R394). -/
def State.loseItems (s : State) (lost : List CtxId) : State :=
  lost.foldl (fun s c => if (s.ctx c).holds then s.raise c 9 0 0 ⟨0x0901, 2, 0, 0, 0⟩ else s) s

/-- A lasting fault of a channel: it is remapped, another than the first only if the free frames suffice (R395). -/
def State.loseChannel (s : State) (ch : Nat) (fits : Bool) : State :=
  let first := s.remap.isEmpty && s.channels.all fun p => !p.2.ret
  if first || fits then { s with remap := s.remap ++ [ch] } else s.raiseSint sintRETIRE

/-- SOFT_ERROR_CORRECTED: a corrected error is counted against its unit; the fourth in a second retires it, and may end work
items (R393 to R395). A dual match of a TLB, which drops the larger entry, is counted in DUAL (R71, log entry 19). -/
def execSoftErrorCorrected (u : ErrUnit) (fits : Lasting) (s : State) : Answer :=
  let lost := fits.lost.filter u.reaches
  let core (g : Nat) (retire : State → State) : State :=
    let k := (s.core g).count s.now (errUnitIdx u)
    let s := s.setCore g k.1
    if k.2 then retire (s.loseItems lost) else s
  let whole (g : Nat) : State := core g fun s => s.retireCore g
  match u with
  | .slice g k =>
    .next (core g.val fun s =>
      s.setCore g.val { s.core g.val with newSlv := some ((s.core g.val).newSlv.getD (s.core g.val).slv &&& ~~~(1#4 <<< k.val)) })
  | .exCore g => .next (whole g.val)
  | .sequencer g => .next (whole g.val)
  | .pool g => .next (whole g.val)
  | .channel ch =>
    let k := s.channel ch.val
    let errs := inWindow s.now k.errs ++ [s.now]
    let lasting := decide (k.winMax < 4) && decide (4 ≤ errs.length)
    let k := { k with total := satInc k.total, errs := errs, winMax := if lasting then 4 else k.winMax }
    let s := { s with channels := tabSet s.channels ch.val k }
    .next (if lasting then (s.loseItems lost).loseChannel ch.val fits.fits else s)
  | .dualMatch => .next { s with dual := satInc s.dual }

/-- CORE_EVACUATION: a work item of a core that left placement is copied to a free context of the same cluster, where it restarts
from its RADDR (R394). -/
def execCoreEvacuation (c tgt : CtxId) (s : State) : Answer :=
  match s.waitsHere c with
  | none => .next s
  | some x =>
    if (s.core c.core).retired && s.freeCtx tgt && (s.swapped.all fun p => p.1 != tgt.val) && s.inPlacement tgt.core &&
        c.cluster == tgt.cluster && c.bg == tgt.bg && s.fitsOn tgt x.heldCv3 then
      let s := if (s.ctx c).holds then s.modCtx c Context.emptied
        else { s with swapped := s.swapped.filter fun p => p.1 != c.val }
      .next ((s.setCtx tgt x).setItemOf tgt .discarded)
    else .next s

/-- CHANNEL_REMAP_DONE: the remap of a channel ends; the channel is retired (R395). -/
def execChannelRemapDone (ch : Fin 16) (s : State) : Answer :=
  if s.remap.contains ch.val then
    .next ({ s with remap := s.remap.filter (· != ch.val), channels := tabSet s.channels ch.val { s.channel ch.val with ret := true } }.raiseSint
      sintRETIRE)
  else .next s

/-! ## Thermal relief (R397, R30) -/

/-- TJ of a temperature in °C (R396). -/
def tjOf (c : Nat) : Nat := c + 64

/-- One plane less in the highest class that has more than one; none when every CAP is 0 (R397). -/
def capLower (v : Byte) : Option Byte :=
  if v.toNat / 64 ≠ 0 then some (v - 64)
  else if v.toNat / 16 ≠ 0 then some (v - 16)
  else if v.toNat / 4 ≠ 0 then some (v - 4)
  else if v ≠ 0 then some (v - 1)
  else none

/-- One plane more in the lowest class below its configured cap. -/
def capRaise (v cfg : Byte) : Option Byte :=
  ([0, 1, 2, 3].find? fun i => decide (v.toNat / 4 ^ i % 4 < cfg.toNat / 4 ^ i % 4)).map fun i => v + BitVec.ofNat 8 (4 ^ i)

/-- THERMAL_RELIEF: at 120 °C one step of relief: a plane, and with every CAP 0 and TJ still above, a clock step (R397). -/
def execThermalRelief (tj : Byte) (s : State) : Answer :=
  let s := { s with tj := tj, coolFrom := if tj.toNat < tjOf 110 then s.coolFrom else none }
  if tj.toNat < tjOf 120 then .next s
  else
    match capLower s.mxcapNow with
    | some v => .next ({ s.setMxcap v with relief := true }.raiseSint sintTHERM)
    | none =>
      let step := s.clkStepNew.getD s.clkStep
      if tjOf 120 < tj.toNat ∧ step ≠ 3 then .next ({ s with clkStepNew := some (step + 1), relief := true }.raiseSint sintTHERM)
      else .next s

/-- THERMAL_RESTORE: after TJ has stayed below 110 °C for 1 s, one step back to what was configured: the clock before planes
(R397). -/
def execThermalRestore (tj : Byte) (s : State) : Answer :=
  let s := { s with tj := tj }
  if tjOf 110 ≤ tj.toNat then .next { s with coolFrom := none }
  else
    let t := s.coolFrom.getD s.now
    let s := { s with coolFrom := some t }
    if !s.relief || decide (s.now.toNat < t.toNat + secondNs) then .next s
    else
      let step := s.clkStepNew.getD s.clkStep
      if s.clkStepCfg.toNat < step.toNat then .next ({ s with clkStepNew := some (step - 1) }.raiseSint sintTHERM)
      else
        match capRaise s.mxcapNow s.mxcapCfg with
        | some v => .next ((s.setMxcap v).raiseSint sintTHERM)
        | none => .next { s with relief := false }

/-- CLOCK_STEP_CHANGE: a written STEP takes effect at a peal boundary (R84, R396). -/
def execClockStepChange (s : State) : Answer :=
  match s.clkStepNew with
  | some v => .next (if s.clk % 512 = 0 then { s with clkStep := v, clkStepNew := none } else s)
  | none => .next s

/-- AGE_LIMIT: a cluster's margin is measured; where it falls below LIMIT it sets SINT.AGE (R386, R396). The first measurement since
reset falls from no value that a rule gives, and counts as a fall (log entry 88). -/
def execAgeLimit (cl : Fin 12) (margin : BitVec 16) (s : State) : Answer :=
  let a := s.age cl.val
  let s := { s with
    ages := tabSet s.ages cl.val
      { a with margin := margin, min := if a.fresh || margin.slt a.min then margin else a.min, fresh := false } }
  .next (if margin.slt a.limit && (a.fresh || !a.margin.slt a.limit) then s.raiseSint sintAGE else s)

end Sys2Proof.Machine
end

