-- ==== Sys2Proof/Machine/Firmware.lean ====
section
/-! DEFINITION. The firmware complexes: live update (R382), resynchronisation (R383) and refused commands (R381); the attestation
report (R391). -/

namespace Sys2Proof.Machine

/-! ## Live update (R381, R382) -/

/-- An FWCMD write that is refused: CMDST := 3, and nothing else (R381). -/
def State.fwFail (s : State) : State := { s with cmdst := 3 }

/-- FWCMD_REFUSED: any CMD but 1 and 2, or any while a command is busy (R381). In recovery FWCMD does not respond (R389). -/
def execFwcmdRefused (cmd : BitVec 3) (s : State) : Answer :=
  .next (if s.phaseDev ≠ 3 ∧ (s.cmdst = 1 ∨ (cmd ≠ 1 ∧ cmd ≠ 2)) then s.fwFail else s)

/-- An FWCMD write of CMD 1: the standby verifies the staged image (R381, R382). -/
def State.updateStart (s : State) : State := if s.cmdst = 1 then s.fwFail else { s with cmdst := 1, sby := 1 }

/-- LIVE_UPDATE: the standby has verified the staged image. An image that fails R389's checks, or that cannot import the state table's
version, is refused; otherwise the standby is ready (R382, R389). -/
def execLiveUpdate (img : FwImage) (canImport : Bool) (s : State) : Answer :=
  if s.cmdst = 1 ∧ s.sby ≠ 1 then .next s.fwFail
  else if s.imgOk img = true ∧ canImport = true then
    .next { s with cmdst := 1, sby := 2, newImg := some img }
  else .next { s with cmdst := 3, sby := 4 }

/-- Firmware has no operation in flight: no lease is being pinned, no swap made, no reset from before the pause still runs, no
retirement or remap waits (R382, R395). -/
def State.fwQuiet (s : State) : Bool :=
  (s.launches.all fun l => l.st != .preparing) && s.swapReq.isEmpty && ((List.range 8).all fun p => !s.resetReady p) &&
    (s.cores.all fun k => k.2.newSlv.isNone) && s.remap.isEmpty

/-- STANDBY_TAKEOVER: with the standby ready admission pauses and the standby is taking over; once firmware's operations in flight have
ended the state table is exported and imported, ACT flips, and admission resumes (R381, R382); the fuse minimum version rises only if
the image asks for it (R389). -/
def execStandbyTakeover (s : State) : Answer :=
  match s.newImg with
  | none => .next s
  | some i =>
    if s.sby = 2 then .next { s with sby := 3, pausedAt := some s.now }
    else if s.sby = 3 ∧ s.fwQuiet = true then
      .next { s with
        act := !s.act, sby := 0, cmdst := 2, imgver := i.ver, tsver := i.tsver, fwdig := sm3 i.image, newImg := none, pausedAt := none,
        minVer := if i.raiseMin then some (if s.fuseMin.toNat < i.ver.toNat then i.ver else s.fuseMin) else s.minVer }
    else .next s

/-! ## Resynchronisation (R383) -/

/-- A section of the summary: its type, the number of its entries and its bytes. -/
structure SumSection where
  ty : Nat
  count : Nat
  bytes : List Byte
  deriving DecidableEq, Repr

/-- The 64 bytes of a queue: seven of its registers, in the order of R355, those that only trigger left out, then the number of its
admitted launches (log entry 44). -/
def State.queueEntry (s : State) (q : Nat) : List Byte :=
  let u := s.queue q
  [u.qcfg, u.qring, u.head ++ u.tail, u.qwda, u.qwdb, u.qxring, u.xhead.zeroExtend 64].flatMap (fun v => leBytes 8 v.toNat) ++
    leBytes 8 (s.activeOf q)

/-- The 32 bytes of a lease: BASE; NPAGE and the rights where R68 has them; the queue and LSEQ of its owner (log entry 44). -/
def leaseBytes (q : Nat) (lseq : W32) (e : Lease) : List Byte :=
  leBytes 8 e.base ++ leBytes 8 (e.w.toNat * 2 ^ 33 + e.rd.toNat * 2 ^ 32 + e.npage) ++ leBytes 8 q ++ leBytes 8 lseq.toNat

/-- The retired units, 8 bytes each: 1 core, 2 slice, 3 channel in the top byte, then the unit (log entry 44). -/
def State.retiredUnits (s : State) : List Nat :=
  ((List.range 192).filter fun g => (s.core g).retired).map (2 ^ 56 + ·) ++
    ((List.range 768).filter fun k => !(s.core (k / 4)).slv.getLsbD (k % 4)).map (2 * 2 ^ 56 + ·) ++
    ((List.range 16).filter fun c => (s.channel c).ret).map (3 * 2 ^ 56 + ·)

/-- Section 1: the queues. -/
def State.sumQueues (s : State) : SumSection := ⟨1, 64, (List.range 64).flatMap s.queueEntry⟩
/-- Section 2: the leases of the admitted launches. -/
def State.sumLeases (s : State) : SumSection :=
  let l := s.launches.flatMap fun l => l.leases.map fun e => leaseBytes l.q l.lseq e
  ⟨2, l.length, l.flatten⟩
/-- Section 3: the retired cores, slices and channels. -/
def State.sumRetired (s : State) : SumSection := ⟨3, s.retiredUnits.length, s.retiredUnits.flatMap (leBytes 8)⟩
/-- Section 4: copies of the fault records that await their answers. -/
def State.sumFaults (s : State) : SumSection :=
  let l := s.faults.filterMap fun e => e.rseq.map fun r => faultBytes e.q e.r r
  ⟨4, l.length, l.flatten⟩
/-- Section 5: the component versions, of which the spec gives neither number nor form: free (log entry 44). -/
def State.sumVersions (s : State) : SumSection :=
  let n := (Config.freeWord s.free).toNat % 256
  ⟨5, n, (List.range (8 * n)).map fun i => Config.freeByte (s.free + i)⟩

/-- The sections in the order of their types. -/
def State.sumSections (s : State) : List SumSection := [s.sumQueues, s.sumLeases, s.sumRetired, s.sumFaults, s.sumVersions]

/-- LEN of the summary: header, directory and sections. -/
def sumLen (l : List SumSection) : Nat := l.foldl (fun n e => n + 16 + e.bytes.length) 0x40

/-- The summary's header. -/
def State.summaryHead (s : State) (len : Nat) : List Byte :=
  leBytes 8 (2 ^ 48 + 5 * 2 ^ 32 + len) ++ leBytes 8 s.now.toNat ++ leBytes 8 (s.imgver.toNat * 2 ^ 32 + s.tsver.toNat * 2 ^ 16) ++
    List.replicate 40 0

/-- The summary's directory: each section lies where those before it end. -/
def summaryDir (l : List SumSection) : List Byte :=
  l.zipIdx.flatMap fun e =>
    let off := (l.take e.2).foldl (fun n u => n + u.bytes.length) (0x40 + 16 * l.length)
    leBytes 8 (e.1.ty * 2 ^ 56 + e.1.count * 2 ^ 32 + off) ++ List.replicate 8 0

/-- RESYNCHRONISATION: the summary is written to FWBUF and CMDST := 2; one that does not fit writes its header only, with the length
needed, and CMDST := 3 (R383). In recovery FWCMD does not respond (R389). -/
def execResynchronisation (s : State) : Answer :=
  if s.phaseDev = 3 then .next s
  else if s.cmdst = 1 then .next s.fwFail
  else
    let l := s.sumSections
    let len := sumLen l
    let a := s.fwbufA.toNat
    let t := { s with free := s.free + 8 * 256 }
    if s.fwbufN.toNat * 4096 < len then .next { t.fwWrite a (s.summaryHead len) with cmdst := 3 }
    else .next { t.fwWrite a (s.summaryHead len ++ summaryDir l ++ l.flatMap SumSection.bytes) with cmdst := 2 }

/-! ## Attestation (R391) -/

/-- The report up to its signature: identity, time, versions, the nonce, the digest of the active image and that of sections 1 and 3 of
a summary taken now (log entries 7, 8). -/
def State.report (s : State) (nonce : List Byte) : List Byte :=
  leBytes 8 (256 * 2 ^ 32 + 1) ++ leBytes 8 Config.fuseDevId.toNat ++ sm2Public Config.idPrivate ++ leBytes 8 s.now.toNat ++
    leBytes 8 (s.tsver.toNat * 2 ^ 32 + s.imgver.toNat) ++ nonce.take 32 ++ s.fwdig ++
    sm3 (s.sumQueues.bytes ++ s.sumRetired.bytes)

/-- ATTEST: the 256-byte report goes out on USB, signed with the identity key (R390, R391, log entry 8). -/
def execAttest (nonce : List Byte) (s : State) : Answer :=
  let r := s.report nonce
  .next ({ s with free := s.free + 1 }.send (.usb (r ++ sm2Sign Config.idPrivate (Config.signRandom s.free) r)))

end Sys2Proof.Machine
end

