-- ==== Sys2Proof/Machine/Line.lean ====
section
/-! DEFINITION. The line-processor instructions (R319 to R328), run by the processor in focus. -/

namespace Sys2Proof.Machine

/-- `nop` (R319). -/
def execLnNop (s : State) : Answer := s.lnDo id

/-! ## Lanes (R321) -/

/-- `vadd`. -/
def execLnVadd (f : LnForm) (s : State) : Answer := s.lnBin f (· + ·)
/-- `vsub`. -/
def execLnVsub (f : LnForm) (s : State) : Answer := s.lnBin f (· - ·)
/-- `vmul`: the low 32 bits. -/
def execLnVmul (f : LnForm) (s : State) : Answer := s.lnBin f (· * ·)
/-- `vmac`: the product is added to the old lane. -/
def execLnVmac (f : LnForm) (s : State) : Answer :=
  s.lnDo fun p => p.setVec f.d fun i =>
    p.lane f.d i + p.lane f.a i * (if f.f.getLsbD 0 then p.scalar f.b f.imm else p.lane f.b i)
/-- `vmin`, signed. -/
def execLnVmin (f : LnForm) (s : State) : Answer := s.lnBin f fun a b => if a.slt b then a else b
/-- `vmax`, signed. -/
def execLnVmax (f : LnForm) (s : State) : Answer := s.lnBin f fun a b => if a.slt b then b else a
/-- `vand`. -/
def execLnVand (f : LnForm) (s : State) : Answer := s.lnBin f (· &&& ·)
/-- `vor`. -/
def execLnVor (f : LnForm) (s : State) : Answer := s.lnBin f (· ||| ·)
/-- `vxor`. -/
def execLnVxor (f : LnForm) (s : State) : Answer := s.lnBin f (· ^^^ ·)
/-- `vclt`, signed. -/
def execLnVclt (f : LnForm) (s : State) : Answer := s.lnBin f fun a b => if a.slt b then 1 else 0
/-- `vceq`. -/
def execLnVceq (f : LnForm) (s : State) : Answer := s.lnBin f fun a b => if a = b then 1 else 0

/-! ## Unary and select (R322) -/

/-- `vshl`. -/
def execLnVshl (f : LnForm) (s : State) : Answer := s.lnUn f (· <<< f.imm.toNat)
/-- `vshr`, with zeros. -/
def execLnVshr (f : LnForm) (s : State) : Answer := s.lnUn f (· >>> f.imm.toNat)
/-- `vsra`, rounding down. -/
def execLnVsra (f : LnForm) (s : State) : Answer := s.lnUn f (BitVec.sshiftRight · f.imm.toNat)
/-- `vrshr`: half of the last kept unit is added first, with no wrap. -/
def execLnVrshr (f : LnForm) (s : State) : Answer :=
  s.lnUn f fun a =>
    let n := f.imm.toNat
    if n = 0 then a else BitVec.ofInt 32 ((a.toInt + (2 ^ (n - 1) : Nat)) / (2 ^ n : Nat))
/-- `vabs`: −2^31 stays. -/
def execLnVabs (f : LnForm) (s : State) : Answer := s.lnUn f fun a => if a.msb then 0 - a else a
/-- `vsel`. -/
def execLnVsel (f : LnForm) (s : State) : Answer :=
  s.lnDo fun p => p.setVec f.d fun i => if p.lane f.c i = 0 then p.lane f.b i else p.lane f.a i
/-- `vidx`. -/
def execLnVidx (f : LnForm) (s : State) : Answer := s.lnDo fun p => p.setVec f.d fun i => BitVec.ofNat 32 i
/-- The table of the kernel a processor runs (R314); empty where there is none. -/
def State.lnTable (s : State) : List (BitVec 16) :=
  match s.chainOf s.lnFocus.val with
  | some (_, m) =>
    match m.kernels[s.lnFocus.val % 8 - m.first]? with
    | some k => k.lut.getD []
    | none => []
  | none => []
/-- `vlut`: the entry at the lane clamped to 0 to 4095. -/
def execLnVlut (f : LnForm) (s : State) : Answer :=
  s.lnUn f fun a => (s.lnTable.getD (satI a.toInt 0 4095).toNat 0).zeroExtend 32

/-! ## Reductions (R323) -/

/-- `vrsum`, modulo 2^32. -/
def execLnVrsum (f : LnForm) (s : State) : Answer := s.lnRed f (· + ·)
/-- `vrmin`, signed. -/
def execLnVrmin (f : LnForm) (s : State) : Answer := s.lnRed f fun a b => if a.slt b then a else b
/-- `vrmax`, signed. -/
def execLnVrmax (f : LnForm) (s : State) : Answer := s.lnRed f fun a b => if a.slt b then b else a

/-! ## Rows (R324, R325) -/

/-- `lld`: lane i takes sample off + i·N of the window row, held inside the row; a sample not present is undefined (R316). -/
def execLld (f : LnForm) (s : State) : Answer :=
  let n := s.lnFocus.val
  let p := s.proc n
  let sh := s.inShape n
  let v (i : Nat) : W32 :=
    laneOf sh.2
      (match s.sample n p (f.c.toNat % 8) (sampleIdx (p.scalar f.a f.imm) i (f.f.toNat % 4 + 1) (sh.1 - 1)) with
      | some b => b
      | none => (Config.freeWord (s.free + i)).setWidth 16)
  ({ s with free := s.free + 32 }).lnDo fun p => p.setVec f.d v

/-- `lst`: lanes inside the row are saturated and written; clamped lanes count in SATC. -/
def execLst (f : LnForm) (s : State) : Answer :=
  let n := s.lnFocus.val
  match s.chainOf n with
  | none => s.lnDo id
  | some (st, m) =>
    match m.kernels[n % 8 - m.first]? with
    | none => s.lnDo id
    | some k =>
      let p := s.proc n
      let w := lstWrites k.osign k.ow (p.scalar f.a f.imm) (f.f.toNat % 4 + 1) (p.lane f.b)
      let u := s.stream st
      (s.setStream st { u with satc := satAdd u.satc (w.filter fun e => e.2.2).length }).lnDo fun p =>
        p.modRow p.frame p.orow fun r =>
          { r with samples := w.foldl (fun t e => tabSet t e.1 (p.strip, e.2.1)) r.samples }

/-! ## Scalars (R326) -/

/-- `kli`. -/
def execKli (f : LnForm) (s : State) : Answer := s.lnDo fun p => p.setK f.d f.imm
/-- `kadd`. -/
def execKadd (f : LnForm) (s : State) : Answer := s.lnScal f (· + ·)
/-- `ksub`. -/
def execKsub (f : LnForm) (s : State) : Answer := s.lnScal f (· - ·)
/-- `kmul`: the low 32 bits. -/
def execKmul (f : LnForm) (s : State) : Answer := s.lnScal f (· * ·)
/-- `kmin`, signed. -/
def execKmin (f : LnForm) (s : State) : Answer := s.lnScal f fun a b => if a.slt b then a else b
/-- `kmax`, signed. -/
def execKmax (f : LnForm) (s : State) : Answer := s.lnScal f fun a b => if a.slt b then b else a
/-- `kand`. -/
def execKand (f : LnForm) (s : State) : Answer := s.lnScal f (· &&& ·)
/-- `kshl`: 0 when q ≥ 32. -/
def execKshl (f : LnForm) (s : State) : Answer := s.lnScal f fun a q => if q.toNat < 32 then a <<< q.toNat else 0
/-- `kshr`: 0 when q ≥ 32. -/
def execKshr (f : LnForm) (s : State) : Answer := s.lnScal f fun a q => if q.toNat < 32 then a >>> q.toNat else 0

/-! ## Strip values and status (R327, R328) -/

/-- The value `ksr` reads; the status of a window row that is not complete is a free code (log entry 24). -/
def State.ksrValue (s : State) (code : Nat) : W32 :=
  let n := s.lnFocus.val
  let p := s.proc n
  let ch := s.chainOf n
  let pos := match ch with
    | some (_, m) => n % 8 - m.first
    | none => 0
  let k := ch.bind fun c => c.2.kernels[pos]?
  match code with
  | 0 => BitVec.ofNat 32 p.strip
  | 1 => BitVec.ofNat 32 p.orow
  | 2 =>
    match k with
    | some k => BitVec.ofNat 32 (k.rOf p.orow)
    | none => 0
  | 3 => BitVec.ofNat 32 p.frame
  | 4 => BitVec.ofNat 32 (s.inShape n).1
  | 5 => s.now.setWidth 32
  | 6 => BitVec.ofNat 32 pos
  | _ =>
    match ch, k with
    | some (st, m), some k =>
      match s.rowStatus st m pos p.frame (k.winRow (m.inRows pos) p.orow (code - 8)) with
      | some v => BitVec.ofNat 32 v
      | none => (Config.freeWord s.free).setWidth 32 &&& 3
    | _, _ => (Config.freeWord s.free).setWidth 32 &&& 3

/-- `ksr`. -/
def execKsr (f : LnForm) (s : State) : Answer :=
  let v := s.ksrValue f.imm.toNat
  ({ s with free := s.free + 1 }).lnDo fun p => p.setK f.d v

/-- `rstat`: the output row's status rises to off[1:0]. -/
def execRstat (f : LnForm) (s : State) : Answer :=
  s.lnDo fun p => p.modRow p.frame p.orow fun r => { r with status := Nat.max r.status ((p.scalar f.a f.imm).toNat % 4) }

end Sys2Proof.Machine
end

