-- ==== Sys2Proof/Machine/Registers.lean ====
section
/-! DEFINITION. The registers of BAR0 (R385): where they lie, what they read as and what a write does (R3, R5, R18, R266, R277, R333,
R352, R355 to R357, R381, R386, R396); the BARs (R384) and the USB service port (R390). -/

namespace Sys2Proof.Machine

/-- The registers of BAR0, by their names in the spec. -/
inductive BarReg
  | tbnow | tbstat
  | qcfg (q : Nat) | qring (q : Nat) | qdb (q : Nat) | qptr (q : Nat) | qwda (q : Nat) | qwdb (q : Nat) | qxring (q : Nat)
  | qxhead (q : Nat) | qxans (q : Nat) | qxst (q : Nat) | qint (q : Nat) | qkill (q : Nat)
  | pclu (p : Nat) | pfeed (p : Nat) | prules (p : Nat)
  | fwst | fwimg | fwbuf | fwcmd
  | mxcap | mxcore (g : Nat)
  | sframe (s : Nat) | scnta (s : Nat) | scntb (s : Nat) | scntc (s : Nat) | scntd (s : Nat) | sstat (s : Nat)
  | alstat | alra (q : Nat) | alrb (q : Nat) | alrc (q : Nat) | alrd (q : Nat) | alme (s e w : Nat)
  | lkstat (p : Nat) | lkcnt (p : Nat) | lkinj (p : Nat) | lkinjc (p : Nat)
  | dstat | dcnt | sint | sien | hwbase | hcnt | stageReg
  | clkst | secore (g : Nat) | sechan (c : Nat) | age (c : Nat) | stest (g : Nat)
  | msixTable (i : Nat) | msixPending (i : Nat)
  deriving DecidableEq, Repr

/-! ## Where registers lie (R385) -/

/-- The register of a queue at offset `r` (R355). -/
def queueReg (q r : Nat) : Option BarReg :=
  match r with
  | 0x00 => some (.qcfg q) | 0x08 => some (.qring q) | 0x10 => some (.qdb q) | 0x18 => some (.qptr q)
  | 0x20 => some (.qwda q) | 0x28 => some (.qwdb q) | 0x30 => some (.qxring q) | 0x38 => some (.qxhead q)
  | 0x40 => some (.qxans q) | 0x48 => some (.qxst q) | 0x50 => some (.qint q) | 0x58 => some (.qkill q)
  | _ => none

/-- The scheduler block (R355 to R357, R381). -/
def schedReg (o : Nat) : Option BarReg :=
  if o < 0x4000 then queueReg (o / 0x100) (o % 0x100)
  else if o < 0x4080 then some (if o % 16 = 0 then .pclu ((o - 0x4000) / 16) else .pfeed ((o - 0x4000) / 16))
  else if 0x4100 ≤ o ∧ o < 0x4140 then some (.prules ((o - 0x4100) / 8))
  else
    match o with
    | 0x5000 => some .fwst | 0x5008 => some .fwimg | 0x5010 => some .fwbuf | 0x5018 => some .fwcmd
    | _ => none

/-- The ingress block (R333). -/
def ingressReg (o : Nat) : Option BarReg :=
  let s := o / 0x40
  if 128 ≤ s then none
  else
    match o % 0x40 with
    | 0x00 => some (.sframe s) | 0x08 => some (.scnta s) | 0x10 => some (.scntb s) | 0x18 => some (.scntc s)
    | 0x20 => some (.scntd s) | 0x28 => some (.sstat s)
    | _ => none

/-- The alignment block (R352). -/
def alignReg (o : Nat) : Option BarReg :=
  if o = 0 then some .alstat
  else if 0x100 ≤ o ∧ o < 0x900 then
    let q := (o - 0x100) / 0x20
    match o % 0x20 with
    | 0x00 => some (.alra q) | 0x08 => some (.alrb q) | 0x10 => some (.alrc q) | 0x18 => some (.alrd q)
    | _ => none
  else if 0x1000 ≤ o ∧ o < 0x9000 then
    if o % 0x40 < 0x30 then some (.alme ((o - 0x1000) / 0x100) (o % 0x100 / 0x40) (o % 0x40 / 8)) else none
  else none

/-- The Thrumol block (R266). -/
def linkReg (o : Nat) : Option BarReg :=
  let p := o / 0x100
  if 2 ≤ p then none
  else
    match o % 0x100 with
    | 0x00 => some (.lkstat p) | 0x08 => some (.lkcnt p) | 0x10 => some (.lkinj p) | 0x18 => some (.lkinjc p)
    | _ => none

/-- The device summary block (R386). -/
def summaryReg (o : Nat) : Option BarReg :=
  match o with
  | 0x00 => some .dstat | 0x08 => some .dcnt | 0x10 => some .sint | 0x18 => some .sien | 0x20 => some .hwbase
  | 0x28 => some .hcnt | 0x30 => some .stageReg
  | _ => none

/-- The health block (R396). -/
def healthReg (o : Nat) : Option BarReg :=
  if o = 0 then some .clkst
  else if 0x100 ≤ o ∧ o < 0x700 then some (.secore ((o - 0x100) / 8))
  else if 0x800 ≤ o ∧ o < 0x880 then some (.sechan ((o - 0x800) / 8))
  else if 0x900 ≤ o ∧ o < 0x960 then some (.age ((o - 0x900) / 8))
  else if 0xA00 ≤ o ∧ o < 0x1000 then some (.stest ((o - 0xA00) / 8))
  else none

/-- The register at a BAR0 offset, a multiple of 8 (R385). The MSI-X pending bits follow the table (log entry 43). -/
def regAt (off : Nat) : Option BarReg :=
  let o := off % 0x10000
  match off / 0x10000 with
  | 0 => if o = 0 then some .tbnow else if o = 8 then some .tbstat else none
  | 1 => schedReg o
  | 2 => if o = 0 then some .mxcap else if 0x100 ≤ o ∧ o < 0x700 then some (.mxcore ((o - 0x100) / 8)) else none
  | 3 => ingressReg o
  | 4 => alignReg o
  | 5 => linkReg o
  | 6 => summaryReg o
  | 7 => healthReg o
  | 8 => if o < 0x8000 then some (.msixTable (o / 8)) else if o < 0x8100 then some (.msixPending ((o - 0x8000) / 8)) else none
  | _ => none

/-! ## Reading -/

/-- A word of two 32-bit halves. -/
def halves (hi lo : W32) : W64 := hi ++ lo

/-- TBSTAT (R18). -/
def State.tbstat (s : State) : W64 :=
  BitVec.ofNat 64 (s.steps.toNat * 2 ^ 16 + s.offs.toNat * 2 ^ 8 + s.tbPort.toNat * 8 + s.stepped.toNat * 4 + s.hold.toNat * 2 +
    s.lock.toNat)

/-- QXST (R355): WAIT while a record waits for a slot. -/
def State.qxst (s : State) (q : Nat) : W64 :=
  let u := s.queue q
  let wait := s.faults.any fun e => e.q == q && e.rseq.isNone && e.counted
  BitVec.ofNat 64 (u.badans.toNat * 2 ^ 48 + u.ovf.toNat * 2 ^ 32 + u.frozen.toNat * 2 + wait.toNat)

/-- FWST (R381). -/
def State.fwst (s : State) : W64 :=
  BitVec.ofNat 64 (s.act.toNat * 2 ^ 63 + s.sby.toNat * 2 ^ 56 + s.cmdst.toNat * 2 ^ 48 + s.tsver.toNat * 2 ^ 32 + s.imgver.toNat)

/-- Word `w` of an almanac entry (R352). -/
def AlmEntry.word (a : AlmEntry) (w : Nat) : W64 :=
  match w with
  | 0 => a.frame | 1 => a.tstart | 2 => a.tend | 3 => a.trec
  | 4 => BitVec.ofNat 64 (a.slot.toNat * 2 ^ 48 + a.ncorr.toNat * 2 ^ 32 + a.nlate.toNat * 2 ^ 16 + a.ndrop.toNat)
  | _ => a.rows.zeroExtend 64

/-- SECORE (R396). -/
def State.secore (s : State) (g : Nat) : W64 :=
  let k := s.core g
  let w (u : Nat) : Nat := k.window s.now u
  BitVec.ofNat 64 (k.total.toNat * 2 ^ 32 + w 5 * 2 ^ 20 + w 6 * 2 ^ 16 + w 4 * 2 ^ 12 + w 3 * 2 ^ 9 + w 2 * 2 ^ 6 + w 1 * 2 ^ 3 +
    w 0)

/-- STEST (R396): SINCE in ms, at most 65535. -/
def State.stest (s : State) (g : Nat) : W64 :=
  let k := s.core g
  BitVec.ofNat 64 (k.fail.toNat * 2 ^ 48 + k.pass.toNat * 2 ^ 16 + Nat.min ((s.now - k.lastTest).toNat / 1000000) 65535)

/-- SSTAT (R333). -/
def Stream.sstat (u : Stream) : W64 :=
  BitVec.ofNat 64 (u.openF.isSome.toNat * 4 + (!u.pending.isEmpty).toNat * 2 + u.cfg.isSome.toNat)

/-- Bits 64i to 64i + 63 of the MSI-X pending bits. -/
def State.msixBits (s : State) (i : Nat) : W64 :=
  BitVec.ofNat 64 (((List.range 64).filter fun b => s.msixPend.contains (64 * i + b)).foldl (fun a b => a + 2 ^ b) 0)

/-- What a register reads as; WO fields read zero (R3). -/
def State.regRead (s : State) : BarReg → W64
  | .tbnow => s.now
  | .tbstat => s.tbstat
  | .qcfg q => (s.queue q).qcfg
  | .qring q => (s.queue q).qring
  | .qdb _ => 0
  | .qptr q => halves (s.queue q).head (s.queue q).tail
  | .qwda q => (s.queue q).qwda
  | .qwdb q => (s.queue q).qwdb
  | .qxring q => (s.queue q).qxring
  | .qxhead q => (s.queue q).xhead.zeroExtend 64
  | .qxans _ => 0
  | .qxst q => s.qxst q
  | .qint q => (s.queue q).qint
  | .qkill _ => 0
  | .pclu p => (s.part p).pclu
  | .pfeed p => (s.part p).pfeed
  | .prules p => (s.part p).prules
  | .fwst => s.fwst
  | .fwimg => s.fwimg.zeroExtend 64
  | .fwbuf => s.fwbufN ++ s.fwbufA
  | .fwcmd => 0
  | .mxcap => s.mxcapNow.zeroExtend 64
  | .mxcore g => BitVec.ofNat 64 ((s.core g).clamp.toNat * 2 ^ 40 + (s.core g).crst.toNat * 2 ^ 8 + (s.core g).slv.toNat)
  | .sframe i => (s.stream i).sframe
  | .scnta i => halves (s.stream i).dropc (s.stream i).latec
  | .scntb i => halves (s.stream i).corrc (s.stream i).latep
  | .scntc i => halves (s.stream i).eccc (s.stream i).stray
  | .scntd i => halves (s.stream i).ovrc (s.stream i).satc
  | .sstat i => (s.stream i).sstat
  | .alstat => halves s.bdrop s.bfail
  | .alra q => BitVec.ofNat 64 ((s.rule q).counter.toNat * 2 ^ 32 + (s.rule q).nmem * 2 ^ 8 + (s.rule q).st)
  | .alrb q => (s.rule q).dl
  | .alrc q => (s.rule q).floor
  | .alrd q => halves (s.rule q).npart (s.rule q).ign
  | .alme i e w => (s.alm i e).word w
  | .lkstat p => BitVec.ofNat 64 ((s.link p).lanes.toNat * 2 ^ 8 + (s.link p).down.toNat * 4 + (s.link p).up.toNat)
  | .lkcnt p => halves (s.link p).retry (s.link p).crce
  | .lkinj p => BitVec.ofNat 64 ((s.link p).arm.toNat * 2 ^ 16 + (s.link p).flit.toNat * 2 ^ 8 + (s.link p).bit.toNat)
  | .lkinjc p => (s.link p).inj.zeroExtend 64
  | .dstat => BitVec.ofNat 64 ((!s.remap.isEmpty).toNat * 2 ^ 7 + s.boot.toNat * 2 ^ 4 + s.phaseDev.toNat)
  | .dcnt => halves s.rsvw s.dual
  | .sint => s.sint.zeroExtend 64
  | .sien => BitVec.ofNat 64 (s.svec.toNat * 2 ^ 32 + s.sien.toNat)
  | .hwbase => s.hwbase
  | .hcnt => s.href.zeroExtend 64
  | .stageReg => s.stageN ++ s.stageA
  | .clkst => BitVec.ofNat 64 (s.tj.toNat * 2 ^ 16 + (s.clkStepNew.getD s.clkStep).toNat)
  | .secore g => s.secore g
  | .sechan c => BitVec.ofNat 64 ((s.channel c).total.toNat * 2 ^ 32 + (s.channel c).ret.toNat * 2 ^ 8 + (s.channel c).window s.now)
  | .age c => BitVec.ofNat 64 ((s.age c).limit.toNat * 2 ^ 32 + (s.age c).min.toNat * 2 ^ 16 + (s.age c).margin.toNat)
  | .stest g => s.stest g
  | .msixTable i => if i % 2 = 1 then s.msixCtl (i / 2) else tabGet 0 s.msix i
  | .msixPending i => s.msixBits i

/-- Eight bytes of BAR0 at an offset that is a multiple of 8; what no block defines reads as zero (R385). -/
def State.barWord (s : State) (off : Nat) : W64 :=
  match regAt off with
  | some r => s.regRead r
  | none => 0

/-! ## Fields (R3) -/

/-- The fields that any writer may write (RW, WO, W1C). -/
def BarReg.host : BarReg → W64
  | .tbstat => 4
  | .qdb _ => 0xFFFFFFFF
  | .qxhead _ => 0xFFFFFFFF
  | .qxans _ => 0xFFFFFFFF00000003
  | .qint _ => 0x3FF
  | .qkill _ => 0x1FFFFFFFF
  | .fwimg => 0xFFFFFFFFFFFF
  | .fwbuf => 0xFFFFFFFFFFFFFFFF
  | .fwcmd => 7
  | .mxcap => 0xFF
  | .age _ => 0xFFFF00000000
  | .lkstat _ => 4
  | .lkinj _ => 0x1FFFF
  | .sint => 0xFF
  | .sien => 0x7FF000000FF
  | .clkst => 3
  | .msixTable i => if i % 2 = 1 then 0x1FFFFFFFF else 0xFFFFFFFFFFFFFFFC
  | _ => 0

/-- The fields that only firmware writes: those of R355 to R357 marked fw, HWBASE, and STAGE, which no register write changes for
others (R386). -/
def BarReg.fw : BarReg → W64
  | .qcfg _ => 0xF00FFF0700000077
  | .qring _ => 0xF000FFFFFFFFFFFF
  | .qwda _ => 0xFFFFFFFFFFFFFFFF
  | .qwdb _ => 0x1FFFFFFFF
  | .qxring _ => 0xF000FFFFFFFFFFFF
  | .qint _ => 0x7FF07FF0000
  | .pclu _ => 0xFFFF000000000FFF
  | .pfeed _ => 0xFFFFFFFFFFFFFFFF
  | .prules _ => 0xFFFFFFFFFFFFFFFF
  | .hwbase => 0xFFFFFFFFFFFFFFFF
  | .stageReg => 0xFFFFFFFFFFFFFFFF
  | _ => 0

/-- The fields that no write changes (RO). -/
def BarReg.ro : BarReg → W64
  | .tbnow => 0xFFFFFFFFFFFFFFFF
  | .tbstat => 0xFFFF3B
  | .qptr _ => 0xFFFFFFFFFFFFFFFF
  | .qxst _ => 0xFFFFFFFF00000003
  | .fwst => 0x8703FFFFFFFFFFFF
  | .mxcore _ => 0xFFFFFFFFFFFFFF0F
  | .sframe _ => 0xFFFFFFFFFFFFFFFF
  | .scnta _ => 0xFFFFFFFFFFFFFFFF
  | .scntb _ => 0xFFFFFFFFFFFFFFFF
  | .scntc _ => 0xFFFFFFFFFFFFFFFF
  | .scntd _ => 0xFFFFFFFFFFFFFFFF
  | .sstat _ => 7
  | .alstat => 0xFFFFFFFFFFFFFFFF
  | .alra _ => 0xFFFFFFFF00001F03
  | .alrb _ => 0xFFFFFFFFFFFFFFFF
  | .alrc _ => 0xFFFFFFFFFFFFFFFF
  | .alrd _ => 0xFFFFFFFFFFFFFFFF
  | .alme _ _ w => if w = 4 then 0xFFFFFFFFFFFFFF else if w = 5 then 0xFFFF else 0xFFFFFFFFFFFFFFFF
  | .lkstat _ => 0xF01
  | .lkcnt _ => 0xFFFFFFFFFFFFFFFF
  | .lkinjc _ => 0xFFFFFFFF
  | .dstat => 0xF3
  | .dcnt => 0xFFFFFFFFFFFFFFFF
  | .hcnt => 0xFFFFFFFF
  | .stageReg => 0xFFFFFFFFFFFFFFFF
  | .clkst => 0xFF0000
  | .secore _ => 0xFFFFFFFF00FFFFFF
  | .sechan _ => 0xFFFFFFFF00000107
  | .age _ => 0xFFFFFFFF
  | .stest _ => 0xFFFFFFFFFFFFFFFF
  | .msixPending _ => 0xFFFFFFFFFFFFFFFF
  | _ => 0

/-! ## Firmware's limits (R355 to R357, R61) -/

/-- QCFG: RSV at most 192 and CEIL ≥ PRIO. -/
def qcfgOk (v : W64) : Bool := decide (bitsOf v.toNat 47 40 ≤ 192) && decide (bitsOf v.toNat 2 0 ≤ bitsOf v.toNat 6 4)

/-- NL2 and XNL2 in 4 to 12, the base 4 KiB aligned. -/
def qringOk (v : W64) : Bool := decide (4 ≤ v.toNat / 2 ^ 60) && decide (v.toNat / 2 ^ 60 ≤ 12) && decide (v.toNat % 4096 = 0)

/-- 1 ≤ T3 and T2 ≤ T3 (R355). -/
def t3Ok (wda wdb : W64) : Bool :=
  decide (1 ≤ bitsOf wdb.toNat 31 0) && decide (bitsOf wda.toNat 63 32 ≤ bitsOf wdb.toNat 31 0)

/-- 1 ≤ T1 ≤ T2 ≤ T3 (R355). -/
def wdOk (wda wdb : W64) : Bool :=
  decide (1 ≤ bitsOf wda.toNat 31 0) && decide (bitsOf wda.toNat 31 0 ≤ bitsOf wda.toNat 63 32) && t3Ok wda wdb

/-- A cluster belongs to at most one partition (R356). -/
def State.pcluOk (s : State) (p : Nat) (v : W64) : Bool :=
  (List.range 8).all fun r => r == p || (s.part r).pclu &&& v &&& 0xFFF == 0

/-- A rule is granted to at most one partition, and its grant changes only while it is off (R357). -/
def State.prulesOk (s : State) (p : Nat) (v : W64) : Bool :=
  ((List.range 8).all fun r => r == p || (s.part r).prules &&& v == 0) &&
    (List.range 64).all fun q => (s.part p).prules.getLsbD q == v.getLsbD q || (s.rule q).st == 0

/-- No lease of a launch covers the host window (R386). -/
def State.hostLeaseFree (s : State) : Bool :=
  s.launches.all fun l => l.leases.all fun e => decide (e.base + 4096 * e.npage ≤ 0x400000000000) || decide (0x800000000000 ≤ e.base)

/-- A write of the merged value by firmware keeps the register's limits. T3 and WDEN are written to one register, T1 and T2 to another:
from the values of reset T3 goes first, under 1 ≤ T3 and T2 ≤ T3 alone while WDEN = 0 (log entry 45). -/
def State.fwOk (s : State) (r : BarReg) (v : W64) : Bool :=
  match r with
  | .qcfg _ => qcfgOk v
  | .qring _ => qringOk v
  | .qxring _ => qringOk v
  | .qwda q => wdOk v (s.queue q).qwdb
  | .qwdb q => if v.getLsbD 32 then wdOk (s.queue q).qwda v else t3Ok (s.queue q).qwda v
  | .qint _ => decide (1 ≤ bitsOf v.toNat 9 0) && decide (bitsOf v.toNat 9 0 ≤ 1000)
  | .pclu p => s.pcluOk p v
  | .prules p => s.prulesOk p v
  | .hwbase => s.hostLeaseFree
  | _ => true

/-! ## Writing -/

/-- A queue number. -/
def qidOf (q : Nat) : QId := ⟨q % 64, Nat.mod_lt _ (by decide)⟩

/-- QXANS (R372). -/
def State.qxans (s : State) (q : Nat) (v : W64) : State :=
  let r := v.extractLsb' 32 32
  match v.toNat % 4 with
  | 1 => s.answer q r .resume
  | 2 => s.answer q r .skip
  | 3 => s.answer q r .abort
  | _ => s.badAnswer q

/-- FWCMD (R381). -/
def State.fwcmd (s : State) (v : W64) : State :=
  match v.toNat % 8 with
  | 1 => s.updateStart
  | 2 => Answer.stateOr s (execResynchronisation s)
  | _ => s.fwFail

/-- SINT: an event of the same clock leaves the bit set, as it falls after the clear (R386). -/
def State.sintClear (s : State) (v : W64) : State := { s with sint := s.sint &&& ~~~(v.setWidth 8 &&& ~~~s.sintNow) }

/-- The function mask of the MSI-X message control word, bit 14 (R384, log entry 23), in the byte at offset 1; masked interrupts whose
entries are not masked go out when it is cleared. -/
def State.msixControl (s : State) (b : Byte) : State :=
  let due := s.msixPend.filter fun k => !(s.msixCtl k).getLsbD 32
  if b.getLsbD 6 then { s with msixMask := true }
  else due.foldl (fun t k => t.send (.msix k)) { s with msixMask := false, msixPend := s.msixPend.filter fun k => !due.contains k }

/-- A masked interrupt goes out when its entry is unmasked (R384). -/
def State.msixWrite (s : State) (i : Nat) (v : W64) : State :=
  let s := { s with msix := tabSet s.msix i v }
  let vec := i / 2
  if s.msixPend.contains vec && !s.msixMask && !(s.msixCtl vec).getLsbD 32 then
    { s with msixPend := s.msixPend.filter (· != vec) }.send (.msix vec)
  else s

/-- Puts a value with only writable fields set, the others as they were, into a register. -/
def State.regPut (s : State) (r : BarReg) (v : W64) : State :=
  let setQ (q : Nat) (f : Queue → Queue) : State := s.setQueue q (f (s.queue q))
  let setP (p : Nat) (f : Part → Part) : State := s.setPart p (f (s.part p))
  match r with
  | .tbstat => if v.getLsbD 2 then { s with stepped := false } else s
  | .qcfg q => setQ q fun u => { u with qcfg := v }
  | .qring q => setQ q fun u => { u with qring := v }
  | .qdb q => Answer.stateOr s (execDoorbell (qidOf q) (v.setWidth 32) s)
  | .qwda q => setQ q fun u => { u with qwda := v }
  | .qwdb q => setQ q fun u => { u with qwdb := v }
  | .qxring q => setQ q fun u => { u with qxring := v }
  | .qxhead q => setQ q fun u => { u with xhead := v.setWidth 32 }
  | .qxans q => s.qxans q v
  | .qint q => setQ q fun u => { u with qint := v }
  | .qkill q => Answer.stateOr s (execQkill (qidOf q) (v.getLsbD 32) (v.setWidth 32) s)
  | .pclu p => setP p fun u => { u with pclu := v }
  | .pfeed p => setP p fun u => { u with pfeed := v }
  | .prules p => setP p fun u => { u with prules := v }
  | .fwimg => { s with fwimg := v.setWidth 48 }
  | .fwbuf => { s with fwbufN := v.extractLsb' 48 16, fwbufA := v.setWidth 48 }
  | .fwcmd => s.fwcmd v
  | .mxcap => { s.setMxcap (v.setWidth 8) with mxcapCfg := v.setWidth 8 }
  | .lkstat p => if v.getLsbD 2 then s.setLink p { s.link p with down := false } else s
  | .lkinj p => Answer.stateOr s (execLkinjWrite ⟨p % 2, Nat.mod_lt _ (by decide)⟩ (v.setWidth 32) s)
  | .sint => s.sintClear v
  | .sien => { s with svec := v.extractLsb' 32 11, sien := v.setWidth 8 }
  | .hwbase => { s with hwbase := v }
  | .stageReg => { s with stageN := v.extractLsb' 48 16, stageA := v.setWidth 48 }
  | .clkst => { s with clkStepNew := some (v.setWidth 2), clkStepCfg := v.setWidth 2 }
  | .age c => { s with ages := tabSet s.ages c { s.age c with limit := v.extractLsb' 32 16 } }
  | .msixTable i => s.msixWrite i v
  | _ => s

/-- The fields whose unwritten bytes a partial write leaves as they are: all but those that a write triggers or clears. -/
def BarReg.keeps (r : BarReg) : Bool :=
  match r with
  | .tbstat => false | .qdb _ => false | .qxans _ => false | .qkill _ => false | .fwcmd => false | .lkstat _ => false
  | .sint => false
  | _ => true

/-- QDB of a device-fed queue, to which every write is a reserved one (R353). -/
def State.fedByDevice (s : State) (r : BarReg) : Bool :=
  match r with
  | .qdb q => !(s.queue q).hostFed
  | _ => false

/-- A write of the bytes that `m` marks, by firmware or another writer: reserved bits, and fields the writer may not write, are
discarded and counted; RO fields ignore it (R3, R5). A write to QDB of a device-fed queue counts once, as such (R353). -/
def State.regWrite (s : State) (fw : Bool) (off : Nat) (m v : W64) : State :=
  match regAt off with
  | none => s.countRsvw true
  | some r =>
    let may := if fw then r.host ||| r.fw else r.host
    let w := may &&& m
    let t := s.countRsvw (v &&& m &&& ~~~(may ||| r.ro) != 0)
    if s.fedByDevice r then s.countRsvw true
    else if w = 0 then t
    else
      let new := (v &&& w) ||| (if r.keeps then t.regRead r &&& (r.host ||| r.fw) &&& ~~~w else 0)
      if fw && !t.fwOk r new then t else t.regPut r new

/-- REGISTER_WRITE: an 8-byte register, or with an offset 4 above it its upper half (R3, R5). In recovery only the device summary
block responds (R389). -/
def execRegisterWrite (fw : Bool) (off : BitVec 20) (val : W64) (s : State) : Answer :=
  let o := off.toNat
  if s.phaseDev = 3 ∧ o / 0x10000 ≠ 6 then .next s
  else if o % 8 = 0 then .next (s.regWrite fw o (BitVec.allOnes 64) val)
  else .next (s.regWrite fw (o - o % 8) 0xFFFFFFFF00000000 (val <<< 32))

/-! ## The BARs (R384) -/

/-- The grant of a host access: 1 reads, 2 writes (R384). -/
def State.hostGrants (s : State) (a n : Nat) (wr : Bool) : Bool :=
  (List.range n).all fun i => (tabGet (0 : BitVec 2) s.hostMap ((a + i) / 2 ^ 21)).getLsbD wr.toNat

/-- A refused host access (R384, R386). -/
def State.hostRefused (s : State) : State := { s with href := satInc s.href }.raiseSint sintHREF

/-- The device address of a BAR2 or BAR4 offset; none in BAR2's hole. -/
def barAddr (bar : Bar) (off : Nat) : Option Nat :=
  match bar with
  | .bar2 => if off < 0x30000000 then some (0x10000000000 + off) else none
  | _ => some off

/-- BAR0 bytes. -/
def State.barBytes (s : State) (off n : Nat) : List Byte :=
  (List.range n).map fun i => BitVec.ofNat 8 ((s.barWord ((off + i) - (off + i) % 8)).toNat / 256 ^ ((off + i) % 8))

/-- HOST_BAR_READ by a requester: of a register block, of the granary or of DRAM; a refused one completes with Unsupported Request
(R384). -/
def execHostBarRead (bar : Bar) (off : Nat) (len : HostLen) (s : State) : Answer :=
  let who := len.who
  let len := len.bytes
  if bar = .msixControl then
    .next (s.send (.barData ((List.range len).map fun i => BitVec.ofNat 8 (s.msixMask.toNat * 2 ^ 14 / 256 ^ (off + i)))))
  else if bar = .bar0 then
    if s.phaseDev = 3 ∧ off / 0x10000 ≠ 6 then .next (s.send .unsupported)
    else if off = 4 ∧ len = 4 then
      let hi := tabGet (s.now.extractLsb' 32 32) s.latches who
      .next ({ s with latches := s.latches.filter fun p => p.1 != who }.send (.barData (leBytes 4 hi.toNat)))
    else if off = 0 ∧ len = 4 then execTbnowLowRead who s
    else .next (s.send (.barData (s.barBytes off len)))
  else if s.phaseDev = 3 then .next (s.send .unsupported)
  else
    let bytes (i : Nat) : Option Nat := barAddr bar (off + i)
    if (List.range len).all fun i => (bytes i).all fun a => s.hostGrants a 1 false then
      .next (s.send (.barData ((List.range len).map fun i => match bytes i with
        | some a => memGet s.mem a
        | none => 0xFF)))
    else .next (s.hostRefused.send .unsupported)

/-- The dwords of a range that lie in entries of a host-fed queue between HEAD and TAIL (R353). -/
def State.inQueue (s : State) (a : Nat) : Bool :=
  (List.range 64).any fun q =>
    let u := s.queue q
    u.hostFed && decide (u.base ≤ a) && decide (a < u.base + 128 * u.size) &&
      decide (((a - u.base) / 128 + u.size - u.head.toNat % u.size) % u.size < u.count)

/-- The bytes of the 8-byte units of announced records that a host write touches become undefined (R353, R8). -/
def State.spoil (s : State) (l : List Nat) : State :=
  let units := ((l.filter s.inQueue).map (· / 8)).eraseDups
  units.foldl (fun s u =>
    let d := s.drawBytes 8
    { d.2 with mem := memWrite d.2.mem (8 * u) d.1 }) s

/-- A write of bytes to BAR0, word by word (R3, R385). -/
def State.barWrite (s : State) (off : Nat) (data : List Byte) : State :=
  let words := ((List.range data.length).map fun i => (off + i) / 8).eraseDups
  words.foldl (fun s w =>
    let at_ (f : Byte → Nat) : W64 := BitVec.ofNat 64 (((List.range 8).map fun i =>
      if off ≤ 8 * w + i ∧ 8 * w + i < off + data.length then f (data.getD (8 * w + i - off) 0) * 256 ^ i else 0).foldl (· + ·) 0)
    s.regWrite false (8 * w) (at_ fun _ => 255) (at_ fun b => b.toNat)) s

/-- HOST_BAR_WRITE: of a register block, of the granary or of DRAM; a refused one is discarded (R353, R384). In recovery only the
device summary block responds (R389). -/
def execHostBarWrite (bar : Bar) (off : Nat) (data : List Byte) (s : State) : Answer :=
  if bar = .msixControl then
    .next (match data[1 - off]? with
      | some b => s.msixControl b
      | none => s)
  else if bar = .bar0 then .next (if s.phaseDev = 3 ∧ off / 0x10000 ≠ 6 then s else s.barWrite off data)
  else if s.phaseDev = 3 then .next s
  else
    let cells := (data.zipIdx.filterMap fun p => (barAddr bar (off + p.2)).map fun a => (a, p.1))
    if cells.all fun c => s.hostGrants c.1 1 true then
      match cells with
      | [] => .next s
      | (a, _) :: _ => .next ((s.store a (cells.map Prod.snd)).spoil (cells.map Prod.fst))
    else .next s.hostRefused

/-- HOST_ATOMICOP: not supported (R384). -/
def execHostAtomicop (s : State) : Answer := .next (s.send .unsupported)

/-! ## The USB service port (R390) -/

/-- READREG: eight bytes of BAR0 with no side effect. -/
def execReadreg (off : W32) (s : State) : Answer :=
  .next (s.send (.usb (if s.phaseDev = 3 ∧ off.toNat / 0x10000 ≠ 6 then List.replicate 8 0 else s.barBytes off.toNat 8)))

/-- STAGE: a page of the staging area; a page past NPG stalls. -/
def execStage (page : BitVec 16) (data : List Byte) (s : State) : Answer :=
  if s.stageN.toNat ≤ page.toNat then .next (s.send .usbStall)
  else .next { s.store (s.stageA.toNat + 4096 * page.toNat) data with staged := s.staged + 1 }

/-- STAGESTAT: the pages written since the last reset. -/
def execStagestat (s : State) : Answer := .next (s.send (.usb (leBytes 8 s.staged)))

/-- USB_REQUEST_STALL: any other request. -/
def execUsbRequestStall (_req : Byte) (s : State) : Answer := .next (s.send .usbStall)

end Sys2Proof.Machine
end

