-- ==== Sys2Proof/Machine/SeqInt.lean ====
section
/-! DEFINITION. The sequencer's integer instructions (R120 to R123). -/

namespace Sys2Proof.Machine

/-- a shifted left by b[5:0] (R120). -/
def shiftL (a b : W64) : W64 := a <<< (b.toNat % 64)
/-- a shifted right with zeros by b[5:0] (R120). -/
def shiftR (a b : W64) : W64 := a >>> (b.toNat % 64)
/-- a shifted right with copies of a[63] by b[5:0] (R120). -/
def shiftA (a b : W64) : W64 := a.sshiftRight (b.toNat % 64)
/-- The smaller as signed. -/
def minS (a b : W64) : W64 := if a.slt b then a else b
/-- The larger as signed. -/
def maxS (a b : W64) : W64 := if a.slt b then b else a
/-- The smaller as unsigned. -/
def minUn (a b : W64) : W64 := if a.ult b then a else b
/-- The larger as unsigned. -/
def maxUn (a b : W64) : W64 := if a.ult b then b else a
/-- The high half of the signed product (R120). -/
def mulHiS (a b : W64) : W64 := BitVec.ofInt 64 (a.toInt * b.toInt / 2 ^ 64)
/-- The high half of the unsigned product (R120). -/
def mulHiUn (a b : W64) : W64 := BitVec.ofNat 64 (a.toNat * b.toNat / 2 ^ 64)

/-- The signed quotient with the boundary cases of R121. -/
def divS (a b : W64) : W64 :=
  if b = 0 then 0
  else if a = BitVec.ofNat 64 (2 ^ 63) ∧ b = BitVec.allOnes 64 then BitVec.ofNat 64 (2 ^ 63 - 1)
  else BitVec.ofInt 64 (a.toInt.tdiv b.toInt)
/-- The signed remainder (R121). -/
def remS (a b : W64) : W64 :=
  if b = 0 then a
  else if a = BitVec.ofNat 64 (2 ^ 63) ∧ b = BitVec.allOnes 64 then 0
  else BitVec.ofInt 64 (a.toInt.tmod b.toInt)
/-- The unsigned quotient (R121). -/
def divUn (a b : W64) : W64 := if b = 0 then 0 else BitVec.ofNat 64 (a.toNat / b.toNat)
/-- The unsigned remainder (R121). -/
def remUn (a b : W64) : W64 := if b = 0 then a else BitVec.ofNat 64 (a.toNat % b.toNat)

/-- The number of leading zero bits, 0 to 64 (R120). -/
def clzOf (a : W64) : W64 := BitVec.ofNat 64 (64 - bitLen a.toNat)
/-- The number of one bits (R120). -/
def popcOf (a : W64) : W64 := BitVec.ofNat 64 (popcount a.toNat 64)

/-- `add` (R120). -/
def execAdd (d a b : Reg) (s : State) : Answer := s.alu d a b fun a b => a + b
/-- `sub` (R120). -/
def execSub (d a b : Reg) (s : State) : Answer := s.alu d a b fun a b => a - b
/-- `and` (R120). -/
def execAnd (d a b : Reg) (s : State) : Answer := s.alu d a b fun a b => a &&& b
/-- `or` (R120). -/
def execOr (d a b : Reg) (s : State) : Answer := s.alu d a b fun a b => a ||| b
/-- `xor` (R120). -/
def execXor (d a b : Reg) (s : State) : Answer := s.alu d a b fun a b => a ^^^ b
/-- `shl` (R120). -/
def execShl (d a b : Reg) (s : State) : Answer := s.alu d a b shiftL
/-- `shr` (R120). -/
def execShr (d a b : Reg) (s : State) : Answer := s.alu d a b shiftR
/-- `sar` (R120). -/
def execSar (d a b : Reg) (s : State) : Answer := s.alu d a b shiftA
/-- `min` (R120). -/
def execMin (d a b : Reg) (s : State) : Answer := s.alu d a b minS
/-- `max` (R120). -/
def execMax (d a b : Reg) (s : State) : Answer := s.alu d a b maxS
/-- `min.u` (R120). -/
def execMinU (d a b : Reg) (s : State) : Answer := s.alu d a b minUn
/-- `max.u` (R120). -/
def execMaxU (d a b : Reg) (s : State) : Answer := s.alu d a b maxUn
/-- `mul.hi` (R120). -/
def execMulHi (d a b : Reg) (s : State) : Answer := s.alu d a b mulHiS
/-- `mul.hiu` (R120). -/
def execMulHiu (d a b : Reg) (s : State) : Answer := s.alu d a b mulHiUn
/-- `mul` (R120). -/
def execMul (d a b : Reg) (s : State) : Answer := s.alu d a b fun a b => a * b
/-- `cmp.lt` (R120). -/
def execCmpLt (d a b : Reg) (s : State) : Answer := s.alu d a b fun a b => boolW (a.slt b)
/-- `cmp.ltu` (R120). -/
def execCmpLtu (d a b : Reg) (s : State) : Answer := s.alu d a b fun a b => boolW (a.ult b)
/-- `div` (R121). -/
def execDiv (d a b : Reg) (s : State) : Answer := s.divide d a b divS
/-- `div.u` (R121). -/
def execDivU (d a b : Reg) (s : State) : Answer := s.divide d a b divUn
/-- `rem` (R121). -/
def execRem (d a b : Reg) (s : State) : Answer := s.divide d a b remS
/-- `rem.u` (R121). -/
def execRemU (d a b : Reg) (s : State) : Answer := s.divide d a b remUn
/-- `clz` (R120). -/
def execClz (d a : Reg) (s : State) : Answer := s.alu1 d a clzOf
/-- `popc` (R120). -/
def execPopc (d a : Reg) (s : State) : Answer := s.alu1 d a popcOf

/-- `add` with a constant, sign-extended (R122). -/
def execAddImm (d a : Reg) (imm : BitVec 15) (s : State) : Answer :=
  s.alu1 d a fun a => a + imm.signExtend 64
/-- `and` with a constant, sign-extended (R122). -/
def execAndImm (d a : Reg) (imm : BitVec 15) (s : State) : Answer :=
  s.alu1 d a fun a => a &&& imm.signExtend 64
/-- `or` with a constant, sign-extended (R122). -/
def execOrImm (d a : Reg) (imm : BitVec 15) (s : State) : Answer :=
  s.alu1 d a fun a => a ||| imm.signExtend 64
/-- `xor` with a constant, sign-extended (R122). -/
def execXorImm (d a : Reg) (imm : BitVec 15) (s : State) : Answer :=
  s.alu1 d a fun a => a ^^^ imm.signExtend 64
/-- `cmp.lt` with a constant, sign-extended (R122). -/
def execCmpLtImm (d a : Reg) (imm : BitVec 15) (s : State) : Answer :=
  s.alu1 d a fun a => boolW (a.slt (imm.signExtend 64))
/-- `cmp.ltu` with an unsigned constant (R122). -/
def execCmpLtuImm (d a : Reg) (imm : BitVec 15) (s : State) : Answer :=
  s.alu1 d a fun a => boolW (a.ult (imm.zeroExtend 64))
/-- `shl` by a constant (R122). -/
def execShlImm (d a : Reg) (imm : BitVec 15) (s : State) : Answer :=
  s.alu1 d a fun a => shiftL a (imm.zeroExtend 64)
/-- `shr` by a constant (R122). -/
def execShrImm (d a : Reg) (imm : BitVec 15) (s : State) : Answer :=
  s.alu1 d a fun a => shiftR a (imm.zeroExtend 64)
/-- `sar` by a constant (R122). -/
def execSarImm (d a : Reg) (imm : BitVec 15) (s : State) : Answer :=
  s.alu1 d a fun a => shiftA a (imm.zeroExtend 64)

/-- `lup`: the constant times 65536 (R123). -/
def execLup (d : Reg) (imm : BitVec 20) (s : State) : Answer :=
  s.issue [d] fun c x => s.finish c (x.setReg d (imm.signExtend 64 <<< 16)) 4
/-- `li` (R123). -/
def execLi (d : Reg) (imm : W32) (s : State) : Answer :=
  s.issue [d] fun c x => s.finish c (x.setReg d (imm.signExtend 64)) 8
/-- `lih`: the high word replaced, the low word kept (R123). -/
def execLih (d : Reg) (imm : W32) (s : State) : Answer :=
  s.issue [d] fun c x => s.finish c (x.setReg d (imm ++ (x.reg d).setWidth 32)) 8

end Sys2Proof.Machine
end

