-- ==== Sys2Proof/Machine/Dispatch.lean ====
section
/-! DEFINITION. One arm per row of the opcode table: each is one call of that row's meaning. -/

namespace Sys2Proof.Machine

def exec (i : Instr) (s : State) : Host.Outcome State Fault Refusal :=
  match i with
  | .add d a b => Sys2Proof.Machine.execAdd d a b s
  | .sub d a b => Sys2Proof.Machine.execSub d a b s
  | .and d a b => Sys2Proof.Machine.execAnd d a b s
  | .or d a b => Sys2Proof.Machine.execOr d a b s
  | .xor d a b => Sys2Proof.Machine.execXor d a b s
  | .shl d a b => Sys2Proof.Machine.execShl d a b s
  | .shr d a b => Sys2Proof.Machine.execShr d a b s
  | .sar d a b => Sys2Proof.Machine.execSar d a b s
  | .cmpLt d a b => Sys2Proof.Machine.execCmpLt d a b s
  | .cmpLtu d a b => Sys2Proof.Machine.execCmpLtu d a b s
  | .min d a b => Sys2Proof.Machine.execMin d a b s
  | .max d a b => Sys2Proof.Machine.execMax d a b s
  | .minU d a b => Sys2Proof.Machine.execMinU d a b s
  | .maxU d a b => Sys2Proof.Machine.execMaxU d a b s
  | .mul d a b => Sys2Proof.Machine.execMul d a b s
  | .mulHi d a b => Sys2Proof.Machine.execMulHi d a b s
  | .mulHiu d a b => Sys2Proof.Machine.execMulHiu d a b s
  | .div d a b => Sys2Proof.Machine.execDiv d a b s
  | .divU d a b => Sys2Proof.Machine.execDivU d a b s
  | .rem d a b => Sys2Proof.Machine.execRem d a b s
  | .remU d a b => Sys2Proof.Machine.execRemU d a b s
  | .clz d a => Sys2Proof.Machine.execClz d a s
  | .popc d a => Sys2Proof.Machine.execPopc d a s
  | .addImm d a imm => Sys2Proof.Machine.execAddImm d a imm s
  | .andImm d a imm => Sys2Proof.Machine.execAndImm d a imm s
  | .orImm d a imm => Sys2Proof.Machine.execOrImm d a imm s
  | .xorImm d a imm => Sys2Proof.Machine.execXorImm d a imm s
  | .cmpLtImm d a imm => Sys2Proof.Machine.execCmpLtImm d a imm s
  | .cmpLtuImm d a imm => Sys2Proof.Machine.execCmpLtuImm d a imm s
  | .shlImm d a imm => Sys2Proof.Machine.execShlImm d a imm s
  | .shrImm d a imm => Sys2Proof.Machine.execShrImm d a imm s
  | .sarImm d a imm => Sys2Proof.Machine.execSarImm d a imm s
  | .lup d imm => Sys2Proof.Machine.execLup d imm s
  | .brEq a b off => Sys2Proof.Machine.execBrEq a b off s
  | .brNe a b off => Sys2Proof.Machine.execBrNe a b off s
  | .brLt a b off => Sys2Proof.Machine.execBrLt a b off s
  | .brGe a b off => Sys2Proof.Machine.execBrGe a b off s
  | .brLtu a b off => Sys2Proof.Machine.execBrLtu a b off s
  | .brGeu a b off => Sys2Proof.Machine.execBrGeu a b off s
  | .jmp d off => Sys2Proof.Machine.execJmp d off s
  | .jmpr d a imm => Sys2Proof.Machine.execJmpr d a imm s
  | .crr d crn => Sys2Proof.Machine.execCrr d crn s
  | .crw crn a => Sys2Proof.Machine.execCrw crn a s
  | .crs d crn a => Sys2Proof.Machine.execCrs d crn a s
  | .crc d crn a => Sys2Proof.Machine.execCrc d crn a s
  | .fenceC scope mask => Sys2Proof.Machine.execFenceC scope mask s
  | .fenceX scope paths => Sys2Proof.Machine.execFenceX scope paths s
  | .trap imm => Sys2Proof.Machine.execTrap imm s
  | .mbw n a => Sys2Proof.Machine.execMbw n a s
  | .pushf a => Sys2Proof.Machine.execPushf a s
  | .fbpop d => Sys2Proof.Machine.execFbpop d s
  | .fbtry d => Sys2Proof.Machine.execFbtry d s
  | .semsig n a => Sys2Proof.Machine.execSemsig n a s
  | .semwait n a => Sys2Proof.Machine.execSemwait n a s
  | .semrd d n => Sys2Proof.Machine.execSemrd d n s
  | .launch a b => Sys2Proof.Machine.execLaunch a b s
  | .ld f => Sys2Proof.Machine.execLd f s
  | .st f => Sys2Proof.Machine.execSt f s
  | .ldp f => Sys2Proof.Machine.execLdp f s
  | .stp f => Sys2Proof.Machine.execStp f s
  | .ldAcq f => Sys2Proof.Machine.execLdAcq f s
  | .stRel f => Sys2Proof.Machine.execStRel f s
  | .ldSc f => Sys2Proof.Machine.execLdSc f s
  | .stSc f => Sys2Proof.Machine.execStSc f s
  | .waitge f => Sys2Proof.Machine.execWaitge f s
  | .waiteq f => Sys2Proof.Machine.execWaiteq f s
  | .atmAdd f => Sys2Proof.Machine.execAtmAdd f s
  | .atmAnd f => Sys2Proof.Machine.execAtmAnd f s
  | .atmOr f => Sys2Proof.Machine.execAtmOr f s
  | .atmXor f => Sys2Proof.Machine.execAtmXor f s
  | .atmMin f => Sys2Proof.Machine.execAtmMin f s
  | .atmMax f => Sys2Proof.Machine.execAtmMax f s
  | .atmMinU f => Sys2Proof.Machine.execAtmMinU f s
  | .atmMaxU f => Sys2Proof.Machine.execAtmMaxU f s
  | .atmSwap f => Sys2Proof.Machine.execAtmSwap f s
  | .atmCas f n => Sys2Proof.Machine.execAtmCas f n s
  | .atmAddSc f => Sys2Proof.Machine.execAtmAddSc f s
  | .atmAndSc f => Sys2Proof.Machine.execAtmAndSc f s
  | .atmOrSc f => Sys2Proof.Machine.execAtmOrSc f s
  | .atmXorSc f => Sys2Proof.Machine.execAtmXorSc f s
  | .atmMinSc f => Sys2Proof.Machine.execAtmMinSc f s
  | .atmMaxSc f => Sys2Proof.Machine.execAtmMaxSc f s
  | .atmMinUSc f => Sys2Proof.Machine.execAtmMinUSc f s
  | .atmMaxUSc f => Sys2Proof.Machine.execAtmMaxUSc f s
  | .atmSwapSc f => Sys2Proof.Machine.execAtmSwapSc f s
  | .atmCasSc f n => Sys2Proof.Machine.execAtmCasSc f n s
  | .li d imm => Sys2Proof.Machine.execLi d imm s
  | .lih d imm => Sys2Proof.Machine.execLih d imm s
  | .pushbEx blk => Sys2Proof.Machine.execPushbEx blk s
  | .pushtMx f => Sys2Proof.Machine.execPushtMx f s
  | .pushrMx a => Sys2Proof.Machine.execPushrMx a s
  | .pushtCp f => Sys2Proof.Machine.execPushtCp f s
  | .pushrCp a => Sys2Proof.Machine.execPushrCp a s
  | .pushtAl f => Sys2Proof.Machine.execPushtAl f s
  | .pushrAl a => Sys2Proof.Machine.execPushrAl a s
  | .vaddI32 f => Sys2Proof.Machine.execVaddI32 f s
  | .vsubI32 f => Sys2Proof.Machine.execVsubI32 f s
  | .vaddsI32 f => Sys2Proof.Machine.execVaddsI32 f s
  | .vsubsI32 f => Sys2Proof.Machine.execVsubsI32 f s
  | .vmulI32 f => Sys2Proof.Machine.execVmulI32 f s
  | .vmulhI32 f => Sys2Proof.Machine.execVmulhI32 f s
  | .vminI32 f => Sys2Proof.Machine.execVminI32 f s
  | .vmaxI32 f => Sys2Proof.Machine.execVmaxI32 f s
  | .vminN32 f => Sys2Proof.Machine.execVminN32 f s
  | .vmaxN32 f => Sys2Proof.Machine.execVmaxN32 f s
  | .vand f => Sys2Proof.Machine.execVand f s
  | .vor f => Sys2Proof.Machine.execVor f s
  | .vxor f => Sys2Proof.Machine.execVxor f s
  | .vandn f => Sys2Proof.Machine.execVandn f s
  | .vshl f => Sys2Proof.Machine.execVshl f s
  | .vshr f => Sys2Proof.Machine.execVshr f s
  | .vsra f => Sys2Proof.Machine.execVsra f s
  | .vaddminI32 f => Sys2Proof.Machine.execVaddminI32 f s
  | .vaddiI32 f => Sys2Proof.Machine.execVaddiI32 f s
  | .vshli f => Sys2Proof.Machine.execVshli f s
  | .vshri f => Sys2Proof.Machine.execVshri f s
  | .vsrai f => Sys2Proof.Machine.execVsrai f s
  | .vminiI32 f => Sys2Proof.Machine.execVminiI32 f s
  | .vmaxiI32 f => Sys2Proof.Machine.execVmaxiI32 f s
  | .vceqI32 f => Sys2Proof.Machine.execVceqI32 f s
  | .vcltI32 f => Sys2Proof.Machine.execVcltI32 f s
  | .vcleI32 f => Sys2Proof.Machine.execVcleI32 f s
  | .vcltN32 f => Sys2Proof.Machine.execVcltN32 f s
  | .vplrd f => Sys2Proof.Machine.execVplrd f s
  | .vplwr f => Sys2Proof.Machine.execVplwr f s
  | .vpladd f => Sys2Proof.Machine.execVpladd f s
  | .vaddF32 f => Sys2Proof.Machine.execVaddF32 f s
  | .vsubF32 f => Sys2Proof.Machine.execVsubF32 f s
  | .vmulF32 f => Sys2Proof.Machine.execVmulF32 f s
  | .vfmaF32 f => Sys2Proof.Machine.execVfmaF32 f s
  | .vminF32 f => Sys2Proof.Machine.execVminF32 f s
  | .vmaxF32 f => Sys2Proof.Machine.execVmaxF32 f s
  | .vaddBf f => Sys2Proof.Machine.execVaddBf f s
  | .vsubBf f => Sys2Proof.Machine.execVsubBf f s
  | .vmulBf f => Sys2Proof.Machine.execVmulBf f s
  | .vfmaBf f => Sys2Proof.Machine.execVfmaBf f s
  | .vminBf f => Sys2Proof.Machine.execVminBf f s
  | .vmaxBf f => Sys2Proof.Machine.execVmaxBf f s
  | .vceqF32 f => Sys2Proof.Machine.execVceqF32 f s
  | .vcltF32 f => Sys2Proof.Machine.execVcltF32 f s
  | .vcleF32 f => Sys2Proof.Machine.execVcleF32 f s
  | .vcvtF32 f => Sys2Proof.Machine.execVcvtF32 f s
  | .vcvtBf f => Sys2Proof.Machine.execVcvtBf f s
  | .vcvtI32 f => Sys2Proof.Machine.execVcvtI32 f s
  | .vcvtF8 f => Sys2Proof.Machine.execVcvtF8 f s
  | .vcvtBp f => Sys2Proof.Machine.execVcvtBp f s
  | .vitpBf f => Sys2Proof.Machine.execVitpBf f s
  | .vcbxBp16 f => Sys2Proof.Machine.execVcbxBp16 f s
  | .vcbxBf f => Sys2Proof.Machine.execVcbxBf f s
  | .vcbxVq4 f => Sys2Proof.Machine.execVcbxVq4 f s
  | .cbswap f => Sys2Proof.Machine.execCbswap f s
  | .vsel f => Sys2Proof.Machine.execVsel f s
  | .vslu f => Sys2Proof.Machine.execVslu f s
  | .vsld f => Sys2Proof.Machine.execVsld f s
  | .vperm f => Sys2Proof.Machine.execVperm f s
  | .vbcst f => Sys2Proof.Machine.execVbcst f s
  | .vfsu f => Sys2Proof.Machine.execVfsu f s
  | .qand f => Sys2Proof.Machine.execQand f s
  | .qor f => Sys2Proof.Machine.execQor f s
  | .qxor f => Sys2Proof.Machine.execQxor f s
  | .qandn f => Sys2Proof.Machine.execQandn f s
  | .qnot f => Sys2Proof.Machine.execQnot f s
  | .qleni f => Sys2Proof.Machine.execQleni f s
  | .qlen f => Sys2Proof.Machine.execQlen f s
  | .qset f => Sys2Proof.Machine.execQset f s
  | .vraddI32 f => Sys2Proof.Machine.execVraddI32 f s
  | .vrminI32 f => Sys2Proof.Machine.execVrminI32 f s
  | .vrmaxI32 f => Sys2Proof.Machine.execVrmaxI32 f s
  | .vraddF32 f => Sys2Proof.Machine.execVraddF32 f s
  | .vrminF32 f => Sys2Proof.Machine.execVrminF32 f s
  | .vrmaxF32 f => Sys2Proof.Machine.execVrmaxF32 f s
  | .vraddBf f => Sys2Proof.Machine.execVraddBf f s
  | .vpop f => Sys2Proof.Machine.execVpop f s
  | .vpush f => Sys2Proof.Machine.execVpush f s
  | .vpushc f => Sys2Proof.Machine.execVpushc f s
  | .vpopx f => Sys2Proof.Machine.execVpopx f s
  | .vmov f => Sys2Proof.Machine.execVmov f s
  | .vmovi f => Sys2Proof.Machine.execVmovi f s
  | .vmovmb f => Sys2Proof.Machine.execVmovmb f s
  | .vmovlc f => Sys2Proof.Machine.execVmovlc f s
  | .loop f => Sys2Proof.Machine.execLoop f s
  | .loopm f => Sys2Proof.Machine.execLoopm f s
  | .loopc f => Sys2Proof.Machine.execLoopc f s
  | .vxi f => Sys2Proof.Machine.execVxi f s
  | .vxa f => Sys2Proof.Machine.execVxa f s
  | .semw f => Sys2Proof.Machine.execSemw f s
  | .sems f => Sys2Proof.Machine.execSems f s
  | .fbput f => Sys2Proof.Machine.execFbput f s
  | .pat f => Sys2Proof.Machine.execPat f s
  | .copy f => Sys2Proof.Machine.execCopy f s
  | .copya f => Sys2Proof.Machine.execCopya f s
  | .gather f => Sys2Proof.Machine.execGather f s
  | .scatter f => Sys2Proof.Machine.execScatter f s
  | .fill f => Sys2Proof.Machine.execFill f s
  | .bind f => Sys2Proof.Machine.execBind f s
  | .unbind port t => Sys2Proof.Machine.execUnbind port t s
  | .unpack f => Sys2Proof.Machine.execUnpack f s
  | .cbld f => Sys2Proof.Machine.execCbld f s
  | .itld f => Sys2Proof.Machine.execItld f s
  | .cmpl t => Sys2Proof.Machine.execCmpl t s
  | .ckst dst t => Sys2Proof.Machine.execCkst dst t s
  | .mmul f => Sys2Proof.Machine.execMmul f s
  | .mmuls f => Sys2Proof.Machine.execMmuls f s
  | .hrot acc side kind t => Sys2Proof.Machine.execHrot acc side kind t s
  | .drain f => Sys2Proof.Machine.execDrain f s
  | .acclr acc kind t => Sys2Proof.Machine.execAcclr acc kind t s
  | .accadd src acc kind t => Sys2Proof.Machine.execAccadd src acc kind t s
  | .mxCbswap bank t => Sys2Proof.Machine.execMxCbswap bank t s
  | .msem t => Sys2Proof.Machine.execMsem t s
  | .lnVadd f => Sys2Proof.Machine.execLnVadd f s
  | .lnVsub f => Sys2Proof.Machine.execLnVsub f s
  | .lnVmul f => Sys2Proof.Machine.execLnVmul f s
  | .lnVmac f => Sys2Proof.Machine.execLnVmac f s
  | .lnVmin f => Sys2Proof.Machine.execLnVmin f s
  | .lnVmax f => Sys2Proof.Machine.execLnVmax f s
  | .lnVand f => Sys2Proof.Machine.execLnVand f s
  | .lnVor f => Sys2Proof.Machine.execLnVor f s
  | .lnVxor f => Sys2Proof.Machine.execLnVxor f s
  | .lnVclt f => Sys2Proof.Machine.execLnVclt f s
  | .lnVceq f => Sys2Proof.Machine.execLnVceq f s
  | .lnVshl f => Sys2Proof.Machine.execLnVshl f s
  | .lnVshr f => Sys2Proof.Machine.execLnVshr f s
  | .lnVsra f => Sys2Proof.Machine.execLnVsra f s
  | .lnVrshr f => Sys2Proof.Machine.execLnVrshr f s
  | .lnVabs f => Sys2Proof.Machine.execLnVabs f s
  | .lnVsel f => Sys2Proof.Machine.execLnVsel f s
  | .lnVidx f => Sys2Proof.Machine.execLnVidx f s
  | .lnVlut f => Sys2Proof.Machine.execLnVlut f s
  | .lnVrsum f => Sys2Proof.Machine.execLnVrsum f s
  | .lnVrmin f => Sys2Proof.Machine.execLnVrmin f s
  | .lnVrmax f => Sys2Proof.Machine.execLnVrmax f s
  | .lld f => Sys2Proof.Machine.execLld f s
  | .lst f => Sys2Proof.Machine.execLst f s
  | .kli f => Sys2Proof.Machine.execKli f s
  | .kadd f => Sys2Proof.Machine.execKadd f s
  | .ksub f => Sys2Proof.Machine.execKsub f s
  | .kmul f => Sys2Proof.Machine.execKmul f s
  | .kmin f => Sys2Proof.Machine.execKmin f s
  | .kmax f => Sys2Proof.Machine.execKmax f s
  | .kand f => Sys2Proof.Machine.execKand f s
  | .kshl f => Sys2Proof.Machine.execKshl f s
  | .kshr f => Sys2Proof.Machine.execKshr f s
  | .ksr f => Sys2Proof.Machine.execKsr f s
  | .rstat f => Sys2Proof.Machine.execRstat f s
  | .fmem rule part members => Sys2Proof.Machine.execFmem rule part members s
  | .ftol rule refpos delta dead => Sys2Proof.Machine.execFtol rule refpos delta dead s
  | .fring rule nrecm1 ring => Sys2Proof.Machine.execFring rule nrecm1 ring s
  | .fcnt rule cnt => Sys2Proof.Machine.execFcnt rule cnt s
  | .fpeer rule prule mode port => Sys2Proof.Machine.execFpeer rule prule mode port s
  | .farm rule => Sys2Proof.Machine.execFarm rule s
  | .fdis rule => Sys2Proof.Machine.execFdis rule s
  | .fforce rule => Sys2Proof.Machine.execFforce rule s
  | .tret => Sys2Proof.Machine.execTret s
  | .region => Sys2Proof.Machine.execRegion s
  | .done => Sys2Proof.Machine.execDone s
  | .exNop => Sys2Proof.Machine.execExNop s
  | .lnNop => Sys2Proof.Machine.execLnNop s
  | .stallRelease c => Sys2Proof.Machine.execStallRelease c s
  | .loadValueReturn c n => Sys2Proof.Machine.execLoadValueReturn c n s
  | .divisionResult c => Sys2Proof.Machine.execDivisionResult c s
  | .hostWindowReadCompletion c n ok data => Sys2Proof.Machine.execHostWindowReadCompletion c n ok data s
  | .waitWake c => Sys2Proof.Machine.execWaitWake c s
  | .waitTimeout c => Sys2Proof.Machine.execWaitTimeout c s
  | .timerInterrupt c => Sys2Proof.Machine.execTimerInterrupt c s
  | .feedbackInterrupt c => Sys2Proof.Machine.execFeedbackInterrupt c s
  | .regionLengthFault c => Sys2Proof.Machine.execRegionLengthFault c s
  | .preemptionRequest c => Sys2Proof.Machine.execPreemptionRequest c s
  | .workItemRestart c => Sys2Proof.Machine.execWorkItemRestart c s
  | .contextEnded c => Sys2Proof.Machine.execContextEnded c s
  | .blockFetch c => Sys2Proof.Machine.execBlockFetch c s
  | .blockStart c => Sys2Proof.Machine.execBlockStart c s
  | .operationRetire c => Sys2Proof.Machine.execOperationRetire c s
  | .blockComplete c => Sys2Proof.Machine.execBlockComplete c s
  | .slipBudgetFault c => Sys2Proof.Machine.execSlipBudgetFault c s
  | .cpCommandComplete c num => Sys2Proof.Machine.execCpCommandComplete c num s
  | .bindingEntryAppend c port => Sys2Proof.Machine.execBindingEntryAppend c port s
  | .bindingEntryDrain c port => Sys2Proof.Machine.execBindingEntryDrain c port s
  | .bindingEnd c port => Sys2Proof.Machine.execBindingEnd c port s
  | .peerRefusal c num addr => Sys2Proof.Machine.execPeerRefusal c num addr s
  | .peerWriteAck c num off len sum => Sys2Proof.Machine.execPeerWriteAck c num off len sum s
  | .flitReceive p f => Sys2Proof.Machine.execFlitReceive p f s
  | .flitResend p => Sys2Proof.Machine.execFlitResend p s
  | .lkPeerAccess p a => Sys2Proof.Machine.execLkPeerAccess p a s
  | .lkinjWrite p val => Sys2Proof.Machine.execLkinjWrite p val s
  | .crierCompare c => Sys2Proof.Machine.execCrierCompare c s
  | .mxEnterCompute c => Sys2Proof.Machine.execMxEnterCompute c s
  | .mxCommandComplete c => Sys2Proof.Machine.execMxCommandComplete c s
  | .frameRecording sid => Sys2Proof.Machine.execFrameRecording sid s
  | .ruleDeadline r => Sys2Proof.Machine.execRuleDeadline r s
  | .broadcastReceipt p => Sys2Proof.Machine.execBroadcastReceipt p s
  | .csi2FrameStart sid ecc => Sys2Proof.Machine.execCsi2FrameStart sid ecc s
  | .csi2FrameEnd sid ecc => Sys2Proof.Machine.execCsi2FrameEnd sid ecc s
  | .csi2LongPacketStart sid dt ecc => Sys2Proof.Machine.execCsi2LongPacketStart sid dt ecc s
  | .csi2LongPacketEnd sid samples crcOk => Sys2Proof.Machine.execCsi2LongPacketEnd sid samples crcOk s
  | .discardedPacket sid kind => Sys2Proof.Machine.execDiscardedPacket sid kind s
  | .lidarDatagram port d => Sys2Proof.Machine.execLidarDatagram port d s
  | .frameSync sid => Sys2Proof.Machine.execFrameSync sid s
  | .rowDeadline sid => Sys2Proof.Machine.execRowDeadline sid s
  | .ringRowEnter sid => Sys2Proof.Machine.execRingRowEnter sid s
  | .millConfigApply sid => Sys2Proof.Machine.execMillConfigApply sid s
  | .stripStart p => Sys2Proof.Machine.execStripStart p s
  | .outputRowComplete p => Sys2Proof.Machine.execOutputRowComplete p s
  | .tileRowWrite sid => Sys2Proof.Machine.execTileRowWrite sid s
  | .slotReset sid => Sys2Proof.Machine.execSlotReset sid s
  | .doorbell q v => Sys2Proof.Machine.execDoorbell q v s
  | .launchAdmit q => Sys2Proof.Machine.execLaunchAdmit q s
  | .launchPrepared q lseq => Sys2Proof.Machine.execLaunchPrepared q lseq s
  | .workItemDispatch => Sys2Proof.Machine.execWorkItemDispatch s
  | .launchComplete q lseq => Sys2Proof.Machine.execLaunchComplete q lseq s
  | .exceptionRecordWrite q => Sys2Proof.Machine.execExceptionRecordWrite q s
  | .xheadWrite q v => Sys2Proof.Machine.execXheadWrite q v s
  | .answerResume q rseq => Sys2Proof.Machine.execAnswerResume q rseq s
  | .answerSkip q rseq => Sys2Proof.Machine.execAnswerSkip q rseq s
  | .answerAbort q rseq => Sys2Proof.Machine.execAnswerAbort q rseq s
  | .qkill q go lseq => Sys2Proof.Machine.execQkill q go lseq s
  | .coalescingTimer q => Sys2Proof.Machine.execCoalescingTimer q s
  | .priorityRise q lseq => Sys2Proof.Machine.execPriorityRise q lseq s
  | .slowSwap q lseq victim => Sys2Proof.Machine.execSlowSwap q lseq victim s
  | .watchdogT1 q lseq => Sys2Proof.Machine.execWatchdogT1 q lseq s
  | .watchdogT2 q lseq => Sys2Proof.Machine.execWatchdogT2 q lseq s
  | .partitionReset p => Sys2Proof.Machine.execPartitionReset p s
  | .resetTimeout p => Sys2Proof.Machine.execResetTimeout p s
  | .selfTestSlot g failing => Sys2Proof.Machine.execSelfTestSlot g failing s
  | .selfTestDispatchStop g => Sys2Proof.Machine.execSelfTestDispatchStop g s
  | .selfTestOverdue g => Sys2Proof.Machine.execSelfTestOverdue g s
  | .liveUpdate img canImport => Sys2Proof.Machine.execLiveUpdate img canImport s
  | .standbyTakeover => Sys2Proof.Machine.execStandbyTakeover s
  | .resynchronisation => Sys2Proof.Machine.execResynchronisation s
  | .fwcmdRefused cmd => Sys2Proof.Machine.execFwcmdRefused cmd s
  | .gptpFirstLock port t => Sys2Proof.Machine.execGptpFirstLock port t s
  | .gptpSync t ppm => Sys2Proof.Machine.execGptpSync t ppm s
  | .holdoverEntry => Sys2Proof.Machine.execHoldoverEntry s
  | .tbnowLowRead requester => Sys2Proof.Machine.execTbnowLowRead requester s
  | .hostBarRead bar off len => Sys2Proof.Machine.execHostBarRead bar off len s
  | .hostBarWrite bar off data => Sys2Proof.Machine.execHostBarWrite bar off data s
  | .hostAtomicop => Sys2Proof.Machine.execHostAtomicop s
  | .registerWrite fw off val => Sys2Proof.Machine.execRegisterWrite fw off val s
  | .attest nonce => Sys2Proof.Machine.execAttest nonce s
  | .readreg off => Sys2Proof.Machine.execReadreg off s
  | .stage page data => Sys2Proof.Machine.execStage page data s
  | .stagestat => Sys2Proof.Machine.execStagestat s
  | .usbRequestStall req => Sys2Proof.Machine.execUsbRequestStall req s
  | .deviceReset copy1 copy2 => Sys2Proof.Machine.execDeviceReset copy1 copy2 s
  | .reducedService => Sys2Proof.Machine.execReducedService s
  | .fullService mxcap => Sys2Proof.Machine.execFullService mxcap s
  | .softErrorCorrected u fits => Sys2Proof.Machine.execSoftErrorCorrected u fits s
  | .coreEvacuation c tgt => Sys2Proof.Machine.execCoreEvacuation c tgt s
  | .channelRemapDone ch => Sys2Proof.Machine.execChannelRemapDone ch s
  | .thermalRelief tj => Sys2Proof.Machine.execThermalRelief tj s
  | .thermalRestore tj => Sys2Proof.Machine.execThermalRestore tj s
  | .clockStepChange => Sys2Proof.Machine.execClockStepChange s
  | .ageLimit cl margin => Sys2Proof.Machine.execAgeLimit cl margin s
  | .thrumolPortTrained p lanes => Sys2Proof.Machine.execThrumolPortTrained p lanes s
  | .partitionResetComplete p => Sys2Proof.Machine.execPartitionResetComplete p s

end Sys2Proof.Machine
end

