-- ==== Sys2Proof/Machine/Turns.lean ====
section
/-! DEFINITION. What each part of the device does with one clock (log entry 3): the sequencer's instruction boundary, the
execute core's clock, and the array clock itself. -/

namespace Sys2Proof.Machine

/-! ## The sequencer (R89, R100, R105, R119) -/

/-- The pc and every byte of the instruction there lie in the sequencer section (R89). -/
def State.fetchOk (s : State) (x : Context) : Bool :=
  decide (x.pc.toNat % 4 = 0) && x.inCode x.pc.toNat 4 && x.inCode x.pc.toNat (lenOf (s.fetchWords x).1)

/-- Fetches, decodes and runs the instruction at the pc of the context in focus (R89, R105, R114). -/
def State.fetchRun (s : State) : Answer :=
  let c := s.focus
  let x := s.ctx c
  if s.fetchOk x then
    match s.decodeAt x with
    | some i => exec i s
    | none => .next (s.seqFault c (s.illegalFault x))
  else .next (s.seqFault c (fetchFault (x.pc.zeroExtend 64)))

/-- The sequencer in focus takes its clock: a region-length fault first (R97, R99); of a sleeping wait its end (R134); then an
interrupt (R100); else its instruction. -/
def State.sqTurn (s : State) : Answer :=
  let c := s.focus
  let x := s.ctx c
  if !s.serves c then .next s
  else if x.regionOver then execRegionLengthFault c s
  else
    let t := s.endWait c
    let y := t.ctx c
    if x.run = .sleep ∧ y.run ≠ .sleep then .next t
    else if t.timerDue y then execTimerInterrupt c t
    else if t.feedbackDue y then execFeedbackInterrupt c t
    else if y.run = .run || y.run = .stall then t.fetchRun
    else .next t

/-! ## The execute core (R161 to R168, R184) -/

/-- The four slots of a bundle with their instructions; none where a slot is illegal (R179). -/
def bundleInstrs (b : BitVec 128) : List (Option Instr) :=
  [decode .slotA (slotWord b 0), decode .slotB (slotWord b 1), decode .slotC (slotWord b 2), decode .slotD (slotWord b 3)]

/-- The lowest illegal slot. -/
def illegalSlot : List (Option Instr) → Nat → Option Nat
  | [], _ => none
  | none :: _, k => some k
  | some _ :: r, k => illegalSlot r (k + 1)

/-- The fault of the lowest slot that meets one, each slot tried alone (R184, log entry 14). -/
def State.slotFault (s : State) : List Instr → Option State
  | [] => none
  | i :: r =>
    let t := Answer.stateOr s (exec i s)
    if s.faults.length < t.faults.length then some t else s.slotFault r

/-- The bundle issues as a whole (R166), then the pipelines advance, what is due retires, and the block completes if it was the
last (R161, R162, R171). -/
def State.issueBundle (s : State) (c : CtxId) (is : List Instr) : State :=
  let s := is.foldl (fun t i => Answer.stateOr t (exec i t)) s
  let s := (s.modBlock c RunBlock.endBundle).modCtx c Context.pipeAdvance
  let s := Answer.stateOr s (execOperationRetire c s)
  Answer.stateOr s (execBlockComplete c s)

/-- A drain clock (R161, R162). -/
def State.drainClock (s : State) (c : CtxId) : State :=
  let s := s.modCtx c Context.pipeAdvance
  let s := Answer.stateOr s (execOperationRetire c s)
  Answer.stateOr s (execBlockComplete c s)

/-- The clock of a started block: an illegal bundle faults, then any other fault, slot D's own even
where slot D would freeze (R184, log entry 99), then the freeze test, else it issues. -/
def State.blockClock (s : State) (c : CtxId) (b : RunBlock) : State :=
  let is := bundleInstrs b.bundle
  match illegalSlot is 0 with
  | some k => s.exFault c b k 0x0301 (slotWord b.bundle k) 0
  | none =>
    let l := is.filterMap id
    match s.slotFault l with
    | some t => t
    | none =>
      if s.exFreezes c (l.getD 3 .exNop) then
        let t := s.exFrozen c
        Answer.stateOr t (execSlipBudgetFault c t)
      else s.issueBundle c l

/-- The execute core once its next block is fetched and started, where it can be (R161). -/
def State.exReady (s : State) (c : CtxId) : State := Answer.stateOr s (execBlockStart c (Answer.stateOr s (execBlockFetch c s)))

/-- The execute core of the context in focus takes its clock. -/
def State.exTurn (s : State) : Answer :=
  let c := s.focus
  if !s.serves c || (s.ctx c).ex.halted then .next s
  else
    let s := s.exReady c
    match (s.ctx c).ex.block with
    | none => .next s
    | some b => .next (if b.draining then s.drainClock c else s.blockClock c b)

/-! ## The matrix and copy engines (R278 to R280, R233) -/

/-- The first turn of the matrix engine of the context in focus: signals due, stages, completions. -/
def State.mxTurn (s : State) : Answer :=
  let c := s.focus
  if !s.serves c then .next s else execMxCommandComplete c ((s.mxPending c).mxStages c)

/-- The second: the begin of a command. -/
def State.mxBegin (s : State) : Answer :=
  let c := s.focus
  if !s.serves c then .next s
  else
    match (s.ctx c).mxHead with
    | none => .next s
    | some e =>
      match decode .mx e.w.toNat with
      | some i => exec i s
      | none => .next (s.mxIllegal c)

/-- The copy engine of the context in focus takes its clock: work begun goes on, at most one command begins, and what can complete
does. -/
def State.cpTurn (s : State) : Answer :=
  let c := s.focus
  if !s.serves c then .next s
  else
    let s := s.cpWork c
    let s := match (s.ctx c).cpHead with
      | none => s
      | some e =>
        match decode .cp e.w.toNat with
        | some i => Answer.stateOr s (exec i s)
        | none => s.cpIllegal c
    .next (s.cpComplete c)

/-! ## The line processors (R317) -/

/-- A line processor takes its clock: the instruction of the strip it runs, then what that completes, then the next strip may start,
to issue from the next clock. -/
def State.lnTurn (s : State) : Answer :=
  let n := s.lnFocus
  let s := match s.lnWord with
    | none => s
    | some w =>
      match decode .ln w.toNat with
      | some i => Answer.stateOr s (exec i s)
      | none => s
  execStripStart n (Answer.stateOr s (execOutputRowComplete n s))

/-! ## The alignment unit (R141, R344) -/

/-- The alignment unit takes its clock: writes due perform; then the first event that waits is processed; with none it is ready to take
a command at the end of the clock. -/
def State.alTurn (s : State) : Answer :=
  let s := s.alFlush
  match s.alEvents.find? s.alReady with
  | some e => s.alEvent e
  | none => .next { s with alTake := decide (s.alFree ≤ s.clk) }

/-- At the end of a clock a unit that is ready takes a command, unless an event of this clock goes first: recordings and deadlines
before it (R344). -/
def State.alCommands (s : State) : State :=
  if s.alTake then
    let s := { s with alTake := false }
    if s.alEvents.all fun e => evLess (s.clk, 2, 0) e then
      match s.alNext with
      | some c => Answer.stateOr s (s.onFocus c State.alAccept)
      | none => s
    else s
  else s

/-! ## The array clock (R11, R15, R97) -/

/-- CCYC counts while the region is committed, until `done` (R97, R149). -/
def Context.countClock (x : Context) : Context :=
  if x.cmt && x.run != .done && x.run != .ended && x.run != .idle then { x with ccyc := satInc x.ccyc } else x

/-- A multiply whose operand read is refused in clock `clk`, its own or another's of its crier group, spends one clock more in compute; a
member held by another counts the clock (R279, R283). -/
def Context.portStall (x : Context) (clk c : Nat) : Context :=
  match x.mx.runs.find? fun r => r.stage == .compute && decide (clk < r.due) && isMul r.i with
  | none => x
  | some r =>
    if (if r.group.isEmpty then [c] else r.group).any (Config.portRefused clk) then
      let y := x.setMxRun { r with due := r.due + 1 }
      { y with mx := { y.mx with held := y.mx.held || !Config.portRefused clk c } }
    else x

/-- A clock held by the crier group is added to CRST (R283). -/
def State.countHeld (s : State) : State :=
  { s with
    cores := (s.ctxs.filter fun p => p.2.mx.held).foldl (fun t p =>
      let k := tabGet Core.reset t (p.1 / 2)
      tabSet t (p.1 / 2) { k with crst := satInc k.crst }) s.cores,
    ctxs := s.ctxs.map fun p => (p.1, { p.2 with mx := { p.2.mx with held := false } }) }

/-- Refused operand reads of the clock that ends (R279). -/
def State.refusePorts (s : State) : State := { s with ctxs := s.ctxs.map fun p => (p.1, p.2.portStall s.clk p.1) }

/-- What a new clock `clk` does to a context: CCYC counts, the flags of the clock before show (R188), loads see whether a swap took their
side (R219), and held writes land (R213). -/
def Context.newClock (x : Context) (clk : Nat) : Context := x.countClock.showFlags.noteFronts.landHeld clk

/-- What device time gains in a clock, in units of 1/6000000 ns (R11, R16). -/
def State.timeGain (s : State) : Nat := (clockSixths s.clkStep * (1000000 + s.ppm)).toNat

/-- Device time after a clock in units of 1/6000000 ns; a forward step lands here (R15, R16). -/
def State.nextTime (s : State) : Nat :=
  let t := s.timeU + s.timeGain
  match s.timeStep with
  | some u => Nat.max (u.toNat * 6000000) t
  | none => t

/-- The course of device time with the clock `clk` and its time `t` (R15, R344): a new stretch where the gain has changed. -/
def timeLogAt (log : List (Nat × Nat × Nat)) (clk t gain : Nat) : List (Nat × Nat × Nat) :=
  match log with
  | (c, u, g) :: r => if u + (clk - c) * g = t then (c, u, g) :: r else (clk, t, gain) :: (c, u, g) :: r
  | [] => [(clk, t, gain)]

/-- The clock and device time advance (R11, R15). -/
def State.advanceClock (s : State) : State :=
  { s with
    clk := s.clk + 1,
    timeU := s.nextTime,
    timeStep := none,
    timeLog := timeLogAt s.timeLog (s.clk + 1) s.nextTime s.timeGain,
    ctxs := s.ctxs.map fun p => (p.1, p.2.newClock (s.clk + 1)),
    acted := [] }

/-- What ended packets in the clock takes effect (R308). -/
def State.settleAll (s : State) : State := s.streams.foldl (fun t p => t.settle p.1) s

/-- The next array clock: of the old one the alignment unit's command (R344), what ended rows' packets (R308), the pre-emption requests (R99) and retirements at a
command boundary (R276) take effect, and operand reads refused in it hold their commands (R279); then, with the new one, deadlines that device time passes (R344), foreground items
released (R368) and the times R364 and R369 count from. -/
def State.tick (s : State) : State :=
  s.alCommands.settleAll.preemptAll.retireDue.refusePorts.countHeld.advanceClock.raiseDue.noteDeadlines.releaseFg.noteLaunches

/-! ## Turns

In a clock the engines of a context act in the order of these places (log entry 3): the matrix engine's signals, stages and
completions 0; the execute core 1; the sequencer 2; the begin of a matrix command 3; the execute core with a bundle that holds a
`semw` 4; the sequencer with a `semwait` 5; the copy engine 6. So every signal to a semaphore comes before every wait, each in the order
MX, EX, SQ (R144), and what the copy engine writes comes after the other engines' reads of the clock (R66, R221). -/

/-- The semaphore of the sequencer's next instruction, a `semwait`. -/
def State.sqSem (s : State) (c : CtxId) : Option (BitVec 4) :=
  match s.decodeAt (s.ctx c) with
  | some (.semwait n _) => some n
  | _ => none

/-- The sequencer's place: its next instruction is a `semwait` or not. -/
def State.sqPlace (s : State) (c : CtxId) : Nat := if (s.sqSem c).isSome then 5 else 2

/-- The semaphore of slot D of the execute core's next bundle, a `semw`. -/
def State.exSem (s : State) (c : CtxId) : Option (BitVec 4) :=
  match ((s.exReady c).ctx c).ex.block with
  | some b =>
    if b.draining then none
    else match decode .slotD (slotWord b.bundle 3) with
      | some (.semw f) => some (f.d.setWidth 4)
      | _ => none
  | none => none

/-- The execute core's place: slot D of its next bundle is a `semw` or not. -/
def State.exPlace (s : State) (c : CtxId) : Nat := if (s.exSem c).isSome then 4 else 1

/-- A turn of an engine of context `c` would be granted a wait on semaphore `n`. -/
def State.grants (s : State) (c : CtxId) (n : BitVec 4) (f : State → Answer) : Bool :=
  decide (((Answer.stateOr s (s.onFocus c f)).ctx c).semVal n.toNat < (s.ctx c).semVal n.toNat)

/-- A wait on a semaphore is not granted before one that R144 grants first: the matrix engine's, whose next command would begin, before
both others'; the execute core's, which has not had its turn, before the sequencer's (R144, R165). -/
def State.outranked (s : State) (a : Actor) : Bool :=
  match a with
  | .sq c => match s.sqSem c with
    | some n => s.grants c n State.mxBegin ||
      ((s.exSem c).isSome && (s.acted.all fun b => b.1 != .ex c) && s.grants c n State.exTurn)
    | none => false
  | .ex c => match s.exSem c with
    | some n => s.grants c n State.mxBegin
    | none => false
  | _ => false

/-- An actor's place in the clock. -/
def State.place (s : State) (a : Actor) : Nat :=
  match a with
  | .sq c => s.sqPlace c
  | .ex c => s.exPlace c
  | .mxb _ => 3
  | .cp _ => 6
  | _ => 0

/-- A sequencer's turn that may launch comes in ascending order of contexts, so of cores, and foreground before background (R148). -/
def State.launchOrder (s : State) (a : Actor) (k : Nat) : Bool :=
  match a with
  | .sq c => k != 2 || !s.acted.any fun b => match b with
    | (.sq d, 2) => decide (c.val < d.val)
    | _ => false
  | _ => true

/-- A part may take its turn, at place `k`: once a clock, where no part of its context has acted at a later place and no wait goes before
its own. -/
def State.mayAct (s : State) (a : Actor) (k : Nat) : Bool :=
  (match a.ctx? with
    | some c => s.placeOk c k
    | none => true) &&
    (match a with
    | .ev _ => true
    | _ => !s.acted.any fun b => b.1 == a) && s.launchOrder a k && !s.outranked a

/-- Runs an operation with processor `p` in focus, and puts the focus back. -/
def State.onProc (s : State) (p : ProcId) (f : State → Answer) : Answer :=
  match f { s with lnFocus := p } with
  | .next t => .next { t with lnFocus := s.lnFocus }
  | .fault r => .fault r
  | .refused r => .refused r

/-- What a part does with its turn. -/
def State.actor (s : State) (a : Actor) : Answer :=
  match a with
  | .sq c => s.onFocus c State.sqTurn
  | .ex c => s.onFocus c State.exTurn
  | .mx c => s.onFocus c State.mxTurn
  | .mxb c => s.onFocus c State.mxBegin
  | .cp c => s.onFocus c State.cpTurn
  | .ln p => s.onProc p State.lnTurn
  | .al => s.alTurn
  | .ev _ => .next s

/-- A part takes its turn, if it may. -/
def State.takeTurn (s : State) (a : Actor) : Answer :=
  let k := s.place a
  if s.mayAct a k then (s.noteActed a k).actor a else .next s

/-- Every outstanding result of the context in focus that can land does. -/
def State.landAll (s : State) : State :=
  let c := s.focus
  let s := (s.ctx c).loads.foldl (fun t l => Answer.stateOr t (execLoadValueReturn c l.num t)) s
  Answer.stateOr s (execDivisionResult c s)

/-- The default round, when the agenda is empty: the parts of the context in focus in the order of a clock, from the sequencer on, with
the next clock in the middle (log entry 3). -/
def State.round (s : State) : Answer :=
  let c := s.focus
  match s.phase with
  | 0 => if s.sqPlace c = 2 then ({ s with phase := 1 }).takeTurn (.sq c) else .next { s with phase := 1 }
  | 1 => ({ s with phase := 2 }).takeTurn (.mxb c)
  | 2 => ({ s with phase := 3 }).takeTurn (.ex c)
  | 3 => ({ s with phase := 4 }).takeTurn (.sq c)
  | 4 => ({ s with phase := 5 }).takeTurn (.cp c)
  | 5 => ({ s with phase := 6 }).takeTurn .al
  | 6 => ({ s with phase := 7 }).takeTurn (.ln s.lnFocus)
  | 7 => .next { s.tick with phase := 8 }
  | 8 => .next { s.landAll with phase := 9 }
  | 9 => ({ s with phase := 10 }).takeTurn (.mx c)
  | _ => if s.exPlace c = 1 then ({ s with phase := 0 }).takeTurn (.ex c) else .next { s with phase := 0 }

/-- The rows of the opcode table that are events (spec/opcode_table.json). -/
def isEvent (i : Instr) : Bool := (encode i).isNone

/-- The part an event acts for, and its place in the clock: what ends a stall or a wait, or takes an interrupt or a region-length
fault, is its sequencer's turn; other events of an engine have the engine's place and are bound to no turn. Events from
outside the engines have none. -/
def State.evActor (s : State) (i : Instr) : Option (Actor × Nat) :=
  match i with
  | .stallRelease c => some (.sq c, s.sqPlace c)
  | .waitWake c => some (.sq c, s.sqPlace c)
  | .waitTimeout c => some (.sq c, s.sqPlace c)
  | .timerInterrupt c => some (.sq c, s.sqPlace c)
  | .feedbackInterrupt c => some (.sq c, s.sqPlace c)
  | .regionLengthFault c => some (.sq c, s.sqPlace c)
  | .mxEnterCompute c => some (.ev c, 0)
  | .mxCommandComplete c => some (.ev c, 0)
  | .blockFetch c => some (.ev c, 1)
  | .blockStart c => some (.ev c, 1)
  | .crierCompare c => some (.ev c, 3)
  | .operationRetire c => some (.ev c, 4)
  | .blockComplete c => some (.ev c, 4)
  | .slipBudgetFault c => some (.ev c, 4)
  | .cpCommandComplete c _ => some (.ev c, 6)
  | .bindingEntryAppend c _ => some (.ev c, 6)
  | .bindingEntryDrain c _ => some (.ev c, 6)
  | .bindingEnd c _ => some (.ev c, 6)
  | _ => none

/-- An event takes place, if the order of the clock lets it. -/
def State.event (s : State) (i : Instr) : Answer :=
  match s.evActor i with
  | none => exec i s
  | some (a, k) => if s.mayAct a k then exec i (s.noteActed a k) else .next s

/-- A move of the device. -/
def State.turn (s : State) (t : Turn) : Answer :=
  match t with
  | .clock => .next s.tick
  | .act a => s.takeTurn a
  | .ev i => if i.wf && isEvent i then s.event i else .fault .illFormedTurn

/-! ## Placing an instruction (log entry 15) -/

/-- A kernel whose sequencer section is the 4 KiB from an address, with no other section. -/
def bareKernel (base : Nat) : Kernel :=
  { wheel := false, entry := base, sq := ⟨base, 4096⟩, ex := ⟨0, 0⟩, mx := ⟨0, 0⟩, cp := ⟨0, 0⟩, al := ⟨0, 0⟩, exBase := 0,
    exN := 0, mxBase := 0, mxN := 0, cpBase := 0, cpN := 0, alBase := 0, alN := 0, vbase := 0, vn := 0, abase := 0, an := 0,
    mbase := 0, mn := 0 }

/-- A work item of that kernel, with one page of each pool region and no lease. -/
def bareJob (base : Nat) : Job :=
  { q := 0, lseq := 0, part := 0, wid := 0, last := 0, widths := [0, 0, 0, 0, 0, 0], place := 0, regmax := 1, slipb := 0,
    strict := false, cv1 := 1, cv2 := 1, cv3 := 1, args := 0, leases := [], k := bareKernel base }

/-- The state with an instruction's bytes at the pc of the context in focus, in RUN, and its turn next: the phase of a `semwait` is
that of its place. -/
def fetchWord (s : State) (nbits w : Nat) : State :=
  let x := s.ctx s.focus
  let s := { s with agenda := [], acted := [], mem := memWrite s.mem x.pc.toNat (tableBytes nbits w) }
  let s := s.setCtx s.focus { x with run := .run, job := some (bareJob x.pc.toNat) }
  { s with phase := if s.sqPlace s.focus = 2 then 0 else 3 }

end Sys2Proof.Machine
end

