-- ==== Sys2Proof/Machine/Step.lean ====
section
/-! DEFINITION. One step of the device: the next move of the agenda, or of the default round (log entry 3); and how a
word comes to stand where the next step fetches (log entry 15). -/

namespace Sys2Proof.Machine

/-- One step: the agenda's next move, or with an empty agenda the next part of the default round. -/
def step (s : State) : Host.Outcome State Fault Refusal :=
  match s.agenda with
  | t :: r => ({ s with agenda := r }).turn t
  | [] => s.round

/-- The device with an instruction of `nbits` bits `w` at the pc of the context in focus, and the next step its fetch: a work
item runs there whose kernel's sequencer section holds the pc, as a launch loads it (log entry 15). -/
def State.withFetchWord (s : State) (nbits w : Nat) : State :=
  fetchWord s nbits w

end Sys2Proof.Machine
end

