-- ==== Sys2Proof/Machine/Consistency.lean ====
section
/-! DEFINITION. The device's consistency (R73 to R87) as a predicate on finite executions: scopes, the order of a sequencer's accesses,
synchronisation, fences, pushes, the wheel, coherence and single-copy atomicity. The machine's steps make every access when it is
issued (log entry 4); this file says which other outcomes R86 allows. -/

namespace Sys2Proof.Consistency

/-- An agent that makes accesses (R73, R79): an engine of a context by its path number (0 SQ, 1 EX, 2 MX, 3 CP), a mill, the alignment
unit, the scheduler, firmware, the host's and a peer's accesses as they reach the device, and what lies outside it. -/
inductive Agent
  | eng (c : CtxId) (path : Nat) | mill (n : Nat) | al | scheduler | firmware | host | peer (port : Nat) | outside
  deriving DecidableEq, Repr

/-- `b` lies within the scope that `a` names (R73). -/
def inScope (s : Scope) (a b : Agent) : Bool :=
  match s, a, b with
  | .core, .eng c _, .eng d _ => c.core == d.core
  | .clu, .eng c _, .eng d _ => c.cluster == d.cluster
  | .dev, a, b => a != .outside && b != .outside
  | .sys, _, _ => true
  | _, a, b => a == b

/-- The path an agent's accesses take (R79), by its bit of a `fence.x` (R135); 8 for agents that a fence does not name. -/
def Agent.path : Agent → Nat
  | .eng _ p => p
  | .mill _ => 4
  | .al => 5
  | .host => 6
  | .peer _ => 7
  | _ => 8

/-- What an event is, as far as its order goes (R75, R79 to R82). -/
inductive Kind
  /-- a plain sequencer access of a class -/
  | plain (c : BitVec 4)
  /-- an atomic of a class at a scope; `.sc` atomics are `wheel` -/
  | atomic (c : BitVec 4) (s : Scope)
  | acquire (s : Scope) (mask : BitVec 16)
  | release (s : Scope) (mask : BitVec 16)
  /-- a `.sc` load, store or atomic, and its clock -/
  | wheel (clk : Nat)
  /-- a satisfied wait -/
  | wait (s : Scope)
  | fenceC (s : Scope) (mask : BitVec 16)
  | fenceX (s : Scope) (paths : BitVec 8)
  /-- an instruction that makes no access, a push among them -/
  | silent
  /-- the append of a launch record (R147) -/
  | launch
  /-- the completion word of a copy command; `far` when a payload byte it covers lies in the host or a peer window -/
  | copyDone (far : Bool)
  /-- a byte of a tile row or its status in a slot, and the advance of the row counter -/
  | tile (slot row : Nat)
  | rowCount (slot row : Nat)
  /-- a write of the reset of a slot for a frame, and its FRAME write; `frame` counts the writes of the stream's frames -/
  | slotReset (st frame : Nat)
  | frame (st frame : Nat)
  /-- the alignment unit's read of a slot header for a decision, its record, and the counter's advance -/
  | header (decision : Nat)
  | record (decision : Nat)
  | fuseCount (decision : Nat)
  /-- the completion signal of a launch -/
  | signal (launch : Nat)
  /-- the scheduler's read of an appended entry -/
  | entry
  /-- a record of an exception queue, and the write of its TAIL -/
  | excRecord (q n : Nat)
  | excTail (q n : Nat)
  /-- a byte of a resynchronisation summary, and the CMDST write that ends it -/
  | summary (n : Nat)
  | cmdst (n : Nat)
  /-- a host read of a completion signal, of TAIL or of FWST -/
  | hostSync
  | other
  deriving DecidableEq, Repr

/-- The classes of a sequencer access (R75). -/
def Kind.classes : Kind → BitVec 16
  | .plain c => 1#16 <<< c.toNat
  | .atomic c _ => 1#16 <<< c.toNat
  | .acquire _ m => m
  | .release _ m => m
  | .wheel _ => 0xFFFF
  | .wait _ => 0xFFFF
  | .launch => 0xFFFF
  | _ => 0

/-- Scope and mask of a release-like write (R80); every mask bit where the agent is no sequencer. -/
def Kind.rel : Kind → Option (Scope × BitVec 16)
  | .release s m => some (s, m)
  | .wheel _ => some (.dev, 0xFFFF)
  | .launch => some (.dev, 0xFFFF)
  | .copyDone far => some (if far then .sys else .dev, 0xFFFF)
  | .rowCount _ _ => some (.dev, 0xFFFF)
  | .frame _ _ => some (.dev, 0xFFFF)
  | .fuseCount _ => some (.dev, 0xFFFF)
  | .signal _ => some (.sys, 0xFFFF)
  | .excRecord _ _ => some (.sys, 0xFFFF)
  | .excTail _ _ => some (.sys, 0xFFFF)
  | .cmdst _ => some (.sys, 0xFFFF)
  | _ => none

/-- Scope and mask of an acquire-like read (R80). -/
def Kind.acq : Kind → Option (Scope × BitVec 16)
  | .acquire s m => some (s, m)
  | .wheel _ => some (.dev, 0xFFFF)
  | .wait s => some (s, 0xFFFF)
  | .entry => some (.dev, 0xFFFF)
  | .header _ => some (.dev, 0xFFFF)
  | .hostSync => some (.sys, 0xFFFF)
  | _ => none

/-- One event of an execution: an access of `len` bytes at `addr` that reads, writes or does both, a fence or a push. `deps` holds the
earlier events whose values its address or data depends on; `pushed` the push that gave an engine its work (R82); `launch` the launch
of the work item that made it, and `frame` the stream and frame of a mill's write; `ro` marks a host write with Relaxed Ordering
(R87); `block` is the size of the plane blocks its bytes lie in, 0 where they are none (R43). -/
structure Ev where
  agent : Agent
  kind : Kind
  rd : Bool
  wr : Bool
  addr : Nat
  len : Nat
  deps : List Nat
  pushed : Option Nat
  launch : Option Nat
  frame : Option (Nat × Nat)
  ro : Bool
  block : Nat
  deriving DecidableEq, Repr

/-- The byte addresses from `a`, `n` of them. -/
def span (a n : Nat) : List Nat := (List.range n).map (a + ·)

/-- The bytes an event reads, and those it writes. -/
def Ev.reads (e : Ev) : List Nat := if e.rd then span e.addr e.len else []
def Ev.writes (e : Ev) : List Nat := if e.wr then span e.addr e.len else []

/-- An access of 1, 2, 4 or 8 bytes, naturally aligned. -/
def natural (a n : Nat) : Bool := [1, 2, 4, 8].contains n && a % n == 0

/-- The units of an access of `n` bytes at `a` on path `p` (R67): naturally aligned ones of a sequencer, and of the host's those of up to 8
bytes; lanes of 4 bytes for EX; the counters of LN and AL; else each wholly covered 64-byte block, and single bytes. The scheduler and
firmware, which the table leaves out, are taken as the host is (log entry 89). -/
def unitsOf (p a n : Nat) : List (List Nat) :=
  if natural a n && (p == 0 || ((p == 4 || p == 5) && n == 4) || p == 6 || p == 8) then [span a n]
  else if p = 0 then (span a n).map fun x => [x]
  else
    let w := if p = 1 then 4 else 64
    (List.range (n / w + 2)).flatMap fun k =>
      let b := (a / w + k) * w
      if a ≤ b ∧ b + w ≤ a + n then [span b w] else ((span b w).filter fun x => decide (a ≤ x ∧ x < a + n)).map fun x => [x]

/-- The units of an access to plane blocks of `w` bytes (R43): a whole block is one, and so are the leading planes of 16 bytes that a
read takes of a block; the rest by R67. -/
def planeUnits (w : Nat) (read : Bool) (p a n : Nat) : List (List Nat) :=
  (List.range (n / w + 2)).flatMap fun k =>
    let b := (a / w + k) * w
    let lo := Nat.max a b
    let hi := Nat.min (a + n) (b + w)
    if hi ≤ lo then []
    else if lo = b ∧ (hi = b + w ∨ (read = true ∧ (hi - b) % 16 = 0)) then [span b (hi - b)]
    else unitsOf p lo (hi - lo)

/-- The units of an event: a completion signal is one of its own 32 bytes (R362). -/
def Ev.units (e : Ev) : List (List Nat) :=
  match e.kind with
  | .signal _ => [span e.addr e.len]
  | _ => if e.block = 0 then unitsOf e.agent.path e.addr e.len else planeUnits e.block (!e.wr) e.agent.path e.addr e.len

/-- An execution (R86): its events, those of one agent in its program or queue order; the write each byte of a read returns, none for
the value before all writes; and the writes to each byte in coherence order (R74). -/
structure Execution where
  evs : List Ev
  rf : List ((Nat × Nat) × Option Nat)
  co : List (Nat × List Nat)
  deriving DecidableEq, Repr

/-- The event of an index, or one that does nothing. -/
def Execution.ev (x : Execution) (i : Nat) : Ev :=
  x.evs.getD i ⟨.outside, .other, false, false, 0, 0, [], none, none, none, false, 0⟩

/-- The write that read `r` returns for byte `b`. -/
def Execution.src (x : Execution) (r b : Nat) : Option Nat := ((x.rf.find? fun p => p.1 == (r, b)).map (·.2)).getD none

/-- The writes to byte `b`, earliest first. -/
def Execution.order (x : Execution) (b : Nat) : List Nat := ((x.co.find? fun p => p.1 == b).map (·.2)).getD []

/-- `w` comes before `v` in the coherence order of byte `b`; the value before all writes comes first. -/
def Execution.before (x : Execution) (b : Nat) (w v : Option Nat) : Bool :=
  match w, v with
  | _, none => false
  | none, some j => (x.order b).contains j
  | some i, some j => ((x.order b).dropWhile (· != i)).tail.contains j

/-- Two masks share a class. -/
def meets (m n : BitVec 16) : Bool := m &&& n != 0

/-- Event `a` precedes event `b` of the same agent. -/
def Execution.po (x : Execution) (a b : Nat) : Bool := decide (a < b) && (x.ev a).agent == (x.ev b).agent

/-- The two events touch a byte in common. -/
def Ev.overlap (e f : Ev) : Bool := (e.reads ++ e.writes).any fun b => (f.reads ++ f.writes).contains b

/-- An event of a sequencer. -/
def Ev.isSq (e : Ev) : Bool := match e.agent with | .eng _ 0 => true | _ => false

/-- An event of a sequencer's context. -/
def Ev.sameCtx (e f : Ev) : Bool := match e.agent, f.agent with | .eng c _, .eng d _ => c == d | _, _ => false

/-- The scopes at which the kinds of two accesses of one sequencer keep their order (R76, R132). -/
def Kind.ordered (k l : Kind) : List Scope :=
  (match k, l with
    | .plain c, .plain d => if c = d then [.core] else []
    | .plain c, .atomic d _ => if c = d then [.core] else []
    | .atomic c s, l => if l.classes.getLsbD c.toNat then [s] else []
    | _, _ => []) ++
    (match k with
      | .acquire s m => if meets m l.classes then [s] else []
      | .wait s => if meets 0xFFFF l.classes then [s] else []
      | _ => []) ++
    (match l with
      | .release s m => if meets m k.classes then [s] else []
      | .launch => [.dev]
      | _ => []) ++
    (match k, l with
      | .wheel _, _ => [.dev]
      | _, .wheel _ => [.dev]
      | _, _ => [])

/-- The scopes at which a fence between two accesses of its sequencer orders them (R76). -/
def Kind.between (f k l : Kind) : List Scope :=
  match f with
  | .fenceC s m => if meets m k.classes && meets m l.classes then [s] else []
  | .fenceX s _ => [s]
  | _ => []

/-- The scopes at which the order of two accesses of one agent is preserved: R76 for a sequencer, R74 for an engine, R87 for the host. -/
def Execution.ordered (x : Execution) (a b : Nat) : List Scope :=
  let e := x.ev a
  let f := x.ev b
  if !x.po a b then []
  else
    let between := (List.range x.evs.length).filter fun k => x.po a k && x.po k b
    (if e.overlap f || f.deps.contains a then [.sys] else []) ++
      (if e.agent == .host && !e.ro && !f.ro && e.wr && f.wr then [.dev] else []) ++
      if !e.isSq then []
      else e.kind.ordered f.kind ++ between.flatMap fun k => (x.ev k).kind.between e.kind f.kind

/-- A release-like write is ordered after an event, by the table of R80; what R76 orders before a sequencer's is left to it. -/
def Execution.after (x : Execution) (a b : Nat) : Bool :=
  let e := x.ev a
  let f := x.ev b
  match f.kind with
  | .copyDone _ => x.po a b
  | .rowCount slot row =>
    x.po a b &&
      (match e.kind with
      | .tile s r => s == slot && r == row
      | .rowCount s _ => s == slot
      | _ => false)
  | .frame st n =>
    e.kind == .slotReset st n || (e.wr && decide (a < b) && match e.frame with | some (t, m) => t == st && decide (m < n) | none => false)
  | .fuseCount d =>
    e.kind == .record d ||
      (match e.kind with
      | .rowCount _ _ => (List.range b).any fun r => (x.ev r).kind == .header d && (x.ev r).reads.any fun c => x.src r c == some a
      | _ => false)
  | .signal l => e.launch == some l
  | .excTail q n => match e.kind with | .excRecord p m => p == q && decide (m < n) | _ => false
  | .cmdst n => e.kind == .summary n
  | _ => false

/-- Event `a` is an access of a local path that fence `k` names, issued or pushed before it (R81, step 1). -/
def Execution.drainedBy (x : Execution) (paths : BitVec 8) (k a : Nat) : Bool :=
  let e := x.ev a
  paths.getLsbD e.agent.path && decide (e.agent.path < 4) &&
    (if e.isSq then x.po a k else (x.ev k).sameCtx e && match e.pushed with | some p => decide (p < k) | none => false)

/-- Event `a` is a write of a remote path that fence `k` names, which its sequencer has read before it (R81, step 2). -/
def Execution.seenBy (x : Execution) (paths : BitVec 8) (k a : Nat) : Bool :=
  let e := x.ev a
  paths.getLsbD e.agent.path && decide (4 ≤ e.agent.path) &&
    (List.range k).any fun r => x.po r k && (x.ev r).reads.any fun c => x.src r c == some a

/-- The scopes at which a fence of one sequencer orders events (R81): the named local accesses before what its sequencer does after it and
before the accesses of named local paths pushed after it; the remote writes it has seen before all that follows it. -/
def Execution.fenced (x : Execution) (a b : Nat) : List Scope :=
  let f := x.ev b
  (List.range x.evs.length).flatMap fun k =>
    match (x.ev k).kind with
    | .fenceX s paths =>
      let pushedAfter := (x.ev k).sameCtx f && match f.pushed with | some p => decide (k < p) | none => false
      if (x.drainedBy paths k a && (x.po k b || (paths.getLsbD f.agent.path && pushedAfter))) ||
          (x.seenBy paths k a && (x.po k b || pushedAfter)) then [s] else []
    | _ => []

/-- The scopes of the other orders of R86: a release-like write after what R80 lists for it, work pushed into a queue of the core after the
acquires, satisfied waits and wheel accesses before its push (R82), and the wheel's order (R85). -/
def Execution.others (x : Execution) (a b : Nat) : List Scope :=
  let e := x.ev a
  let f := x.ev b
  (match f.kind.rel with | some (s, _) => if x.after a b then [s] else [] | none => []) ++
    (match f.pushed with
      | some p => if decide (f.agent.path < 4) && x.po a p && e.isSq && e.kind.acq.isSome then [.sys] else []
      | none => []) ++
    (match e.kind, f.kind with | .wheel c, .wheel d => if c < d then [.dev] else [] | _, _ => [])

/-- A release-like write synchronises with an acquire-like read (R80): it, or an atomic that follows it in coherence order, is what the
read returns, and both agents lie within both scopes; so must those of the outcome, `obs`. -/
def Execution.syncs (x : Execution) (obs : List Agent) (a b : Nat) : Bool :=
  let e := x.ev a
  let f := x.ev b
  match e.kind.rel, f.kind.acq with
  | some (s, _), some (t, _) =>
    (e.agent :: f.agent :: obs).all (fun g => inScope s e.agent g && inScope t f.agent g) &&
      f.reads.any fun c =>
        e.writes.contains c &&
          match x.src b c with
          | some w => w == a || (x.before c (some a) (some w) && (x.ev w).reads.contains c)
          | none => false
  | _, _ => false

/-- One order of R86 that counts for an outcome of the agents `obs`. -/
def Execution.edge (x : Execution) (obs : List Agent) (a b : Nat) : Bool :=
  (x.ordered a b ++ x.fenced a b ++ x.others a b).any (fun s => obs.all (inScope s (x.ev a).agent)) || x.syncs obs a b

/-- A chain of at most `n + 1` edges among the events. -/
def Execution.chain (x : Execution) (obs : List Agent) : Nat → Nat → Nat → Bool
  | 0, a, b => x.edge obs a b
  | n + 1, a, b => x.edge obs a b || (List.range x.evs.length).any fun c => x.edge obs a c && x.chain obs n c b

/-- Happens-before (R86), for an outcome of the agents `obs`. -/
def Execution.hb (x : Execution) (obs : List Agent) (a b : Nat) : Bool := x.chain obs x.evs.length a b

/-- Two bytes lie in one unit of an event. -/
def Ev.together (e : Ev) (b c : Nat) : Bool := e.units.any fun u => u.contains b && u.contains c

/-- Every read returns a write to its byte, or none; every byte's order lists its writes once each. -/
def Execution.shaped (x : Execution) : Bool :=
  let n := List.range x.evs.length
  n.all fun i =>
    ((x.ev i).reads.all fun b => match x.src i b with | some w => w != i && (x.ev w).writes.contains b | none => true) &&
      (x.ev i).writes.all fun b => (x.order b).filter (· == i) == [i]

/-- Two events of one agent perform on a byte in its order: all but two host writes with Relaxed Ordering (R74, R87). -/
def Execution.inOrder (x : Execution) (a b : Nat) : Bool := x.po a b && !((x.ev a).ro && (x.ev b).ro)

/-- Coherence (R74): one agent's writes to a byte in its order, and no read of it a write of its own that follows the read, or one after
that; no agent's later read returns an earlier write than its earlier read; an atomic reads the write before its own. -/
def Execution.coherent (x : Execution) : Bool :=
  let n := List.range x.evs.length
  n.all fun i => n.all fun j =>
    ((x.ev i).writes.all fun b =>
      !(x.inOrder i j && (x.ev j).writes.contains b) || x.before b (some i) (some j)) &&
    ((x.ev i).reads.all fun b =>
      (!(x.inOrder i j && (x.ev j).writes.contains b) || (x.src i b != some j && !x.before b (some j) (x.src i b))) &&
      (!(x.po i j && (x.ev j).reads.contains b) || !x.before b (x.src j b) (x.src i b)) &&
        (!(x.ev i).writes.contains b || (x.before b (x.src i b) (some i) &&
          !(x.before b (x.src i b) (some j) && x.before b (some j) (some i)))))

/-- Conditions 1 and 2 of R86: no read returns a write it happens before, nor one that another write follows which happens before it. -/
def Execution.fresh (x : Execution) : Bool :=
  let n := List.range x.evs.length
  n.all fun r => (x.ev r).reads.all fun b =>
    let w := x.src r b
    let who := match w with | some i => [(x.ev i).agent] | none => []
    (match w with | some i => !x.hb ((x.ev r).agent :: who) r i | none => true) &&
      n.all fun v => !(v != r && x.before b w (some v)) || !x.hb ((x.ev r).agent :: (x.ev v).agent :: who) v r

/-- Condition 3 of R86: what a wheel access has read had performed by its clock, so that one of a later clock reads no earlier write
(R85). -/
def Execution.wheelOrder (x : Execution) : Bool :=
  let n := List.range x.evs.length
  n.all fun i => n.all fun j =>
    match (x.ev i).kind, (x.ev j).kind with
    | .wheel c, .wheel d => !decide (c < d) || (x.ev i).reads.all fun b => !((x.ev j).reads.contains b && x.before b (x.src j b) (x.src i b))
    | _, _ => true

/-- Condition 4 of R86: of the bytes a read takes as one, none is older than a write that wrote it as one with another byte taken; and two
writes that each write two bytes as one stand in the same order at both (R67, R43). -/
def Execution.atomic (x : Execution) : Bool :=
  let n := List.range x.evs.length
  (n.all fun r => (x.ev r).reads.all fun b => (x.ev r).reads.all fun c =>
    !(x.ev r).together b c ||
      match x.src r b with
      | some w => !((x.ev w).together b c && (x.ev w).writes.contains c) || !x.before c (x.src r c) (some w)
      | none => true) &&
  n.all fun w => (x.ev w).writes.all fun b => (x.ev w).writes.all fun c =>
    !(x.ev w).together b c || n.all fun v =>
      !((x.ev v).together b c && (x.ev v).writes.contains b && (x.ev v).writes.contains c && x.before b (some w) (some v)) ||
        x.before c (some w) (some v)

/-- An execution R86 allows. -/
def Execution.allowed (x : Execution) : Bool := x.shaped && x.coherent && x.fresh && x.wheelOrder && x.atomic

/-! ## Sequential executions -/

/-- The last of the first `n` events that writes byte `b`. -/
def lastWrite (evs : List Ev) (b : Nat) : Nat → Option Nat
  | 0 => none
  | n + 1 => if ((evs[n]?).map fun e => e.writes.contains b).getD false then some n else lastWrite evs b n

/-- The execution in which the events perform one after the other: each read returns the last write before it. -/
def sequential (evs : List Ev) : Execution :=
  let bytes := evs.flatMap (·.writes)
  { evs := evs
    rf := (List.range evs.length).flatMap fun i => ((evs[i]?).map (·.reads)).getD [] |>.map fun b => ((i, b), lastWrite evs b i)
    co := bytes.map fun b => (b, (List.range evs.length).filter fun i => ((evs[i]?).map fun e => e.writes.contains b).getD false) }

/-- What an event refers to comes before it, what a fence or a release-like write is ordered after comes before it, and wheel accesses stand
in the order of their clocks. -/
def forward (evs : List Ev) : Bool :=
  let x := sequential evs
  (List.range evs.length).all fun i =>
    let e := x.ev i
    e.deps.all (fun j => decide (j < i)) &&
      (match e.pushed with | some p => decide (p < i) | none => true) &&
      (List.range evs.length).all fun j =>
        (!x.after j i || decide (j < i)) &&
          (match e.kind with | .fenceX _ paths => !(x.drainedBy paths i j || x.seenBy paths i j) || decide (j < i) | _ => true) &&
          match (x.ev j).kind, e.kind with | .wheel c, .wheel d => !decide (j < i) || decide (c ≤ d) | _, _ => true

end Sys2Proof.Consistency
end

