-- ==== Sys2Proof/Safety.lean ====
section
/-! DEFINITION. What counts as a safe run: the device never stops. The spec's faults are steps like any other (log entry
12), so the one way to stop is a move that is none of the device's. -/

namespace Sys2Proof

/-- A run of `n` steps from a state does not stop. -/
def SafeRun (n : Nat) (s : Machine.State) : Prop := ∃ t, Host.Core.run core n s = .next t

end Sys2Proof
end

