-- ==== Sys2Proof/Certificates/Slice0/Obligations.lean ====
section
/-! DEFINITION. The statements for the provers, and the tables and predicates they are written with. Where a statement says
`exec i s = .next t`, the instruction completes in `t`; a fault of the spec is taken, so it is a next state too. -/

namespace Sys2Proof.Claims

open Sys2Proof.Machine

/-! ## The sequencer -/

/-- The context in focus. -/
abbrev cur (s : State) : Context := s.ctx s.focus
/-- No result for one of these registers is outstanding (R119). -/
abbrev ready (s : State) (rs : List Reg) : Prop := ∀ r ∈ rs, (cur s).busy r = false
/-- The context in focus becomes `x`, with its pc moved past an instruction of `len` bytes, and runs. -/
def went (s : State) (x : Context) (len : Nat) : State :=
  s.setCtx s.focus { x with pc := (cur s).pc + BitVec.ofNat 48 len, run := .run }
/-- Register `d` of the context in focus takes `v`, and the pc moves past an instruction of `len` bytes. -/
def wrote (s : State) (d : Reg) (v : W64) (len : Nat) : State := went s ((cur s).setReg d v) len

/-- The two-operand rows of R120: destination, operands, and the result as a function of a and b. -/
def aluRow : Instr → Option (Reg × Reg × Reg × (W64 → W64 → W64))
  | .add d a b => some (d, a, b, fun x y => x + y)
  | .sub d a b => some (d, a, b, fun x y => x - y)
  | .and d a b => some (d, a, b, fun x y => x &&& y)
  | .or d a b => some (d, a, b, fun x y => x ||| y)
  | .xor d a b => some (d, a, b, fun x y => x ^^^ y)
  | .shl d a b => some (d, a, b, fun x y => BitVec.ofNat 64 (x.toNat * 2 ^ (y.toNat % 64)))
  | .shr d a b => some (d, a, b, fun x y => BitVec.ofNat 64 (x.toNat / 2 ^ (y.toNat % 64)))
  | .sar d a b => some (d, a, b, fun x y => BitVec.ofInt 64 (x.toInt / 2 ^ (y.toNat % 64)))
  | .cmpLt d a b => some (d, a, b, fun x y => if x.toInt < y.toInt then 1 else 0)
  | .cmpLtu d a b => some (d, a, b, fun x y => if x.toNat < y.toNat then 1 else 0)
  | .min d a b => some (d, a, b, fun x y => if x.toInt ≤ y.toInt then x else y)
  | .max d a b => some (d, a, b, fun x y => if x.toInt ≤ y.toInt then y else x)
  | .minU d a b => some (d, a, b, fun x y => if x.toNat ≤ y.toNat then x else y)
  | .maxU d a b => some (d, a, b, fun x y => if x.toNat ≤ y.toNat then y else x)
  | .mul d a b => some (d, a, b, fun x y => BitVec.ofNat 64 (x.toNat * y.toNat))
  | .mulHi d a b => some (d, a, b, fun x y => BitVec.ofInt 64 (x.toInt * y.toInt / 2 ^ 64))
  | .mulHiu d a b => some (d, a, b, fun x y => BitVec.ofNat 64 (x.toNat * y.toNat / 2 ^ 64))
  | _ => none

/-- `n` is the number of leading zero bits of `a`. -/
def leadingZeros (a : W64) (n : Nat) : Prop := n ≤ 64 ∧ a.toNat < 2 ^ (64 - n) ∧ (n < 64 → 2 ^ (63 - n) ≤ a.toNat)

/-- The immediate rows of R122: destination, operand, and the result as a function of sa. -/
def immRow : Instr → Option (Reg × Reg × (W64 → W64))
  | .addImm d a i => some (d, a, fun x => BitVec.ofInt 64 (x.toInt + i.toInt))
  | .andImm d a i => some (d, a, fun x => x &&& BitVec.ofInt 64 i.toInt)
  | .orImm d a i => some (d, a, fun x => x ||| BitVec.ofInt 64 i.toInt)
  | .xorImm d a i => some (d, a, fun x => x ^^^ BitVec.ofInt 64 i.toInt)
  | .cmpLtImm d a i => some (d, a, fun x => if x.toInt < i.toInt then 1 else 0)
  | .cmpLtuImm d a i => some (d, a, fun x => if x.toNat < i.toNat then 1 else 0)
  | .shlImm d a i => some (d, a, fun x => BitVec.ofNat 64 (x.toNat * 2 ^ i.toNat))
  | .shrImm d a i => some (d, a, fun x => BitVec.ofNat 64 (x.toNat / 2 ^ i.toNat))
  | .sarImm d a i => some (d, a, fun x => BitVec.ofInt 64 (x.toInt / 2 ^ i.toNat))
  | _ => none

/-- The opcodes of R122. -/
def immOps (d a : Reg) (i : BitVec 15) : List (Nat × Instr) :=
  [(1, .addImm d a i), (2, .andImm d a i), (3, .orImm d a i), (4, .xorImm d a i), (5, .cmpLtImm d a i), (6, .cmpLtuImm d a i),
    (7, .shlImm d a i), (8, .shrImm d a i), (9, .sarImm d a i)]

/-- The opcodes of R124. -/
def branchOps (a b : Reg) (o : BitVec 15) : List (Nat × Instr) :=
  [(0x10, .brEq a b o), (0x11, .brNe a b o), (0x12, .brLt a b o), (0x13, .brGe a b o), (0x14, .brLtu a b o), (0x15, .brGeu a b o)]

/-- The divisions of R121: destination, operands, and the result. -/
def divRow : Instr → Option (Reg × Reg × Reg × (W64 → W64 → W64))
  | .div d a b => some (d, a, b, fun x y =>
      if y = 0 then 0 else if x.toInt = -2 ^ 63 ∧ y.toInt = -1 then BitVec.ofNat 64 0x7FFFFFFFFFFFFFFF
      else BitVec.ofInt 64 (x.toInt.tdiv y.toInt))
  | .rem d a b => some (d, a, b, fun x y =>
      if y = 0 then x else if x.toInt = -2 ^ 63 ∧ y.toInt = -1 then 0 else BitVec.ofInt 64 (x.toInt.tmod y.toInt))
  | .divU d a b => some (d, a, b, fun x y => if y = 0 then 0 else BitVec.ofNat 64 (x.toNat / y.toNat))
  | .remU d a b => some (d, a, b, fun x y => if y = 0 then x else BitVec.ofNat 64 (x.toNat % y.toNat))
  | _ => none

/-- The branches of R124: operands, offset, and when they are taken. -/
def branchRow : Instr → Option (Reg × Reg × BitVec 15 × (W64 → W64 → Bool))
  | .brEq a b o => some (a, b, o, fun x y => decide (x = y))
  | .brNe a b o => some (a, b, o, fun x y => decide (x ≠ y))
  | .brLt a b o => some (a, b, o, fun x y => decide (x.toInt < y.toInt))
  | .brGe a b o => some (a, b, o, fun x y => decide (y.toInt ≤ x.toInt))
  | .brLtu a b o => some (a, b, o, fun x y => decide (x.toNat < y.toNat))
  | .brGeu a b o => some (a, b, o, fun x y => decide (y.toNat ≤ x.toNat))
  | _ => none

/-- A transfer's target that R89 allows: a multiple of 4, 48 bits wide, in the sequencer section. -/
def allowedIn (x : Context) (t : Int) : Prop :=
  t % 4 = 0 ∧ 0 ≤ t ∧ t < 2 ^ 48 ∧ ∃ j, x.job = some j ∧ (j.k.sq.base : Int) ≤ t ∧ t < j.k.sq.base + j.k.sq.len
/-- The same for the context in focus. -/
def allowed (s : State) (t : Int) : Prop := allowedIn (cur s) t

/-- The context in focus goes on at `t`, with the link register written. -/
def jumped (s : State) (d : Reg) (t : Int) : State :=
  s.setCtx s.focus { (cur s).setReg d (BitVec.ofNat 64 ((cur s).pc + 4).toNat) with pc := BitVec.ofInt 48 t, run := .run }

/-- A record of `code` of engine `eng` of context `c` has been added, and the engine's fault count raised. -/
def recorded (s t : State) (c : CtxId) (eng code st : Nat) (addr det0 det1 : W64) : Prop :=
  ∃ e : FaultEntry, t.faults = s.faults ++ [e] ∧ e.src = .ctx c.val ∧ e.r.eng = eng ∧ e.r.code = code ∧ e.r.state = st ∧
    e.r.addr = addr ∧ e.r.det0 = det0 ∧ e.r.det1 = det1 ∧ e.r.core = c.core ∧ e.r.ctx = c.bg ∧ e.r.time = s.now ∧
    e.clk = s.clk ∧ e.rseq = none ∧ (t.ctx c).fcnt = satInc (s.ctx c).fcnt

/-- A sequencer fault of STATE 0: the record, WHERE = pc, the context in HALT, and nothing else of it changed. -/
def haltedBy (s t : State) (code : Nat) (addr det0 det1 : W64) : Prop :=
  recorded s t s.focus 0 code 0 addr det0 det1 ∧
    (∀ e ∈ t.faults.getLast?, e.r.loc = (cur s).pc.zeroExtend 64) ∧
    t.ctx s.focus = { cur s with run := .halt, sleep := none, fcnt := satInc (cur s).fcnt } ∧ t.mem = s.mem

end Sys2Proof.Claims

open Sys2Proof Sys2Proof.Machine Sys2Proof.Claims

/-- R120: each register operation writes its result and goes on; no operand value faults. -/
def Sys2Proof.Claims.RegisterOperationResults : Prop :=
  ∀ (s : State) (i : Instr) (d a b : Reg) (f : W64 → W64 → W64), aluRow i = some (d, a, b, f) → ready s [a, b, d] →
    exec i s = .next (wrote s d (f ((cur s).reg a) ((cur s).reg b)) 4)

/-- R120: `clz` counts the leading zero bits of its operand, 0 to 64, and `popc` its one bits. -/
def Sys2Proof.Claims.BitCountResults : Prop :=
  ∀ (s : State) (d a : Reg), ready s [a, d] →
    (∃ n, leadingZeros ((cur s).reg a) n ∧ exec (.clz d a) s = .next (wrote s d (BitVec.ofNat 64 n) 4)) ∧
    exec (.popc d a) s =
      .next (wrote s d (BitVec.ofNat 64 ((List.range 64).countP fun k => ((cur s).reg a).getLsbD k)) 4)

/-- R119, R120: the register operations of the sequencer write their results and go on. -/
def Obligations.RegisterOperationsWriteResults : Prop :=
  Claims.RegisterOperationResults ∧ Claims.BitCountResults

/-- R122: each immediate operation, of its opcode in the K format, writes its result and goes on. -/
def Sys2Proof.Claims.ImmediateOperationResults : Prop :=
  (∀ (s : State) (i : Instr) (d a : Reg) (f : W64 → W64), immRow i = some (d, a, f) → i.wf = true → ready s [a, d] →
    exec i s = .next (wrote s d (f ((cur s).reg a)) 4)) ∧
  (∀ (d a : Reg) (i : BitVec 15), ∀ p ∈ immOps d a i,
    encode p.2 = some (.sq32, 2 * p.1 + 2 ^ 7 * d.toNat + 2 ^ 12 * a.toNat + 2 ^ 17 * i.toNat))

/-- R123: the constants `lup`, `li` and `lih` build, and their words. -/
def Sys2Proof.Claims.ConstantFormResults : Prop :=
  (∀ (d : Reg) (i : BitVec 20) (j : W32), encode (.lup d i) = some (.sq32, 2 * 0x0A + 2 ^ 7 * d.toNat + 2 ^ 12 * i.toNat) ∧
    encode (.li d j) = some (.sq64, 1 + 2 * 0x10 + 2 ^ 7 * d.toNat + 2 ^ 32 * j.toNat) ∧
    encode (.lih d j) = some (.sq64, 1 + 2 * 0x11 + 2 ^ 7 * d.toNat + 2 ^ 32 * j.toNat)) ∧
  ∀ (s : State) (d : Reg), ready s [d] →
    (∀ imm : BitVec 20, exec (.lup d imm) s = .next (wrote s d (BitVec.ofInt 64 (imm.toInt * 65536)) 4)) ∧
    (∀ imm : W32, exec (.li d imm) s = .next (wrote s d (BitVec.ofInt 64 imm.toInt) 8)) ∧
    (∀ imm : W32, exec (.lih d imm) s =
      .next (wrote s d (BitVec.ofNat 64 (imm.toNat * 2 ^ 32 + ((cur s).reg d).toNat % 2 ^ 32)) 8))

/-- R122, R123: the immediate operations and the constants. -/
def Obligations.ImmediatesAndConstantsWriteResults : Prop :=
  Claims.ImmediateOperationResults ∧ Claims.ConstantFormResults

/-- R119, R121: a division goes on at once with its result outstanding; a = b × quotient + remainder but for −2^63 divided by −1,
whose saturated quotient breaks it; 34 clocks later the result lands. With s0 as its destination nothing is
outstanding. -/
def Obligations.DivisionResultsLand : Prop :=
  (∀ (s : State) (i : Instr) (d a b : Reg) (f : W64 → W64 → W64), divRow i = some (d, a, b, f) → ready s [a, b, d] →
    exec i s = .next (went s (if d = 0 then cur s else
      { cur s with divs := (cur s).divs ++ [⟨d, f ((cur s).reg a) ((cur s).reg b), s.clk⟩] }) 4)) ∧
  (∀ (a b : W64) (d ra rb : Reg) (q r : W64 → W64 → W64), divRow (.div d ra rb) = some (d, ra, rb, q) →
    divRow (.rem d ra rb) = some (d, ra, rb, r) → ¬ (a.toInt = -2 ^ 63 ∧ b.toInt = -1) → a = b * q a b + r a b) ∧
  (∀ (a b : W64) (d ra rb : Reg) (q r : W64 → W64 → W64), divRow (.divU d ra rb) = some (d, ra, rb, q) →
    divRow (.remU d ra rb) = some (d, ra, rb, r) → a = b * q a b + r a b) ∧
  (∀ (s : State) (c : CtxId) (v : DivFlight) (r : List DivFlight), (s.ctx c).divs = v :: r → v.issued + 34 ≤ s.clk →
    exec (.divisionResult c) s = .next (s.setCtx c ({ s.ctx c with divs := r }.setReg v.d v.val)))

/-- R124: a branch not taken goes on; one taken goes to pc + 4 × OFF15 where R89 allows it; sa is in bits 11:7, sb in 16:12. -/
def Sys2Proof.Claims.BranchesTransfer : Prop :=
  (∀ (a b : Reg) (o : BitVec 15), ∀ p ∈ branchOps a b o,
    encode p.2 = some (.sq32, 2 * p.1 + 2 ^ 7 * a.toNat + 2 ^ 12 * b.toNat + 2 ^ 17 * o.toNat)) ∧
  ∀ (s : State) (i : Instr) (a b : Reg) (o : BitVec 15) (p : W64 → W64 → Bool), branchRow i = some (a, b, o, p) →
    ready s [a, b] →
    (p ((cur s).reg a) ((cur s).reg b) = false → exec i s = .next (went s (cur s) 4)) ∧
    (p ((cur s).reg a) ((cur s).reg b) = true → allowed s ((cur s).pc.toNat + 4 * o.toInt) →
      exec i s = .next (s.setCtx s.focus
        { cur s with pc := BitVec.ofInt 48 ((cur s).pc.toNat + 4 * o.toInt), run := .run }))

/-- R125: `jmp` and `jmpr` write the address of the next instruction and go to their target, `jmpr` by sa before the write. -/
def Sys2Proof.Claims.JumpsLinkAndTransfer : Prop :=
  (∀ (d : Reg) (o : BitVec 20), encode (.jmp d o) = some (.sq32, 2 * 0x16 + 2 ^ 7 * d.toNat + 2 ^ 12 * o.toNat)) ∧
  (∀ (d a : Reg) (i : BitVec 15), encode (.jmpr d a i) = some (.sq32, 2 * 0x17 + 2 ^ 7 * d.toNat + 2 ^ 12 * a.toNat + 2 ^ 17 * i.toNat)) ∧
  (∀ (s : State) (d : Reg) (o : BitVec 20), ready s [d] → allowed s ((cur s).pc.toNat + 4 * o.toInt) →
    exec (.jmp d o) s = .next (jumped s d ((cur s).pc.toNat + 4 * o.toInt))) ∧
  (∀ (s : State) (d a : Reg) (imm : BitVec 15) (t : W64), ready s [a, d] →
    t = (cur s).reg a + BitVec.ofInt 64 imm.toInt → allowed s t.toNat → exec (.jmpr d a imm) s = .next (jumped s d t.toNat))

/-- R126: a taken transfer whose target R89 does not allow raises the fetch fault, with ADDR the target, and has no effect. That ADDR is
the target modulo 2^48 is the model's reading (log entry 21). -/
def Sys2Proof.Claims.BadTargetsFaultWithNoEffect : Prop :=
  (∀ (s : State) (i : Instr) (a b : Reg) (o : BitVec 15) (p : W64 → W64 → Bool), branchRow i = some (a, b, o, p) →
    ready s [a, b] → p ((cur s).reg a) ((cur s).reg b) = true → ¬ allowed s ((cur s).pc.toNat + 4 * o.toInt) →
    ∃ t, exec i s = .next t ∧
      haltedBy s t 0x0202 (BitVec.ofInt 64 (((cur s).pc.toNat + 4 * o.toInt) % 2 ^ 48)) 0 0) ∧
  (∀ (s : State) (d a : Reg) (imm : BitVec 15) (v : W64), ready s [a, d] → v = (cur s).reg a + BitVec.ofInt 64 imm.toInt →
    ¬ allowed s v.toNat →
    ∃ t, exec (.jmpr d a imm) s = .next t ∧ haltedBy s t 0x0202 (BitVec.ofNat 64 (v.toNat % 2 ^ 48)) 0 0) ∧
  (∀ (s : State) (d : Reg) (o : BitVec 20), ready s [d] → ¬ allowed s ((cur s).pc.toNat + 4 * o.toInt) →
    ∃ t, exec (.jmp d o) s = .next t ∧ haltedBy s t 0x0202 (BitVec.ofInt 64 (((cur s).pc.toNat + 4 * o.toInt) % 2 ^ 48)) 0 0)

/-- R124 to R126: branches and jumps, and the fetch fault of a target that R89 does not allow, whose ADDR is the target modulo 2^48 (log entry 21). -/
def Obligations.TransfersReachAllowedTargets : Prop :=
  Claims.BranchesTransfer ∧ Claims.JumpsLinkAndTransfer ∧ Claims.BadTargetsFaultWithNoEffect

namespace Sys2Proof.Claims

/-- The bits of a control register that a program can write (R91: its RW fields). -/
def crWritable (crn : BitVec 12) : W64 :=
  match crn.toNat with
  | 0x014 => BitVec.allOnes 64
  | 0x040 => 0x0000FFFFFFFFFFFC
  | 0x041 => 0x0000FFFFFFFFFFFF
  | 0x042 => 0x000000008000FFFF
  | 0x043 => BitVec.allOnes 64
  | 0x044 => 3
  | 0x045 => 7
  | 0x047 => BitVec.allOnes 64
  | _ => 0

/-- Identifier field `f` of R92. -/
def widField (j : Job) (f : Nat) : Nat :=
  let w := j.widths.getD f 0
  let lo := j.widths.sum - (j.widths.take f).sum - w
  if w = 0 then 0 else j.wid.toNat / 2 ^ lo % 2 ^ w

/-- Slots 0 to 3 of WHLA (from wheel slot 0) or of WHLB (from 4): slot i holds Vi in bit 16i + 15 and Pi from bit 16i (R91). -/
def wheelFields (w : List Nat) (k : Nat) : List (Nat × Nat × Nat) :=
  (List.range 4).flatMap fun i =>
    if h : k + i < w.length then [(16 * i + 15, 16 * i + 15, 1), (16 * i + 8, 16 * i, w[k + i])] else []

/-- The table of R91 for context `c`: CRN, and each field's high bit, low bit and value. Every other bit is reserved and reads zero. -/
def crTable (s : State) (c : CtxId) : List (Nat × List (Nat × Nat × Nat)) :=
  let x := s.ctx c
  let job (f : Job → Nat) : Nat := match x.job with
    | some j => f j
    | none => 0
  let word (v : W64) : List (Nat × Nat × Nat) := [(63, 0, v.toNat)]
  [(0x000, [(63, 0, job (·.wid.toNat))])] ++ ((List.range 6).map fun f => (f + 1, [(63, 0, job fun j => widField j f)])) ++
  [(0x007, match x.job with
      | some j => (38, 36, j.place) :: j.widths.zipIdx.map fun w => (6 * w.2 + 5, 6 * w.2, w.1)
      | none => []),
    (0x008, [(63, 0, job (·.last.toNat))]),
    (0x009, [(16, 16, c.bg.toNat), (15, 12, c.cluster), (11, 8, c.core % 16), (7, 0, c.core)]),
    (0x00A, [(31, 0, job (·.lseq.toNat))]),
    (0x00B, [(63, 48, job (·.regmax)), (47, 32, job (·.slipb)), (0, 0, job (·.strict.toNat))]),
    (0x010, word s.now), (0x011, [(63, 0, s.clk)]), (0x012, wheelFields x.wheel 0), (0x013, wheelFields x.wheel 4),
    (0x014, word x.tcmp), (0x020, word x.slipc), (0x021, [(47, 32, x.slipBlk.toNat), (31, 0, x.slipCnt.toNat)]),
    (0x022, [(31, 16, x.rcnt.toNat), (15, 0, x.fcnt.toNat)]), (0x023, [(14, 0, x.flg.toNat)])] ++
  [(0x024, [(25, 21, x.fb.length), (20, 15, x.cpq.length), (14, 9, x.fq.length), (8, 4, x.mxq.length), (3, 0, x.exq.length)]),
    (0x030, [(63, 32, x.ccyc.toNat), (1, 1, x.pend.toNat), (0, 0, x.cmt.toNat)]), (0x031, [(47, 0, x.raddr.toNat)]),
    (0x040, [(47, 2, x.tvec.toNat / 4)]), (0x041, [(47, 0, x.tepc.toNat)]),
    (0x042, [(31, 31, x.intr.toNat), (15, 0, x.cause.toNat)]), (0x043, word x.tval), (0x044, [(1, 1, x.pie.toNat), (0, 0, x.inh.toNat)]),
    (0x045, [(2, 0, x.ie.toNat)]),
    (0x046, [(1, 1, if x.fb = [] then 0 else 1), (0, 0, if x.tcmp.toNat ≤ s.now.toNat then 1 else 0)]), (0x047, word x.tscr)]

/-- The number whose fields have these values. -/
def fieldSum (l : List (Nat × Nat × Nat)) : Nat := (l.map fun f => f.2.2 * 2 ^ f.2.1).sum

/-- Bit `k` is reserved in control register `crn`: it lies in no field of R91's table (R3, R5). -/
def crSpare (crn : BitVec 12) (k : Nat) : Prop :=
  match crn.toNat with
  | 0x007 => 39 ≤ k
  | 0x009 => 17 ≤ k
  | 0x00A => 32 ≤ k
  | 0x00B => 1 ≤ k ∧ k ≤ 31
  | 0x012 => 9 ≤ k % 16 ∧ k % 16 ≤ 14
  | 0x013 => 9 ≤ k % 16 ∧ k % 16 ≤ 14
  | 0x021 => 48 ≤ k
  | 0x022 => 32 ≤ k
  | 0x023 => 15 ≤ k
  | 0x024 => 26 ≤ k
  | 0x030 => 2 ≤ k ∧ k ≤ 31
  | 0x031 => 48 ≤ k
  | 0x040 => 48 ≤ k ∨ k ≤ 1
  | 0x041 => 48 ≤ k
  | 0x042 => 32 ≤ k ∨ (16 ≤ k ∧ k ≤ 30)
  | 0x044 => 2 ≤ k
  | 0x045 => 3 ≤ k
  | 0x046 => 2 ≤ k
  | _ => False

/-- The control registers of R91. -/
abbrev crListed (crn : BitVec 12) : Prop :=
  crn.toNat ≤ 0x00B ∨ (0x010 ≤ crn.toNat ∧ crn.toNat ≤ 0x014) ∨ (0x020 ≤ crn.toNat ∧ crn.toNat ≤ 0x024) ∨
    crn.toNat = 0x030 ∨ crn.toNat = 0x031 ∨ (0x040 ≤ crn.toNat ∧ crn.toNat ≤ 0x047)

/-- Control register `crn` of the context in focus reads `v` in `t`, and every other reads as in `s`; IP follows TCMP (R100). The
general registers are those of `s` but for `d`, and memory is unchanged. -/
def crBecomes (s t : State) (crn : BitVec 12) (v : W64) (d : Option Reg) : Prop :=
  t.crRead s.focus crn = some v ∧
    (∀ k, k ≠ crn → ¬ (crn = 0x014 ∧ k = 0x046) → t.crRead s.focus k = s.crRead s.focus k) ∧
    (∀ r, some r ≠ d → (t.ctx s.focus).reg r = (cur s).reg r) ∧ t.mem = s.mem ∧
    (t.ctx s.focus).pc = (cur s).pc + 4 ∧ (t.ctx s.focus).run = .run

/-- A trap of context `c` has been entered (R100). -/
def trapped (s : State) (c : CtxId) (intr : Bool) (cause : BitVec 16) (val : W64) (epc : Addr) : State :=
  s.setCtx c { s.ctx c with
    tepc := epc, intr := intr, cause := cause, tval := val, pie := (s.ctx c).ie.getLsbD 0, inh := true,
    ie := (s.ctx c).ie &&& 6#3, pc := (s.ctx c).tvec, run := .run, sleep := none }

/-- A held write is the sequencer's. -/
def isStore : HeldBy → Bool
  | .sq _ _ => true
  | .mx | .cp _ => false
/-- No pool store of a context's sequencer waits for a plane write (R213). -/
abbrev storesIn (x : Context) : Prop := ∀ h ∈ x.ex.held, isStore h.src = false

/-- Every earlier access of the context in focus has performed: no host-window read is outstanding and no pool store waits. -/
abbrev quiet (s : State) : Prop := (∀ l ∈ (cur s).loads, l.host = false) ∧ storesIn (cur s)

/-- The sleeping wait of a context does not end in this clock: its word is not read, or does not satisfy it, and its deadline is not
reached (R83, R134). -/
def staysAsleep (s : State) (x : Context) : Prop :=
  ∃ w, x.sleep = some w ∧ w.got = none ∧ s.clk < w.deadline ∧ (w.host = true → w.pending.isSome = true ∨ s.clk < w.lastRead + 600) ∧
    (w.host = false →
      ¬ (if w.eq then memNat s.mem w.addr w.bytes = w.sv.toNat % 2 ^ (8 * w.bytes)
         else w.sv.toNat % 2 ^ (8 * w.bytes) ≤ memNat s.mem w.addr w.bytes))

/-- A committed region of the context has not reached its length (R97). -/
abbrev regionShort (x : Context) : Prop := ∀ j, x.job = some j → x.cmt = true → x.ccyc.toNat < 64 * j.regmax

/-- The execute, matrix and copy engines of the context in focus have nothing left (R81, R95). -/
abbrev enginesIdle (x : Context) (ex mx cp : Bool) : Prop :=
  (ex = true → x.exq = [] ∧ x.ex.block = none ∧ x.ex.pipe = []) ∧ (mx = true → x.mxq = [] ∧ x.mx.runs = [] ∧ ∀ h ∈ x.ex.held, h.src ≠ .mx) ∧
    (cp = true → x.cpq = [] ∧ x.cp.binds = [])

end Sys2Proof.Claims

/-- R90, R91: reading a listed control register, and one that R91 does not list. -/
def Sys2Proof.Claims.ControlRegisterReads : Prop :=
  (∀ (s : State) (c : CtxId) (crn : BitVec 12), (s.crRead c crn).isSome = true ↔ crListed crn) ∧
  (∀ (s : State) (d : Reg) (crn : BitVec 12) (v : W64), ready s [d] → s.crRead s.focus crn = some v →
    exec (.crr d crn) s = .next (wrote s d v 4)) ∧
  (∀ (s : State) (d a : Reg) (crn : BitVec 12) (i : Instr), i = .crr d crn ∨ i = .crw crn a ∨ i = .crs d crn a ∨ i = .crc d crn a →
    ready s [a, d] → ¬ crListed crn → ∃ t, exec i s = .next t ∧ haltedBy s t 0x0201 0 (s.insnWord (cur s)) 0)

/-- R90: `crw` sets the RW fields to sa and clears the W1C flags where sa has a 1; `crs` and `crc` return the old value and set or
clear RW fields; nothing else changes. -/
def Sys2Proof.Claims.ControlRegisterWrites : Prop :=
  ∀ (s : State) (d a : Reg) (crn : BitVec 12) (v : W64), ready s [a, d] → s.crRead s.focus crn = some v →
    (∃ t, exec (.crw crn a) s = .next t ∧ crBecomes s t crn
      (if crn = 0x023 then v &&& ~~~((cur s).reg a)
       else (v &&& ~~~(crWritable crn)) ||| ((cur s).reg a &&& crWritable crn)) none) ∧
    (∃ t, exec (.crs d crn a) s = .next t ∧ crBecomes s t crn (v ||| ((cur s).reg a &&& crWritable crn)) (some d) ∧
      (d ≠ 0 → (t.ctx s.focus).reg d = v)) ∧
    (∃ t, exec (.crc d crn a) s = .next t ∧ crBecomes s t crn (v &&& ~~~((cur s).reg a &&& crWritable crn)) (some d) ∧
      (d ≠ 0 → (t.ctx s.focus).reg d = v))

/-- R91, R92: what each control register reads as, field by field. -/
def Sys2Proof.Claims.ControlRegisterFields : Prop :=
  ∀ (s : State) (c : CtxId) (crn : BitVec 12) (fs : List (Nat × Nat × Nat)),
    (crn.toNat, fs) ∈ crTable s c → s.crRead c crn = some (BitVec.ofNat 64 (fieldSum fs))

/-- R5, R127: a write of a control register with a nonzero reserved bit is counted once in RSVW, up to its maximum; one without is not,
nor does `crc`, which writes zero wherever sa has a 1. -/
def Sys2Proof.Claims.ReservedWritesCount : Prop :=
  ∀ (s : State) (d a : Reg) (crn : BitVec 12), ready s [a, d] → crListed crn →
    (∀ i, i = .crw crn a ∨ i = .crs d crn a →
      ((∃ k, k < 64 ∧ ((cur s).reg a).getLsbD k = true ∧ crSpare crn k) → ∃ t, exec i s = .next t ∧ t.rsvw = satInc s.rsvw) ∧
      (¬ (∃ k, k < 64 ∧ ((cur s).reg a).getLsbD k = true ∧ crSpare crn k) → ∃ t, exec i s = .next t ∧ t.rsvw = s.rsvw)) ∧
    (∃ t, exec (.crc d crn a) s = .next t ∧ t.rsvw = s.rsvw) ∧ ∃ t, exec (.crr d crn) s = .next t ∧ t.rsvw = s.rsvw

/-- R5, R90 to R92, R127: what control registers read as, field by field, and what writing them does. -/
def Obligations.ControlRegistersReadAndWrite : Prop :=
  Claims.ControlRegisterReads ∧ Claims.ControlRegisterWrites ∧ Claims.ControlRegisterFields ∧ Claims.ReservedWritesCount

/-- R76, R77, R81, R135: a fence goes on once what it waits for has performed, and until then the context is in STALL with nothing else
changed: a `fence.c` the accesses of its classes, a `fence.x` the paths it names and every sequencer access before it. A sequencer
access that has not performed is an outstanding host-window read (log entry 4) or a pool store that a plane write bars (R213). -/
def Sys2Proof.Claims.FencesWait : Prop :=
  ∀ (s : State) (scope : Scope),
    (∀ mask : BitVec 16,
      ((∀ l ∈ (cur s).loads, l.host = true → l.mask &&& mask = 0) →
        (∀ h ∈ (cur s).ex.held, ∀ m n, h.src = .sq m n → m &&& mask = 0) →
        exec (.fenceC scope mask) s = .next (went s (cur s) 4)) ∧
      ((∃ l ∈ (cur s).loads, l.host = true ∧ l.mask &&& mask ≠ 0) ∨
          (∃ h ∈ (cur s).ex.held, ∃ m n, h.src = .sq m n ∧ m &&& mask ≠ 0) →
        exec (.fenceC scope mask) s = .next (s.setCtx s.focus { cur s with run := .stall }))) ∧
    (∀ paths : BitVec 8,
      (quiet s ∧ enginesIdle (cur s) (paths.getLsbD 1) (paths.getLsbD 2) (paths.getLsbD 3) →
        exec (.fenceX scope paths) s = .next (went s (cur s) 4)) ∧
      (¬ (quiet s ∧ enginesIdle (cur s) (paths.getLsbD 1) (paths.getLsbD 2) (paths.getLsbD 3)) →
        exec (.fenceX scope paths) s = .next (s.setCtx s.focus { cur s with run := .stall })))

/-- R94, R95, R119: a mark shadows what the rule lists, sets RADDR to pc + 4 and clears CMT and CCYC once the engines and accesses are
done and no register's result is outstanding; until the engines are idle and the stores have performed it is in STALL; while only results
are outstanding R119's interlock holds it and the sequencer is in RUN; with PEND = 1 the work item is then discarded (R98); in a trap
handler, or with a feedback entry queued, it is a region fault. -/
def Sys2Proof.Claims.RegionMarkShadows : Prop :=
  (∀ s : State, (cur s).inh = false → (cur s).fb = [] → (cur s).loads = [] → (cur s).divs = [] → (cur s).fq = [] →
    enginesIdle (cur s) true true true → storesIn (cur s) → ∃ t, exec .region s = .next t ∧ t.mem = s.mem ∧
    ((cur s).pend = true → (cur t).run = .idle ∧ (cur t).raddr = (cur s).pc + 4 ∧ (cur t).cmt = false) ∧
    ((cur s).pend = false →
      (cur t).raddr = (cur s).pc + 4 ∧ (cur t).pc = (cur s).pc + 4 ∧ (cur t).cmt = false ∧ (cur t).ccyc = 0 ∧
      (cur t).run = .run ∧ (cur t).x = (cur s).x ∧
      (cur t).shadow = ⟨(cur s).x, (cur s).tvec, (cur s).ie, (cur s).tcmp, (cur s).tscr, (cur s).mb, (cur s).sem, (cur s).ex.q,
        (cur s).banks.map (·.sel)⟩)) ∧
  (∀ s : State, (cur s).inh = false → (cur s).fb = [] →
    ¬ ((cur s).fq = [] ∧ enginesIdle (cur s) true true true ∧ storesIn (cur s)) →
    exec .region s = .next (s.setCtx s.focus { cur s with run := .stall })) ∧
  (∀ s : State, (cur s).inh = false → (cur s).fb = [] → (cur s).fq = [] → enginesIdle (cur s) true true true → storesIn (cur s) →
    ¬ ((cur s).loads = [] ∧ (cur s).divs = []) → exec .region s = .next (s.setCtx s.focus { cur s with run := .run })) ∧
  (∀ s : State, (cur s).inh = true ∨ (cur s).fb ≠ [] →
    ∃ t, exec .region s = .next t ∧
      haltedBy s t 0x0207 0 (BitVec.ofNat 64 (cur s).fb.length) (if (cur s).inh then 1 else 0))

/-- R35, R149: `done` enters DONE and discards the feedback entries; once everything has drained and every record of its engines is written, CONTEXT_ENDED ends the work item,
frees its wheel positions and the context. -/
def Sys2Proof.Claims.DoneDrainsAndEnds : Prop :=
  (∀ s : State, exec .done s = .next (s.setCtx s.focus { cur s with
    run := .done, fb := [], note := { (cur s).noteAt s.clk with done := true } })) ∧
  (∀ (s : State) (c : CtxId), (s.ctx c).run = .done → (s.ctx c).failed = false → (∀ l ∈ (s.ctx c).loads, l.host = false) →
    enginesIdle (s.ctx c) true true true → (s.ctx c).alq = [] → (s.ctx c).ex.held = [] → (s.ctx c).mx.late = [] →
    (∀ e ∈ s.faults, e.src = .ctx c.val → e.rseq.isSome = true) →
    ∃ t, exec (.contextEnded c) s = .next t ∧ (t.ctx c).run = .ended ∧ (t.ctx c).job = none ∧ (t.ctx c).wheel = [] ∧
      (t.ctx c).fq = [] ∧ (t.ctx c).fb = [] ∧ t.mem = s.mem ∧
      (∀ j ∈ (s.ctx c).job, ∀ l ∈ t.launches, l.q = j.q → l.lseq = j.lseq →
        ∃ i ∈ l.items, i.wid = j.wid ∧ i.st = .ended ∧ i.ctx = c.val))

/-- R95 to R97, R149: the region mark and the end of a work item. -/
def Obligations.RegionsMarkAndEnd : Prop :=
  Claims.RegionMarkShadows ∧ Claims.DoneDrainsAndEnds

/-- R100 to R102, R134: `trap` and the two interrupts enter the handler at TVEC, saving TEPC, TCAUSE, TVAL and GIE and setting INH; an
interrupt also at a sleeping wait that does not end in this clock, unless the region is over (R97) or a request of this clock
discards the work item (R99). -/
def Sys2Proof.Claims.TrapAndInterruptEntry : Prop :=
  (∀ (s : State) (imm : BitVec 16), (cur s).tvec ≠ 0 → (cur s).inh = false → allowed s (cur s).tvec.toNat →
    exec (.trap imm) s = .next (trapped s s.focus false 1 (BitVec.ofNat 64 imm.toNat) ((cur s).pc + 4))) ∧
  (∀ (s : State) (c : CtxId), ((s.ctx c).run = .run ∨ ((s.ctx c).run = .sleep ∧ staysAsleep s (s.ctx c))) →
    (s.ctx c).ie.getLsbD 0 = true → (s.ctx c).inh = false → regionShort (s.ctx c) → ((s.ctx c).preq = none ∨ (s.ctx c).cmt = true) →
    (s.ctx c).tvec ≠ 0 → allowedIn (s.ctx c) (s.ctx c).tvec.toNat →
    ((s.ctx c).ie.getLsbD 1 = true → (s.ctx c).tcmp.toNat ≤ s.now.toNat →
      exec (.timerInterrupt c) s = .next (trapped s c true 2 s.now (s.ctx c).pc)) ∧
    ((s.ctx c).ie.getLsbD 2 = true → (s.ctx c).fb ≠ [] →
      ¬ ((s.ctx c).ie.getLsbD 1 = true ∧ (s.ctx c).tcmp.toNat ≤ s.now.toNat) →
      exec (.feedbackInterrupt c) s = .next (trapped s c true 3 (BitVec.ofNat 64 (s.ctx c).fb.length) (s.ctx c).pc)))

/-- R100, R126: the entries of `trap` that fault: without a handler, in a handler, and to a target R89 does not allow. -/
def Sys2Proof.Claims.TrapEntryFaults : Prop :=
  ∀ (s : State) (imm : BitVec 16), ∃ t, exec (.trap imm) s = .next t ∧
    ((cur s).tvec = 0 → haltedBy s t 0x0204 0 1 (BitVec.ofNat 64 imm.toNat)) ∧
    ((cur s).tvec ≠ 0 → (cur s).inh = true → haltedBy s t 0x0203 0
      (BitVec.ofNat 64 ((cur s).cause.toNat + (cur s).intr.toNat * 2 ^ 31)) (BitVec.ofNat 64 (cur s).tepc.toNat)) ∧
    ((cur s).tvec ≠ 0 → (cur s).inh = false → ¬ allowed s (cur s).tvec.toNat →
      haltedBy s t 0x0202 (BitVec.ofNat 64 (cur s).tvec.toNat) 0 0)

/-- R101: `tret` restores GIE from PIE, clears INH and goes to TEPC; outside a handler it is an illegal instruction. -/
def Sys2Proof.Claims.TrapReturn : Prop :=
  (∀ s : State, (cur s).inh = true → allowed s (cur s).tepc.toNat →
    exec .tret s = .next (s.setCtx s.focus { cur s with
      pc := (cur s).tepc, ie := ((cur s).ie &&& 6#3) ||| (if (cur s).pie then 1#3 else 0#3), inh := false, run := .run })) ∧
  (∀ s : State, (cur s).inh = false →
    ∃ t, exec .tret s = .next t ∧ haltedBy s t 0x0201 0 (s.insnWord (cur s)) 0) ∧
  (∀ s : State, (cur s).inh = true → ¬ allowed s (cur s).tepc.toNat →
    ∃ t, exec .tret s = .next t ∧ haltedBy s t 0x0202 (BitVec.ofNat 64 (cur s).tepc.toNat) 0 0)

/-- R100 to R103: the entry to a trap or an interrupt, its faults, and the return. -/
def Obligations.TrapsEnterFaultAndReturn : Prop :=
  Claims.TrapAndInterruptEntry ∧ Claims.TrapEntryFaults ∧ Claims.TrapReturn

namespace Sys2Proof.Claims

/-- A range of `n` bytes that a sequencer access may use: mapped device memory, aligned, with the rights asked for (R128). -/
abbrev deviceRange (s : State) (ea n : Nat) (rd wr : Bool) : Prop :=
  ea < 2 ^ 48 ∧ rangeInDevice ea n = true ∧ ea % n = 0 ∧ leaseFault (cur s).leases rd wr ea n = none ∧
    (wr = true → roFault s.ro ea n = none ∧ ∀ i < n, s.inSlot (ea + i) = false)
/-- What a `.sc` form needs besides: a wheel position of this clock that the context owns (R85). -/
abbrev wheelTurn (s : State) : Prop := s.clk % 512 ∈ (cur s).wheel

/-- The effective address of a base register and a constant: (sb + sext(OFF))[63:0]. -/
def effAddr {n : Nat} (s : State) (b : Reg) (off : BitVec n) : Nat := ((cur s).reg b + BitVec.ofInt 64 off.toInt).toNat

/-- The loads from device memory: destination, type, address, and whether the form is `.sc`. -/
def loadRow (s : State) : Instr → Option (Reg × AccTy × Nat × Bool × List Reg)
  | .ld f => some (f.r, f.ty, effAddr s f.b f.off, false, [f.b, f.r])
  | .ldAcq f => some (f.r, f.ty, effAddr s f.b f.off, false, [f.b, f.r])
  | .ldSc f => some (f.r, f.ty, effAddr s f.b f.off, true, [f.b, f.r])
  | _ => none

/-- The stores to device memory: data register, type, address, whether the form is `.sc`, and whether it commits (R96). -/
def storeRow (s : State) : Instr → Option (Reg × AccTy × Nat × Bool × Bool × List Reg)
  | .st f => some (f.r, f.ty, effAddr s f.b f.off, false, false, [f.b, f.r])
  | .stRel f => some (f.r, f.ty, effAddr s f.b f.off, false, f.scope == .dev || f.scope == .sys, [f.b, f.r])
  | .stSc f => some (f.r, f.ty, effAddr s f.b f.off, true, true, [f.b, f.r])
  | _ => none

/-- An atomic's operation on w-bit values: the value it writes, none where it writes nothing (R131). -/
def atmNew (op : AtmOp) (w old v n : Nat) : Option Nat :=
  let sg (x : Nat) : Int := (BitVec.ofNat w x).toInt
  match op with
  | .add => some ((old + v) % 2 ^ w)
  | .and => some (Nat.land old v)
  | .or => some (Nat.lor old v)
  | .xor => some (Nat.xor old v)
  | .min => some (if sg old ≤ sg v then old else v)
  | .max => some (if sg v ≤ sg old then old else v)
  | .minU => some (if old ≤ v then old else v)
  | .maxU => some (if v ≤ old then old else v)
  | .swap => some v
  | .cas => if old = v then some n else none

/-- The atomics: operation, type, address, operand registers v and n, destination, and whether the form is `.sc`. -/
def atmRow (s : State) : Instr → Option (AtmOp × AccTy × Nat × Reg × Reg × Reg × Bool × Reg)
  | .atmAdd f => some (.add, f.ty, effAddr s f.b f.off, f.v, 0, f.d, false, f.b)
  | .atmAnd f => some (.and, f.ty, effAddr s f.b f.off, f.v, 0, f.d, false, f.b)
  | .atmOr f => some (.or, f.ty, effAddr s f.b f.off, f.v, 0, f.d, false, f.b)
  | .atmXor f => some (.xor, f.ty, effAddr s f.b f.off, f.v, 0, f.d, false, f.b)
  | .atmMin f => some (.min, f.ty, effAddr s f.b f.off, f.v, 0, f.d, false, f.b)
  | .atmMax f => some (.max, f.ty, effAddr s f.b f.off, f.v, 0, f.d, false, f.b)
  | .atmMinU f => some (.minU, f.ty, effAddr s f.b f.off, f.v, 0, f.d, false, f.b)
  | .atmMaxU f => some (.maxU, f.ty, effAddr s f.b f.off, f.v, 0, f.d, false, f.b)
  | .atmSwap f => some (.swap, f.ty, effAddr s f.b f.off, f.v, 0, f.d, false, f.b)
  | .atmCas f n => some (.cas, f.ty, effAddr s f.b f.off, f.v, n, f.d, false, f.b)
  | .atmAddSc f => some (.add, f.ty, effAddr s f.b f.off, f.v, 0, f.d, true, f.b)
  | .atmAndSc f => some (.and, f.ty, effAddr s f.b f.off, f.v, 0, f.d, true, f.b)
  | .atmOrSc f => some (.or, f.ty, effAddr s f.b f.off, f.v, 0, f.d, true, f.b)
  | .atmXorSc f => some (.xor, f.ty, effAddr s f.b f.off, f.v, 0, f.d, true, f.b)
  | .atmMinSc f => some (.min, f.ty, effAddr s f.b f.off, f.v, 0, f.d, true, f.b)
  | .atmMaxSc f => some (.max, f.ty, effAddr s f.b f.off, f.v, 0, f.d, true, f.b)
  | .atmMinUSc f => some (.minU, f.ty, effAddr s f.b f.off, f.v, 0, f.d, true, f.b)
  | .atmMaxUSc f => some (.maxU, f.ty, effAddr s f.b f.off, f.v, 0, f.d, true, f.b)
  | .atmSwapSc f => some (.swap, f.ty, effAddr s f.b f.off, f.v, 0, f.d, true, f.b)
  | .atmCasSc f n => some (.cas, f.ty, effAddr s f.b f.off, f.v, n, f.d, true, f.b)
  | _ => none

/-- The value of `n` bytes read as a type: sign-extended for `.iN`, zero-extended for `.nN` (R128). -/
def extended : AccTy → Nat → W64
  | .i8, v => BitVec.ofInt 64 (BitVec.ofNat 8 v).toInt
  | .i16, v => BitVec.ofInt 64 (BitVec.ofNat 16 v).toInt
  | .i32, v => BitVec.ofInt 64 (BitVec.ofNat 32 v).toInt
  | .i64, v => BitVec.ofNat 64 v
  | .n8, v => BitVec.ofNat 64 v
  | .n16, v => BitVec.ofNat 64 v
  | .n32, v => BitVec.ofNat 64 v
  | .n64, v => BitVec.ofNat 64 v

/-- The instruction of the context in focus has gone on with `v` outstanding for register `d`; with s0 nothing is outstanding. All
else of the context is as before but for CMT. -/
def loading (s t : State) (d : Reg) (v : W64) (len : Nat) (cmt : Bool) : Prop :=
  ∃ l : OutLoad, l.d = d ∧ l.val = v ∧ l.host = false ∧ l.num = (cur s).loadNum ∧
    t.ctx s.focus =
      if d = 0 then { cur s with pc := (cur s).pc + BitVec.ofNat 48 len, run := .run, cmt := cmt }
      else { cur s with
        pc := (cur s).pc + BitVec.ofNat 48 len, run := .run, cmt := cmt, loads := (cur s).loads ++ [l],
        loadNum := (cur s).loadNum + 1 }

/-- A pool byte of a context as it stood before any write of clock `clk` (R66): the value kept of it if one wrote it in this clock. -/
def poolBefore (x : Context) (clk a : Nat) : Byte :=
  if x.note.clk = clk then ((x.note.prior.find? fun p => p.1 == a).map Prod.snd).getD (memGet x.pool a) else memGet x.pool a

/-- Device memory holds `bs` from `ea` and is elsewhere as before. -/
def stored (s t : State) (ea : Nat) (bs : List Byte) : Prop :=
  memRead t.mem ea bs.length = bs ∧ ∀ a, (a < ea ∨ ea + bs.length ≤ a) → memGet t.mem a = memGet s.mem a

/-- The types an instruction's TYPE field may hold (R108, R131). -/
abbrev atmType (ty : AccTy) : Prop := ty = .i32 ∨ ty = .i64 ∨ ty = .n32

end Sys2Proof.Claims

/-- R128 to R130: a load from mapped, aligned, leased device memory goes on with its extended value outstanding, and changes no
byte of memory. -/
def Sys2Proof.Claims.DeviceLoadsFetchValues : Prop :=
  ∀ (s : State) (i : Instr) (d : Reg) (ty : AccTy) (ea : Nat) (sc : Bool) (rs : List Reg),
    loadRow s i = some (d, ty, ea, sc, rs) → ready s rs → quiet s → deviceRange s ea (accBytes ty) true false →
    (sc = true → wheelTurn s) →
    ∃ t, exec i s = .next t ∧
      loading s t d (extended ty (memNat s.mem ea (accBytes ty))) 8 (cur s).cmt ∧
      t = { s with ctxs := t.ctxs } ∧ ∀ c, c ≠ s.focus → t.ctx c = s.ctx c

/-- R119: LOAD_VALUE_RETURN puts an outstanding value into its register and ends the interlock on it. -/
def Sys2Proof.Claims.LoadValuesLand : Prop :=
  ∀ (s : State) (c : CtxId) (l : OutLoad) (n : Nat), l ∈ (s.ctx c).loads → l.num = n → l.host = false →
    (∀ m ∈ (s.ctx c).loads, m.num = n → m = l) →
    ∃ t, exec (.loadValueReturn c n) s = .next t ∧ (l.d ≠ 0 → (t.ctx c).reg l.d = l.val) ∧
      (∀ r, r ≠ l.d → (t.ctx c).reg r = (s.ctx c).reg r) ∧ (∀ m, m ∈ (t.ctx c).loads ↔ m ∈ (s.ctx c).loads ∧ m ≠ l) ∧
      t.mem = s.mem ∧ ∀ b, b ≠ c → t.ctx b = s.ctx b

/-- R66, R128: `ldp` reads pool bytes of the three regions as they stood before any write of the clock. -/
def Sys2Proof.Claims.PoolLoadReadsBytes : Prop :=
  ∀ (s : State) (f : MemForm) (ea n : Nat) (j : Job), ready s [f.b, f.r] → quiet s → ea = effAddr s f.b f.off → n = accBytes f.ty →
    (cur s).job = some j → ea + n ≤ 4096 * j.cv3 → j.cv3 ≤ 256 → ea % n = 0 →
    (∀ i < n, (cur s).inBuffer (ea + i) = false) →
    ∃ t, exec (.ldp f) s = .next t ∧ loading s t f.r (extended f.ty (leNat ((List.range n).map fun i => poolBefore (cur s) s.clk (ea + i)))) 8 (cur s).cmt ∧
      t = { s with ctxs := t.ctxs }

/-- R128 to R130, R96: a store to mapped, aligned, leased, writable device memory writes the low bytes of its register and no other
byte; `st.rel` at .dev and .sys and `st.sc` commit the region. -/
def Sys2Proof.Claims.DeviceStoresWriteBytes : Prop :=
  ∀ (s : State) (i : Instr) (r : Reg) (ty : AccTy) (ea : Nat) (sc cm : Bool) (rs : List Reg),
    storeRow s i = some (r, ty, ea, sc, cm, rs) → ready s rs → quiet s → deviceRange s ea (accBytes ty) false true →
    (sc = true → wheelTurn s) →
    ∃ t, exec i s = .next t ∧ stored s t ea (leBytes (accBytes ty) ((cur s).reg r).toNat) ∧
      t.ctx s.focus = { cur s with pc := (cur s).pc + 8, run := .run, cmt := (cur s).cmt || cm } ∧
      (∀ c, c ≠ s.focus → t.ctx c = s.ctx c) ∧ t = { s with ctxs := t.ctxs, mem := t.mem }

/-- R128: `stp` writes the low bytes of its register to the pool and no other pool byte, where no other port has a claim on them
(R66, R157, R213). -/
def Sys2Proof.Claims.PoolStoreWritesBytes : Prop :=
  ∀ (s : State) (f : MemForm) (ea n : Nat) (j : Job), ready s [f.b, f.r] → quiet s → ea = effAddr s f.b f.off → n = accBytes f.ty →
    (cur s).job = some j → ea + n ≤ 4096 * j.cv3 → j.cv3 ≤ 256 → ea % n = 0 →
    (∀ i < n, (cur s).inBuffer (ea + i) = false ∧ (cur s).heldByte (ea + i) = false ∧ ¬ ea + i ∈ ((cur s).noteAt s.clk).exw ∧
      ¬ ea + i ∈ ((cur s).noteAt s.clk).landed ∧ ∀ h ∈ (cur s).ex.held, h.addr ≠ ea + i) →
    ∃ t, exec (.stp f) s = .next t ∧ memRead (cur t).pool ea n = leBytes n ((cur s).reg f.r).toNat ∧
      (∀ a, (a < ea ∨ ea + n ≤ a) → memGet (cur t).pool a = memGet (cur s).pool a) ∧ (cur t).x = (cur s).x ∧
      (cur t).pc = (cur s).pc + 8 ∧ (cur t).run = .run ∧ t.mem = s.mem ∧ ∀ c, c ≠ s.focus → t.ctx c = s.ctx c

/-- R131, R132, R96: an atomic reads and writes its word as one, leaves the old value, extended, outstanding for sd, writes no other
byte, and commits the region. -/
def Obligations.AtomicsUpdateAndReturnOld : Prop :=
  ∀ (s : State) (i : Instr) (op : AtmOp) (ty : AccTy) (ea : Nat) (v n d : Reg) (sc : Bool) (b : Reg),
    atmRow s i = some (op, ty, ea, v, n, d, sc, b) → atmType ty → ready s [b, v, n, d] → quiet s →
    deviceRange s ea (accBytes ty) true true → (sc = true → wheelTurn s) →
    ∃ t, exec i s = .next t ∧
      loading s t d (extended ty (memNat s.mem ea (accBytes ty))) 8 true ∧
      stored s t ea (leBytes (accBytes ty)
        ((atmNew op (8 * accBytes ty) (memNat s.mem ea (accBytes ty)) (((cur s).reg v).toNat % 2 ^ (8 * accBytes ty))
          (((cur s).reg n).toNat % 2 ^ (8 * accBytes ty))).getD (memNat s.mem ea (accBytes ty)))) ∧
      (∀ c, c ≠ s.focus → t.ctx c = s.ctx c) ∧ t = { s with ctxs := t.ctxs, mem := t.mem }

/-- R59, R128, R151: the faults of a plain access in their order: address (of the first byte outside the region that the access begins
in), access path (the peer windows), alignment, lease, write-protect; no byte is accessed. SCOPE 0 in DETAIL0 is the model's choice (log
entry 79). -/
def Sys2Proof.Claims.PlainAccessFaults : Prop :=
  ∀ (s : State) (f : MemForm) (wr : Bool) (ea n : Nat), ready s [f.b, f.r] → ea = effAddr s f.b f.off → n = accBytes f.ty →
    ∃ t, exec (if wr then .st f else .ld f) s = .next t ∧
      let det : W64 := memDet0 false false wr 0 false pathSQ f.cls.toNat n
      let lost (code a : Nat) : Prop := recorded s t s.focus 0 code 2 (BitVec.ofNat 64 (a % 2 ^ 48)) det 0 ∧ t.mem = s.mem
      (2 ^ 48 ≤ ea ∨ regionOf ea = none → lost 0x0101 ea) ∧
      (∀ r e, regionOf ea = some (r, e) → e < ea + n → lost 0x0101 e) ∧
      (∀ r e, regionOf ea = some (r, e) → ea + n ≤ e →
        (r = .peer0 ∨ r = .peer1 → haltedBy s t 0x0105 (BitVec.ofNat 64 ea) det 0) ∧
        (r = .dram ∨ r = .granary ∨ r = .host →
          (ea % n ≠ 0 → haltedBy s t 0x0104 (BitVec.ofNat 64 ea) det 0) ∧
          (∀ a, ea % n = 0 → leaseFault (cur s).leases (!wr) wr ea n = some a → lost 0x0102 a) ∧
          (∀ a, wr = true → ea % n = 0 → leaseFault (cur s).leases false true ea n = none → roFault s.ro ea n = some a →
            lost 0x0103 a)))

/-- R63, R72, R128: the faults of a pool access of the sequencer: pool range first, of an address past the pool or of the first byte past
CV3, then alignment; no byte is accessed. SCOPE 0 in DETAIL0 is the model's choice (log entry 79). -/
def Sys2Proof.Claims.PoolAccessFaults : Prop :=
  ∀ (s : State) (f : MemForm) (wr : Bool) (ea n : Nat) (j : Job), ready s [f.b, f.r] → ea = effAddr s f.b f.off → n = accBytes f.ty →
    (cur s).job = some j →
    let det : W64 := memDet0 true false wr 0 false pathSQ f.cls.toNat n
    ∃ t, exec (if wr then .stp f else .ldp f) s = .next t ∧
      (2 ^ 20 ≤ ea → haltedBy s t 0x0106 (BitVec.ofNat 64 (ea % 2 ^ 48)) det 0) ∧
      (ea < 2 ^ 20 → 4096 * j.cv3 < ea + n → haltedBy s t 0x0106 (BitVec.ofNat 64 (Nat.max ea (4096 * j.cv3) % 2 ^ 48)) det 0) ∧
      (ea < 2 ^ 20 → ea + n ≤ 4096 * j.cv3 → ea % n ≠ 0 → haltedBy s t 0x0104 (BitVec.ofNat 64 ea) det 0)

/-- R61, R130, R131, R151: a `.sc` form of a work item that owns no wheel position is the wheel fault before any other, and an atomic or a
`.sc` form to the peer or host windows the access-path fault; no byte is accessed. SC 1, SCOPE 2 and CLASS 0 in DETAIL0 are the model's reading (log entry 71). -/
def Sys2Proof.Claims.WheelAndAtomicFaults : Prop :=
  ∀ (s : State) (i : Instr) (ty : AccTy) (ea : Nat) (sc atom wr : Bool) (rs : List Reg), ready s rs →
    ((∃ d, loadRow s i = some (d, ty, ea, sc, rs) ∧ atom = false ∧ wr = false) ∨
      (∃ r cm, storeRow s i = some (r, ty, ea, sc, cm, rs) ∧ atom = false ∧ wr = true) ∨
      (∃ op v n d b, atmRow s i = some (op, ty, ea, v, n, d, sc, b) ∧ rs = [b, v, n, d] ∧ atom = true ∧ wr = true)) →
    (sc = true → (cur s).wheel = [] → ∃ t, exec i s = .next t ∧
      haltedBy s t 0x0107 (BitVec.ofNat 64 (ea % 2 ^ 48)) (memDet0 false atom wr 2 true pathSQ 0 (accBytes ty)) 0) ∧
    (∀ e r, sc = true ∨ atom = true → (sc = true → (cur s).wheel ≠ []) → regionOf ea = some (r, e) → ea + accBytes ty ≤ e →
      r = .peer0 ∨ r = .peer1 ∨ r = .host → ∃ t det, exec i s = .next t ∧ haltedBy s t 0x0105 (BitVec.ofNat 64 ea) det 0)

/-- R59, R61, R63, R128, R130, R131, R151: the faults of sequencer accesses in their order; no byte is accessed. SCOPE, SC and CLASS of DETAIL0 follow log entries 71 and 79. -/
def Obligations.AccessFaultsInOrder : Prop :=
  Claims.PlainAccessFaults ∧ Claims.PoolAccessFaults ∧ Claims.WheelAndAtomicFaults

/-- R83, R133: a wait on device memory is satisfied or times out at its first read, or sleeps; asleep, WAIT_WAKE ends it once its
word satisfies it and WAIT_TIMEOUT at its deadline, with the word read in sd; in a clock in which the region is over neither has an effect
(R97). -/
def Sys2Proof.Claims.WaitsSleepAndWake : Prop :=
  (∀ (s : State) (f : WaitForm) (eq : Bool) (ea n v : Nat) (sv : Nat), ea = effAddr s f.b f.off → n = accBytes f.ty →
    ready s [f.b, f.sv, f.st, f.d] → quiet s → deviceRange s ea n true false → v = memNat s.mem ea n →
    sv = ((cur s).reg f.sv).toNat % 2 ^ (8 * n) →
    (((if eq then v = sv else sv ≤ v) ∨ ((cur s).reg f.st).toNat % 2 ^ 32 = 0) →
      exec (if eq then .waiteq f else .waitge f) s =
        .next (went s { (cur s).setReg f.d (BitVec.ofNat 64 v) with sleep := none } 8)) ∧
    (¬ ((if eq then v = sv else sv ≤ v) ∨ ((cur s).reg f.st).toNat % 2 ^ 32 = 0) →
      exec (if eq then .waiteq f else .waitge f) s = .next (s.setCtx s.focus { cur s with
        run := .sleep,
        sleep := some ⟨eq, f.d, n, ea, (cur s).reg f.sv, s.clk + ((cur s).reg f.st).toNat % 2 ^ 32, false, none, none, s.clk,
          memDet0 false false false f.scope.code false pathSQ 0 n⟩ }))) ∧
  (∀ (s : State) (c : CtxId) (w : SleepWait) (v : Nat), (s.ctx c).run = .sleep → (s.ctx c).sleep = some w → w.host = false → w.got = none →
    regionShort (s.ctx c) →
    v = memNat s.mem w.addr w.bytes →
    let woken : State := s.setCtx c { (s.ctx c).setReg w.d (BitVec.ofNat 64 v) with
      sleep := none, pc := (s.ctx c).pc + 8, run := .run }
    ((if w.eq then v = w.sv.toNat % 2 ^ (8 * w.bytes) else w.sv.toNat % 2 ^ (8 * w.bytes) ≤ v) →
      exec (.waitWake c) s = .next woken) ∧
    (w.deadline ≤ s.clk → exec (.waitTimeout c) s = .next woken) ∧
    (s.clk < w.deadline → exec (.waitTimeout c) s = .next s) ∧
    (staysAsleep s (s.ctx c) → exec (.waitWake c) s = .next s ∧ exec (.waitTimeout c) s = .next s)) ∧
  (∀ (s : State) (c : CtxId), (s.ctx c).run = .sleep → ¬ regionShort (s.ctx c) →
    exec (.waitWake c) s = .next s ∧ exec (.waitTimeout c) s = .next s)

/-- R61, R134: a wait on the host window reads its word through the host, again 600 clocks after the last read came; a word that has come
ends it if it satisfies it or the deadline is reached, and an error is its lease fault. -/
def Sys2Proof.Claims.HostWindowWaits : Prop :=
  (∀ (s : State) (f : WaitForm) (eq : Bool) (ea n : Nat), ea = effAddr s f.b f.off → n = accBytes f.ty →
    ready s [f.b, f.sv, f.st, f.d] → quiet s → 0x400000000000 ≤ ea → ea + n ≤ 0x800000000000 → ea % n = 0 →
    leaseFault (cur s).leases true false ea n = none →
    ∃ t, exec (if eq then .waiteq f else .waitge f) s = .next t ∧
      t.out = s.out ++ [.hostRead s.focus.val (cur s).loadNum ((s.hwbase.toNat + (ea - 0x400000000000)) % 2 ^ 64) n] ∧
      (cur t).run = .sleep ∧ (cur t).x = (cur s).x ∧ (cur t).pc = (cur s).pc ∧ t.mem = s.mem ∧
      ∃ w, (cur t).sleep = some w ∧ w.addr = ea ∧ w.host = true ∧ w.pending = some (cur s).loadNum ∧ w.got = none) ∧
  (∀ (s : State) (c : CtxId) (w : SleepWait), (s.ctx c).run = .sleep → (s.ctx c).sleep = some w → w.host = true →
    regionShort (s.ctx c) →
    (w.got = none → w.pending = none → w.lastRead + 600 ≤ s.clk → ∃ t, exec (.waitWake c) s = .next t ∧
      t.out = s.out ++ [.hostRead c.val (s.ctx c).loadNum ((s.hwbase.toNat + (w.addr - 0x400000000000)) % 2 ^ 64) w.bytes]) ∧
    (∀ v, w.got = some (true, v) →
      (if w.eq then v = w.sv.toNat % 2 ^ (8 * w.bytes) else w.sv.toNat % 2 ^ (8 * w.bytes) ≤ v) ∨ w.deadline ≤ s.clk →
      exec (.waitWake c) s = .next (s.setCtx c { (s.ctx c).setReg w.d (BitVec.ofNat 64 v) with
        sleep := none, pc := (s.ctx c).pc + 8, run := .run })) ∧
    (∀ v, w.got = some (false, v) → ∃ t, exec (.waitWake c) s = .next t ∧
      recorded s t c 0 0x0102 2 (BitVec.ofNat 64 (w.addr % 2 ^ 48)) w.det0 0))

/-- R61, R76, R77, R81, R83, R133 to R135: fences and waits. -/
def Obligations.FencesAndWaits : Prop :=
  Claims.FencesWait ∧ Claims.WaitsSleepAndWake ∧ Claims.HostWindowWaits

/-- R61, R119: a load from the host window asks the host, and its completion puts the extended data into the register; an error
raises its lease fault and writes no register. -/
def Sys2Proof.Claims.HostWindowLoadsComplete : Prop :=
  (∀ (s : State) (f : MemForm) (ea n : Nat), ready s [f.b, f.r] → quiet s → ea = effAddr s f.b f.off → n = accBytes f.ty →
    0x400000000000 ≤ ea → ea + n ≤ 0x800000000000 → ea % n = 0 → leaseFault (cur s).leases true false ea n = none →
    ∃ t, exec (.ld f) s = .next t ∧
      t.out = s.out ++ [.hostRead s.focus.val (cur s).loadNum ((s.hwbase.toNat + (ea - 0x400000000000)) % 2 ^ 64) n] ∧
      (∃ l, (cur t).loads = (cur s).loads ++ [l] ∧ l.num = (cur s).loadNum ∧ l.d = f.r ∧ l.host = true ∧ l.ty = f.ty ∧
        l.addr = ea ∧ l.pc = (cur s).pc) ∧ (cur t).pc = (cur s).pc + 8 ∧ (cur t).x = (cur s).x ∧ t.mem = s.mem) ∧
  (∀ (s : State) (c : CtxId) (l : OutLoad) (data : List Byte), (s.ctx c).loads.find? (fun l' => l'.host && l'.num == l.num) = some l →
    l.host = true → data.length = accBytes l.ty →
    (∃ t, exec (.hostWindowReadCompletion c l.num true data) s = .next t ∧
      (l.d ≠ 0 → (t.ctx c).reg l.d = extended l.ty (leNat data)) ∧ (∀ r, r ≠ l.d → (t.ctx c).reg r = (s.ctx c).reg r) ∧
      (∀ m ∈ (t.ctx c).loads, m.num ≠ l.num)) ∧
    (∃ t, exec (.hostWindowReadCompletion c l.num false data) s = .next t ∧ (∀ r, (t.ctx c).reg r = (s.ctx c).reg r) ∧
      ((s.ctx c).run ≠ .halt → recorded s t c 0 0x0102 2 (BitVec.ofNat 64 (l.addr % 2 ^ 48)) l.det0 0) ∧
      ((s.ctx c).run = .halt → t.faults = s.faults ∧
        ∃ e, (t.ctx c).seqLate = (s.ctx c).seqLate ++ [e] ∧ e.f.code = 0x0102 ∧ e.f.det0 = l.det0 ∧ e.time = s.now)))

/-- R63, R108, R119, R128 to R130: loads from the device, the pool and the host window, and the landing of their values. -/
def Obligations.LoadsReturnValues : Prop :=
  Claims.DeviceLoadsFetchValues ∧ Claims.LoadValuesLand ∧ Claims.PoolLoadReadsBytes ∧ Claims.HostWindowLoadsComplete

/-- R61, R96: `st` and `st.rel` to the host window send their low bytes to the host at the window's bus address, change no byte of device
memory, and go on; `st.rel` at .dev and .sys commits the region. That `st.rel` may reach the host window is the model's choice (log
entry 82). -/
def Sys2Proof.Claims.HostWindowStores : Prop :=
  ∀ (s : State) (i : Instr) (r : Reg) (ty : AccTy) (ea : Nat) (cm : Bool) (rs : List Reg),
    storeRow s i = some (r, ty, ea, false, cm, rs) → ready s rs → quiet s → 0x400000000000 ≤ ea →
    ea + accBytes ty ≤ 0x800000000000 → ea % accBytes ty = 0 → leaseFault (cur s).leases false true ea (accBytes ty) = none →
    roFault s.ro ea (accBytes ty) = none →
    ∃ t, exec i s = .next t ∧
      t.out = s.out ++ [.hostWrite ((s.hwbase.toNat + (ea - 0x400000000000)) % 2 ^ 64)
        (leBytes (accBytes ty) ((cur s).reg r).toNat) false] ∧
      t.ctx s.focus = { cur s with pc := (cur s).pc + 8, run := .run, cmt := (cur s).cmt || cm } ∧
      (∀ c, c ≠ s.focus → t.ctx c = s.ctx c) ∧ t = { s with ctxs := t.ctxs, out := t.out }

/-- R61, R63, R96, R108, R128 to R130: stores to the device, to the pool and to the host window (st.rel to it: log entry 82). -/
def Obligations.StoresWriteBytes : Prop :=
  Claims.DeviceStoresWriteBytes ∧ Claims.PoolStoreWritesBytes ∧ Claims.HostWindowStores

namespace Sys2Proof.Claims

/-- No acquire of the context in focus is outstanding: pushed work begins no access before one (R82). -/
abbrev acquiresDone (s : State) : Prop := ∀ l ∈ (cur s).loads, l.acq = false

/-- The command a template push builds: dword `k` of the template, or for the j-th set bit of PMASK the j-th register (R113). -/
def templateCmd (s : State) (f : PushForm) (sec : Section) (n idx : Nat) : Nat :=
  let regs : List W64 := [(cur s).reg f.a, (cur s).reg f.b, (cur s).reg f.c]
  ((List.range n).map fun k =>
    2 ^ (64 * k) *
      (if f.pmask.getLsbD k then (regs.getD ((List.range k).countP fun i => f.pmask.getLsbD i) 0).toNat
       else memNat s.mem (sec.base + 8 * n * idx + 8 * k) 8)).sum

/-- The command a register push builds: dword `k` is s(a + k) (R139). -/
def regsCmd (s : State) (a : Reg) (n : Nat) : Nat :=
  ((List.range n).map fun k => 2 ^ (64 * k) * ((cur s).reg (a + BitVec.ofNat 5 k)).toNat).sum

/-- A push of command `w` to the matrix queue: appended with the next number, or a stall while 16 are queued (R136). -/
def pushedMx (s : State) (i : Instr) (w : Nat) : Prop :=
  ((cur s).mxq.length < 16 → exec i s = .next (went s { cur s with
    mxq := (cur s).mxq ++ [⟨(cur s).mx.mseq, BitVec.ofNat 256 w⟩], mx := { (cur s).mx with mseq := (cur s).mx.mseq + 1 } } 8)) ∧
  (16 ≤ (cur s).mxq.length → exec i s = .next (s.setCtx s.focus { cur s with run := .stall }))
/-- The same for the copy queue of 32. -/
def pushedCp (s : State) (i : Instr) (w : Nat) : Prop :=
  ((cur s).cpq.length < 32 → exec i s = .next (went s { cur s with
    cpq := (cur s).cpq ++ [⟨(cur s).cp.cseq, BitVec.ofNat 256 w⟩], cp := { (cur s).cp with cseq := (cur s).cp.cseq + 1 } } 8)) ∧
  (32 ≤ (cur s).cpq.length → exec i s = .next (s.setCtx s.focus { cur s with run := .stall }))
/-- The same for the alignment queue of 4, which commits the region (R96, R141). -/
def pushedAl (s : State) (i : Instr) (w : Nat) : Prop :=
  ((cur s).alq.length < 4 → exec i s = .next (went s { cur s with
    cmt := true, alq := (cur s).alq ++ [⟨(cur s).alNum, BitVec.ofNat 128 w, s.clk, (cur s).loadNum⟩], alNum := (cur s).alNum + 1 } 8)) ∧
  (4 ≤ (cur s).alq.length → exec i s = .next (s.setCtx s.focus { cur s with run := .stall }))

/-- An instruction that can stall (R94). -/
def stallable (i : Instr) : Prop :=
  (∃ a, i = .pushf a) ∨ (∃ b, i = .pushbEx b) ∨ (∃ f, i = .pushtMx f ∨ i = .pushtCp f ∨ i = .pushtAl f) ∨
    (∃ a, i = .pushrMx a ∨ i = .pushrCp a ∨ i = .pushrAl a) ∨ (∃ d, i = .fbpop d) ∨ (∃ n a, i = .semwait n a) ∨
    (∃ a b, i = .launch a b) ∨ i = .region ∨ (∃ sc m, i = .fenceC sc m) ∨ (∃ sc p, i = .fenceX sc p)

/-- Semaphore `n` of a context. -/
def semOf (x : Context) (n : BitVec 4) : Nat := (x.sem.getD n.toNat 0).toNat

end Sys2Proof.Claims

/-- R136 to R138: `pushb.ex` appends its block with the mailboxes as they stand; a template push appends the patched template of the
kernel's range; each stalls on a full queue and commits as R96 says. -/
def Sys2Proof.Claims.TemplatePushesAppend : Prop :=
  ∀ (s : State) (j : Job), (cur s).job = some j → acquiresDone s →
    (∀ blk : BitVec 16, blk.toNat < j.k.exN →
      ((cur s).exq.length < 8 → exec (.pushbEx blk) s =
        .next (went s { cur s with exq := (cur s).exq ++ [⟨blk.toNat, (cur s).mb⟩] } 8)) ∧
      (8 ≤ (cur s).exq.length → exec (.pushbEx blk) s = .next (s.setCtx s.focus { cur s with run := .stall }))) ∧
    (∀ f : PushForm, ready s [f.a, f.b, f.c] → (Instr.pushtMx f).wf = true → f.tidx.toNat < j.k.mxN →
      pushedMx s (.pushtMx f) (templateCmd s f j.k.mx 4 (j.k.mxBase + f.tidx.toNat))) ∧
    (∀ f : PushForm, ready s [f.a, f.b, f.c] → (Instr.pushtCp f).wf = true → f.tidx.toNat < j.k.cpN →
      pushedCp s (.pushtCp f) (templateCmd s f j.k.cp 4 (j.k.cpBase + f.tidx.toNat))) ∧
    (∀ f : PushForm, ready s [f.a, f.b, f.c] → (Instr.pushtAl f).wf = true → f.tidx.toNat < j.k.alN →
      pushedAl s (.pushtAl f) (templateCmd s f j.k.al 2 (j.k.alBase + f.tidx.toNat)))

/-- R139: a register push appends the command its registers hold. -/
def Sys2Proof.Claims.RegisterPushesAppend : Prop :=
  ∀ (s : State) (a : Reg), acquiresDone s →
    (ready s [a, a + 1, a + 2, a + 3] →
      pushedMx s (.pushrMx a) (regsCmd s a 4) ∧ pushedCp s (.pushrCp a) (regsCmd s a 4)) ∧
    (ready s [a, a + 1] → pushedAl s (.pushrAl a) (regsCmd s a 2))

/-- R103, R137, R138: an index outside the kernel's range is the index fault, and nothing is appended. -/
def Sys2Proof.Claims.IndexFaults : Prop :=
  ∀ (s : State) (j : Job), (cur s).job = some j →
    (∀ blk : BitVec 16, j.k.exN ≤ blk.toNat → ∃ t, exec (.pushbEx blk) s = .next t ∧
      haltedBy s t 0x0205 0 (s.insnWord (cur s)) (BitVec.ofNat 64 j.k.exN)) ∧
    (∀ f : PushForm, ready s [f.a, f.b, f.c] →
      (j.k.mxN ≤ f.tidx.toNat → ∃ t, exec (.pushtMx f) s = .next t ∧
        haltedBy s t 0x0205 0 (s.insnWord (cur s)) (BitVec.ofNat 64 j.k.mxN)) ∧
      (j.k.cpN ≤ f.tidx.toNat → ∃ t, exec (.pushtCp f) s = .next t ∧
        haltedBy s t 0x0205 0 (s.insnWord (cur s)) (BitVec.ofNat 64 j.k.cpN)) ∧
      (j.k.alN ≤ f.tidx.toNat → ∃ t, exec (.pushtAl f) s = .next t ∧
        haltedBy s t 0x0205 0 (s.insnWord (cur s)) (BitVec.ofNat 64 j.k.alN)))

/-- R136 to R141: pushes from templates and from registers, and the index faults. -/
def Obligations.PushesAppendToQueues : Prop :=
  Claims.TemplatePushesAppend ∧ Claims.RegisterPushesAppend ∧ Claims.IndexFaults

/-- R82, R140, R142, R146: `pushf` appends a format word, once no acquire is outstanding, or stalls at 32; `mbw` sets a mailbox to sa[31:0]; `fbpop` and `fbtry` take the
oldest feedback entry that arrived before this clock, and with none `fbpop` stalls and `fbtry` writes 2^63. -/
def Sys2Proof.Claims.MailboxFormatAndFeedback : Prop :=
  ∀ (s : State),
    (∀ (n : BitVec 3) (a : Reg), ready s [a] →
      exec (.mbw n a) s = .next (went s { cur s with mb := (cur s).mb.set n.toNat (((cur s).reg a).setWidth 32) } 4)) ∧
    (∀ a : Reg, ready s [a] → acquiresDone s →
      ((cur s).fq.length < 32 → exec (.pushf a) s = .next (went s { cur s with fq := (cur s).fq ++ [(cur s).reg a] } 4)) ∧
      (32 ≤ (cur s).fq.length → exec (.pushf a) s = .next (s.setCtx s.focus { cur s with run := .stall }))) ∧
    (∀ (d : Reg) (v : BitVec 48) (born : Nat) (r : List (BitVec 48 × Nat)), ready s [d] → (cur s).fb = (v, born) :: r → born < s.clk →
      exec (.fbpop d) s = .next (went s { (cur s).setReg d (BitVec.ofNat 64 v.toNat) with fb := r } 4) ∧
      exec (.fbtry d) s = .next (went s { (cur s).setReg d (BitVec.ofNat 64 v.toNat) with fb := r } 4)) ∧
    (∀ d : Reg, ready s [d] → (∀ e ∈ (cur s).fb.head?, s.clk ≤ e.2) →
      exec (.fbpop d) s = .next (s.setCtx s.focus { cur s with run := .stall }) ∧
      exec (.fbtry d) s = .next (wrote s d (BitVec.ofNat 64 (2 ^ 63)) 4))

/-- R143: `semsig` adds sa[15:0] to its semaphore, or faults where the sum would exceed 65535; `semwait` takes it once the value
reaches it, and until then stalls; `semrd` reads it. A signal is tested against the value before what waits have taken in this clock
(R144). -/
def Sys2Proof.Claims.SemaphoresSignalAndWait : Prop :=
  ∀ (s : State) (n : BitVec 4) (a : Reg) (v tested : Nat), ready s [a] → v = ((cur s).reg a).toNat % 65536 →
    tested = semOf (cur s) n + ((cur s).noteAt s.clk).taken.getD n.toNat 0 →
    (tested + v ≤ 65535 → ∃ t, exec (.semsig n a) s = .next t ∧
      (∀ m, semOf (cur t) m = if m = n then semOf (cur s) n + v else semOf (cur s) m) ∧ (cur t).x = (cur s).x ∧
      (cur t).pc = (cur s).pc + 4 ∧ t.mem = s.mem) ∧
    (65535 < tested + v → ∃ t, exec (.semsig n a) s = .next t ∧
      haltedBy s t 0x0208 0 (BitVec.ofNat 64 n.toNat) (BitVec.ofNat 64 (v * 2 ^ 16 + tested))) ∧
    (v ≤ semOf (cur s) n → ∃ t, exec (.semwait n a) s = .next t ∧
      (∀ m, semOf (cur t) m = if m = n then semOf (cur s) n - v else semOf (cur s) m) ∧ (cur t).x = (cur s).x ∧
      (cur t).pc = (cur s).pc + 4 ∧ t.mem = s.mem) ∧
    (semOf (cur s) n < v → exec (.semwait n a) s = .next (s.setCtx s.focus { cur s with run := .stall })) ∧
    (∀ d, ready s [d] → exec (.semrd d n) s = .next (wrote s d (BitVec.ofNat 64 (semOf (cur s) n)) 4))

/-- R140, R142 to R146: mailbox, format word, feedback and semaphore instructions. -/
def Obligations.MailboxSemaphoreAndFeedbackInstructions : Prop :=
  Claims.MailboxFormatAndFeedback ∧ Claims.SemaphoresSignalAndWait

/-- R147: `launch` copies the 128 bytes at sa to the tail entry of queue sb, advances TAIL and commits the region; a queue number
above 63, or a queue closed to the partition, refuses it. -/
def Obligations.LaunchAppendsRecord : Prop :=
  (∀ (s : State) (a b : Reg) (q ea : Nat) (u : Queue), ready s [a, b] → quiet s → q = ((cur s).reg b).toNat → q ≤ 63 →
    s.mayFeed (cur s) q = true → ea = ((cur s).reg a).toNat → ea < 2 ^ 48 → rangeInDevice ea 128 = true → ea % 128 = 0 →
    leaseFault (cur s).leases true false ea 128 = none → u = s.queue q → u.count < u.size →
    (∀ i < 128, s.inSlot (u.base + 128 * (u.tail.toNat % u.size) + i) = false) →
    roFault s.ro (u.base + 128 * (u.tail.toNat % u.size)) 128 = none → ∃ t, exec (.launch a b) s = .next t ∧
      stored s t (u.base + 128 * (u.tail.toNat % u.size)) (memRead s.mem ea 128) ∧
      (t.queue q).tail = u.tail + 1 ∧ (t.queue q).head = u.head ∧ (∀ k, k ≠ q → t.queue k = s.queue k) ∧
      cur t = { cur s with pc := (cur s).pc + 4, run := .run, cmt := true }) ∧
  (∀ (s : State) (a b : Reg), ready s [a, b] →
    (63 < ((cur s).reg b).toNat → ∃ t, exec (.launch a b) s = .next t ∧ haltedBy s t 0x0209 0 ((cur s).reg b) 1) ∧
    (((cur s).reg b).toNat ≤ 63 → s.mayFeed (cur s) ((cur s).reg b).toNat = false →
      ∃ t, exec (.launch a b) s = .next t ∧ haltedBy s t 0x0209 0 ((cur s).reg b) 2))

/-- R94, R97: STALL_RELEASE completes for every stalled context: it tries its instruction again, as it would issue now; a `semwait` whose
semaphore has reached its amount is granted, and a `pushf` whose queue has room appends; an instruction that cannot stall, and a clock
in which the region is over, leave the state as it is. -/
def Sys2Proof.Claims.StallReleaseRetries : Prop :=
  (∀ (s : State) (c : CtxId) (i : Instr), (s.ctx c).run = .stall → regionShort (s.ctx c) → s.decodeAt (s.ctx c) = some i →
    (stallable i → ∃ t, exec i { s with focus := c } = .next t ∧ exec (.stallRelease c) s = .next { t with focus := s.focus }) ∧
    (¬ stallable i → exec (.stallRelease c) s = .next s)) ∧
  (∀ (s : State) (c : CtxId) (n : BitVec 4) (a : Reg) (v : Nat), (s.ctx c).run = .stall → regionShort (s.ctx c) →
    s.decodeAt (s.ctx c) = some (.semwait n a) → (s.ctx c).busy a = false → v = ((s.ctx c).reg a).toNat % 65536 →
    v ≤ semOf (s.ctx c) n → ∃ t, exec (.stallRelease c) s = .next t ∧ (t.ctx c).run = .run ∧ (t.ctx c).pc = (s.ctx c).pc + 4 ∧
      ∀ m, semOf (t.ctx c) m = if m = n then semOf (s.ctx c) n - v else semOf (s.ctx c) m) ∧
  (∀ (s : State) (c : CtxId) (a : Reg), (s.ctx c).run = .stall → regionShort (s.ctx c) →
    s.decodeAt (s.ctx c) = some (.pushf a) → (s.ctx c).busy a = false → (∀ l ∈ (s.ctx c).loads, l.acq = false) →
    (s.ctx c).fq.length < 32 → exec (.stallRelease c) s = .next (s.setCtx c { s.ctx c with
      fq := (s.ctx c).fq ++ [(s.ctx c).reg a], pc := (s.ctx c).pc + 4, run := .run })) ∧
  (∀ (s : State) (c : CtxId), (s.ctx c).run ≠ .stall ∨ ¬ regionShort (s.ctx c) ∨ s.decodeAt (s.ctx c) = none →
    exec (.stallRelease c) s = .next s)

/-- R97, R94, R98, R99, R370: a committed region that reaches 64 × REGMAX clocks faults; a pre-emption request falls in the clock of its sequencer's
turn, and at that clock's end (log entries 3, 87) discards an uncommitted region, is held in PEND by a committed one and in HALT, and comes to nothing after
the work item has ended; in the clock of a background's `done` a waiting foreground dispatch requests nothing (R370). -/
def Sys2Proof.Claims.RegionLengthAndPreemption : Prop :=
  (∀ (s : State) (j : Job), (cur s).job = some j → ((cur s).run = .run ∨ (cur s).run = .stall ∨ (cur s).run = .sleep) →
    (cur s).cmt = true → 64 * j.regmax ≤ (cur s).ccyc.toNat →
    ∃ t, exec (.regionLengthFault s.focus) s = .next t ∧
      haltedBy s t 0x0206 0 (BitVec.ofNat 64 (cur s).ccyc.toNat) (BitVec.ofNat 64 j.regmax)) ∧
  (∀ (s : State) (c : CtxId), (s.ctx c).run = .run ∨ (s.ctx c).run = .stall ∨ (s.ctx c).run = .sleep ∨ (s.ctx c).run = .halt →
    (s.ctx c).preq = none → ((s.ctx c).noteAt s.clk).done = false →
    ((∀ k, ¬ (Actor.sq c, k) ∈ s.acted) →
      exec (.preemptionRequest c) s = .next (s.setCtx c { s.ctx c with preq := some s.clk })) ∧
    ((∃ k, (Actor.sq c, k) ∈ s.acted) →
      exec (.preemptionRequest c) s = .next (s.setCtx c { s.ctx c with preq := some (s.clk + 1) }))) ∧
  (∀ (s : State) (c : CtxId) (k : Nat), (s.ctx c).preq = some k → k ≤ s.clk →
    ((s.ctx c).run = .ended ∨ (s.ctx c).run = .idle → s.preempt c = s.setCtx c { s.ctx c with preq := none }) ∧
    ((s.ctx c).run = .halt → ((s.ctx c).noteAt s.clk).done = false →
      s.preempt c = s.setCtx c { s.ctx c with preq := none, pend := true }) ∧
    ((s.ctx c).run = .run ∨ (s.ctx c).run = .stall ∨ (s.ctx c).run = .sleep → ((s.ctx c).noteAt s.clk).done = false →
      ((s.ctx c).cmt = true → s.preempt c = s.setCtx c { s.ctx c with preq := none, pend := true }) ∧
      ((s.ctx c).cmt = false → ∃ t, s.preempt c = t ∧ (t.ctx c).run = .idle ∧ (t.ctx c).exq = [] ∧
        (t.ctx c).mxq = [] ∧ (t.ctx c).fq = [] ∧ (t.ctx c).cpq = [] ∧ (t.ctx c).alq = [] ∧ (t.ctx c).fb = [] ∧
        (t.ctx c).loads = [] ∧ (t.ctx c).divs = [] ∧ (t.ctx c).wheel = [] ∧ (t.ctx c).cp.binds = [] ∧ (t.ctx c).ex.block = none ∧
        (t.ctx c).preq = none ∧ (t.ctx c).shadow = (s.ctx c).shadow ∧ (t.ctx c).raddr = (s.ctx c).raddr ∧
        (t.ctx c).job = (s.ctx c).job ∧ t.mem = s.mem))) ∧
  (∀ (s : State) (c : CtxId), c.bg = true → (s.ctx (ctxOf (c.val - 1))).await = true → ((s.ctx c).noteAt s.clk).done = true →
    exec (.preemptionRequest c) s = .next s)

/-- R94, R97 to R99, R370: a stalled instruction is tried again; the region-length fault; pre-emption (the clock of a request and of its effect: log entries 3, 87). -/
def Obligations.StallsRegionsAndPreemption : Prop :=
  Claims.StallReleaseRetries ∧ Claims.RegionLengthAndPreemption

/-- The register instructions that write at most one general register and raise no fault change nothing else: no other register, no
other part of the context but its pc and its state, no byte of memory, nothing else of the device. -/
def Obligations.RegisterInstructionFrame : Prop :=
  ∀ (s t : State) (i : Instr) (d : Reg),
    ((∃ a b f, aluRow i = some (d, a, b, f)) ∨ (∃ a f, immRow i = some (d, a, f)) ∨ (∃ a, i = .clz d a ∨ i = .popc d a) ∨
      (∃ m, i = .lup d m) ∨ (∃ m, i = .li d m ∨ i = .lih d m) ∨ (∃ n, i = .semrd d n)) → exec i s = .next t →
    (∀ r, r ≠ d → (cur t).reg r = (cur s).reg r) ∧
    cur t = { cur s with x := (cur t).x, pc := (cur t).pc, run := (cur t).run } ∧
    (∀ a, memGet t.mem a = memGet s.mem a) ∧ (∀ c, c ≠ s.focus → t.ctx c = s.ctx c) ∧ t = { s with ctxs := t.ctxs }

/-- A store, an atomic and a load change no byte of memory outside the bytes at their effective address, whatever way they end, and
no general register of a context but a load's value that lands later. -/
def Obligations.MemoryInstructionFrame : Prop :=
  ∀ (s t : State) (i : Instr), exec i s = .next t →
    (∀ r ty ea sc cm rs, storeRow s i = some (r, ty, ea, sc, cm, rs) →
      (∀ a, (a < ea ∨ ea + accBytes ty ≤ a) → memGet t.mem a = memGet s.mem a) ∧ ∀ c, (t.ctx c).x = (s.ctx c).x) ∧
    (∀ op ty ea v n d sc b, atmRow s i = some (op, ty, ea, v, n, d, sc, b) →
      (∀ a, (a < ea ∨ ea + accBytes ty ≤ a) → memGet t.mem a = memGet s.mem a) ∧ ∀ c, (t.ctx c).x = (s.ctx c).x) ∧
    (∀ d ty ea sc rs, loadRow s i = some (d, ty, ea, sc, rs) →
      (∀ a, memGet t.mem a = memGet s.mem a) ∧ ∀ c, (t.ctx c).x = (s.ctx c).x) ∧
    (∀ f : MemForm, i = .stp f →
      (∀ a, memGet t.mem a = memGet s.mem a) ∧ (∀ c, (t.ctx c).x = (s.ctx c).x) ∧
      (∀ a, (a < effAddr s f.b f.off ∨ effAddr s f.b f.off + accBytes f.ty ≤ a) →
        memGet (cur t).pool a = memGet (cur s).pool a)) ∧
    (∀ f : MemForm, i = .ldp f → (∀ a, memGet t.mem a = memGet s.mem a) ∧ ∀ c, (t.ctx c).x = (s.ctx c).x ∧
      (t.ctx c).pool = (s.ctx c).pool)

namespace Sys2Proof.Claims

/-! ## The execute core -/

/-- `e` is what a slot of the context in focus reads when the bundle issues: a work item, a running block that does not drain, and a
core that is not halted (R161, R162). -/
abbrev slotReads (s : State) (e : ExIn) : Prop :=
  e.c = s.focus ∧ e.x = cur s ∧ e.clk = s.clk ∧ (cur s).job = some e.j ∧ (cur s).ex.block = some e.b ∧ (cur s).ex.halted = false ∧
    e.b.draining = false
/-- The views are of the kernel (R156). -/
abbrev viewsOk (e : ExIn) (l : List Nat) : Prop := ∀ v ∈ l, v < 128 ∧ v < e.j.k.vn
/-- The pool address of byte 0 of a view (R65). -/
def viewAddr (e : ExIn) (v : Nat) : Nat := 256 * (e.j.k.vbase + v)
/-- Element `k` of `w` bytes of a view, as read at issue (R152, R66). -/
def elem (e : ExIn) (v w k : Nat) : Nat := leNat (e.x.poolGet e.clk (viewAddr e v + w * k) w)
/-- Lane `k` of a view. -/
def lane32 (e : ExIn) (v k : Nat) : W32 := BitVec.ofNat 32 (elem e v 4 k)
/-- Mask bit `k` of mask `q`; q0 is all ones (R154). -/
abbrev maskBit (e : ExIn) (q : BitVec 3) (k : Nat) : Prop := k < 64 ∧ (q = 0 ∨ (e.x.ex.q.getD q.toNat 0).getLsbD k = true)

/-- The slot's operation enters the pipeline, and nothing else of the device changes. -/
def issued (s : State) (e : ExIn) (slot : Nat) (o : InFlight) : State :=
  s.setCtx s.focus { cur s with ex := { (cur s).ex with
    pipe := (cur s).ex.pipe ++ [{ o with slot := slot, seq := e.b.seq }], block := some { e.b with seq := e.b.seq + 1 } } }

/-- `o` has latency `left` and writes exactly the elements k < n of `w` bytes at `base` that `sel` selects, with value `val k`; its
flags are those of the selected elements (R162, R186). -/
def writesElems (o : InFlight) (left base w n : Nat) (sel : Nat → Prop) (val : Nat → Nat) (fl : Nat → FlagSet) : Prop :=
  o.left = left ∧ o.mask = none ∧ o.vx = none ∧ o.swap = none ∧
    (∀ (a : Nat) (b : Byte), (a, b) ∈ o.bytes ↔
      ∃ k, k < n ∧ sel k ∧ ∃ i, i < w ∧ a = base + w * k + i ∧ b = BitVec.ofNat 8 (val k / 256 ^ i)) ∧
    (∀ j, o.flags.getLsbD j = true ↔ ∃ k, k < n ∧ sel k ∧ (fl k).getLsbD j = true)

/-- `o` writes, at latency `left`, those bits of mask `q` that `sel` selects, with `bit k`; q0 takes no write (R194, R205). -/
def writesMask (o : InFlight) (left : Nat) (q : Nat) (sel bit : Nat → Prop) : Prop :=
  o.left = left ∧ o.bytes = [] ∧ o.vx = none ∧ o.swap = none ∧
    (q = 0 → o.mask = none) ∧
    (q ≠ 0 → ∃ m v, o.mask = some (q, m, v) ∧ ∀ k, k < 64 → ((m.getLsbD k = true ↔ sel k) ∧ (m.getLsbD k = true → (v.getLsbD k = true ↔ bit k))))

/-- The issue of one slot's operation that writes elements: it completes, with an operation as described. -/
def completesWith (s : State) (e : ExIn) (i : Instr) (slot : Nat) (p : InFlight → Prop) : Prop :=
  ∃ o, p o ∧ exec i s = .next (issued s e slot o)

/-- A 32-bit sum clamped to INT32, and whether it was (R190). -/
def clamped (x : Int) : W32 × Bool :=
  if x < -2 ^ 31 then (0x80000000, true) else if 2 ^ 31 - 1 < x then (0x7FFFFFFF, true) else (BitVec.ofInt 32 x, false)

/-- The rows of R190 to R192: fields, latency, and lane of vd from a, b and the old lane, with whether SA is raised. -/
def intRow : Instr → Option (VForm × Nat × (W32 → W32 → W32 → W32 × Bool))
  | .vaddI32 f => some (f, 2, fun a b _ => (a + b, false))
  | .vsubI32 f => some (f, 2, fun a b _ => (a - b, false))
  | .vaddsI32 f => some (f, 2, fun a b _ => clamped (a.toInt + b.toInt))
  | .vsubsI32 f => some (f, 2, fun a b _ => clamped (a.toInt - b.toInt))
  | .vmulI32 f => some (f, 3, fun a b _ => (a * b, false))
  | .vmulhI32 f => some (f, 3, fun a b _ => (BitVec.ofInt 32 (a.toInt * b.toInt / 2 ^ 32), false))
  | .vminI32 f => some (f, 2, fun a b _ => (if a.toInt ≤ b.toInt then a else b, false))
  | .vmaxI32 f => some (f, 2, fun a b _ => (if a.toInt ≤ b.toInt then b else a, false))
  | .vminN32 f => some (f, 2, fun a b _ => (if a.toNat ≤ b.toNat then a else b, false))
  | .vmaxN32 f => some (f, 2, fun a b _ => (if a.toNat ≤ b.toNat then b else a, false))
  | .vand f => some (f, 2, fun a b _ => (a &&& b, false))
  | .vor f => some (f, 2, fun a b _ => (a ||| b, false))
  | .vxor f => some (f, 2, fun a b _ => (a ^^^ b, false))
  | .vandn f => some (f, 2, fun a b _ => (a &&& ~~~b, false))
  | .vshl f => some (f, 2, fun a b _ => (if b.toNat < 32 then a <<< b.toNat else 0, false))
  | .vshr f => some (f, 2, fun a b _ => (if b.toNat < 32 then a >>> b.toNat else 0, false))
  | .vsra f => some (f, 2, fun a b _ => (if b.toNat < 32 then a.sshiftRight b.toNat else if a.msb then 0xFFFFFFFF else 0, false))
  | .vaddminI32 f => some (f, 2, fun a b o =>
      (if o.toInt ≤ (clamped (a.toInt + b.toInt)).1.toInt then o else (clamped (a.toInt + b.toInt)).1,
        (clamped (a.toInt + b.toInt)).2))
  | _ => none

/-- The immediate rows of R193 and the lane moves of R204 in form I: slot, fields, and lane k of vd from the lanes of va. -/
def moveRow : Instr → Option (Nat × IForm × ((Nat → W32) → Nat → W32))
  | .vaddiI32 f => some (0, f, fun a k => a k + f.imm.signExtend 32)
  | .vshli f => some (0, f, fun a k => a k <<< f.imm.toNat)
  | .vshri f => some (0, f, fun a k => a k >>> f.imm.toNat)
  | .vsrai f => some (0, f, fun a k => (a k).sshiftRight f.imm.toNat)
  | .vminiI32 f => some (0, f, fun a k => if (a k).toInt ≤ f.imm.toInt then a k else f.imm.signExtend 32)
  | .vmaxiI32 f => some (0, f, fun a k => if (a k).toInt ≤ f.imm.toInt then f.imm.signExtend 32 else a k)
  | .vslu f => some (2, f, fun a k => if f.imm.toNat ≤ k then a (k - f.imm.toNat) else 0)
  | .vsld f => some (2, f, fun a k => if k + f.imm.toNat ≤ 63 then a (k + f.imm.toNat) else 0)
  | .vbcst f => some (2, f, fun a _ => a f.imm.toNat)
  | _ => none

/-- The lane moves of two vectors (R204). -/
def moveRow2 : Instr → Option (VForm × ((Nat → W32) → (Nat → W32) → Nat → W32))
  | .vperm f => some (f, fun a b k => a ((b k).toNat % 64))
  | .vfsu f => some (f, fun a b k => if k = 0 then b 63 else a (k - 1))
  | _ => none

/-- The integer compares of R194. -/
def cmpRow : Instr → Option (VForm × (W32 → W32 → Prop))
  | .vceqI32 f => some (f, fun a b => a = b)
  | .vcltI32 f => some (f, fun a b => a.toInt < b.toInt)
  | .vcleI32 f => some (f, fun a b => a.toInt ≤ b.toInt)
  | .vcltN32 f => some (f, fun a b => a.toNat < b.toNat)
  | _ => none

/-- The float compares of R198: the relation of the two lanes, and the flags of the lane. -/
def fcmpRow : Instr → Option (VForm × FRel)
  | .vceqF32 f => some (f, .eq)
  | .vcltF32 f => some (f, .lt)
  | .vcleF32 f => some (f, .le)
  | _ => none

/-- The floating-point rows of R196 and R197: fields, latency, element width, and the element with its flags. -/
def floatRow : Instr → Option (VForm × Nat × Nat × (Nat → Nat → Nat → Nat × FlagSet))
  | .vaddF32 f => some (f, 4, 4, fun a b _ => fp32.add a b)
  | .vsubF32 f => some (f, 4, 4, fun a b _ => fp32.sub a b)
  | .vmulF32 f => some (f, 5, 4, fun a b _ => fp32.mul a b)
  | .vfmaF32 f => some (f, 5, 4, fun a b o => fp32.fma a b o)
  | .vminF32 f => some (f, 4, 4, fun a b _ => fp32.minmax false a b)
  | .vmaxF32 f => some (f, 4, 4, fun a b _ => fp32.minmax true a b)
  | .vaddBf f => some (f, 4, 2, fun a b _ => bf16.add a b)
  | .vsubBf f => some (f, 4, 2, fun a b _ => bf16.sub a b)
  | .vmulBf f => some (f, 5, 2, fun a b _ => bf16.mul a b)
  | .vfmaBf f => some (f, 5, 2, fun a b o => bf16.fma a b o)
  | .vminBf f => some (f, 4, 2, fun a b _ => bf16.minmax false a b)
  | .vmaxBf f => some (f, 4, 2, fun a b _ => bf16.minmax true a b)
  | _ => none

/-- The conversions of R199: fields, destination width, and the element with its flags from the source format and element. -/
def cvtRow : Instr → Option (VForm × Nat × (Nat → Nat → Nat × FlagSet))
  | .vcvtF32 f => some (f, 4, fun sc v => convertVal sc 0x11 v)
  | .vcvtBf f => some (f, 2, fun sc v => convertVal sc 0x10 v)
  | .vcvtI32 f => some (f, 4, fun sc v => convertVal sc 0x0A v)
  | .vcvtF8 f => some (f, 1, fun sc v => convertVal sc 0x12 v)
  | .vcvtBp f => some (f, 2, fun sc v => bpEncode true 4 (decVal sc v))
  | _ => none

/-- The two-operand mask operations and `qnot` (R205). -/
def maskRow : Instr → Option (VForm × (Prop → Prop → Prop))
  | .qand f => some (f, fun a b => a ∧ b)
  | .qor f => some (f, fun a b => a ∨ b)
  | .qxor f => some (f, fun a b => (a ∧ ¬ b) ∨ (¬ a ∧ b))
  | .qandn f => some (f, fun a b => a ∧ ¬ b)
  | .qnot f => some (f, fun a _ => ¬ a)
  | _ => none

/-- R56: 2^k values combined as a tree: neighbours at distance 2^(k−1), then 2^(k−2), down to 1; with the flags of every step. -/
def treeOf (fn : Nat → Nat → Nat × FlagSet) : Nat → (Nat → Nat) → Nat × FlagSet
  | 0, v => (v 0, 0)
  | k + 1, v =>
    let r := treeOf fn k fun i => (fn (v i) (v (i + 2 ^ k))).1
    (r.1, r.2 ||| (flagUnion ((List.range (2 ^ k)).map fun i => (fn (v i) (v (i + 2 ^ k))).2)))

/-- The reductions of R206: fields, log2 of the source elements, their width, how a source element is widened, identity,
step. -/
def redRow : Instr → Option (VForm × Nat × Nat × (Nat → Nat) × Nat × (Nat → Nat → Nat × FlagSet))
  | .vraddI32 f => some (f, 6, 4, id, 0, fun a b => ((a + b) % 2 ^ 32, 0))
  | .vrminI32 f => some (f, 6, 4, id, 0x7FFFFFFF,
      fun a b => (if (BitVec.ofNat 32 a).toInt ≤ (BitVec.ofNat 32 b).toInt then a else b, 0))
  | .vrmaxI32 f => some (f, 6, 4, id, 0x80000000,
      fun a b => (if (BitVec.ofNat 32 a).toInt ≤ (BitVec.ofNat 32 b).toInt then b else a, 0))
  | .vraddF32 f => some (f, 6, 4, id, 0x80000000, fp32.add)
  | .vrminF32 f => some (f, 6, 4, id, 0x7F800000, fp32.minmax false)
  | .vrmaxF32 f => some (f, 6, 4, id, 0xFF800000, fp32.minmax true)
  | .vraddBf f => some (f, 7, 2, fun v => v * 65536, 0x80000000, fp32.add)
  | _ => none

/-- Where an operand field of a V form points. -/
abbrev vd (e : ExIn) (f : VForm) : Nat := e.view f.d f.x
abbrev va (e : ExIn) (f : VForm) : Nat := e.view f.a f.x
abbrev vb (e : ExIn) (f : VForm) : Nat := e.view f.b f.x

end Sys2Proof.Claims

/-- R190 to R192: the integer lane operations of slot A. -/
def Sys2Proof.Claims.IntegerLaneOperations : Prop :=
  ∀ (s : State) (e : ExIn) (i : Instr) (f : VForm) (lat : Nat) (fn : W32 → W32 → W32 → W32 × Bool), slotReads s e →
    intRow i = some (f, lat, fn) → viewsOk e [vd e f, va e f, vb e f] →
    completesWith s e i 0 fun o =>
      let r (k : Nat) : W32 × Bool := fn (lane32 e (va e f) k) (lane32 e (vb e f) k) (lane32 e (vd e f) k)
      writesElems o lat (viewAddr e (vd e f)) 4 64 (maskBit e f.q) (fun k => (r k).1.toNat) (fun k => if (r k).2 then flSA else 0)

/-- R193, R203, R204: the immediate lane operations, the lane moves and `vsel`; no flag is set. -/
def Sys2Proof.Claims.LaneMovesAndImmediates : Prop :=
  ∀ (s : State) (e : ExIn), slotReads s e →
    (∀ i slot f fn, moveRow i = some (slot, f, fn) → i.wf = true → viewsOk e [e.view f.d f.x, e.view f.a f.x] →
      completesWith s e i slot fun o =>
        writesElems o 2 (viewAddr e (e.view f.d f.x)) 4 64 (maskBit e f.q)
          (fun k => (fn (lane32 e (e.view f.a f.x)) k).toNat) fun _ => 0) ∧
    (∀ i f fn, moveRow2 i = some (f, fn) → viewsOk e [vd e f, va e f, vb e f] →
      completesWith s e i 2 fun o =>
        writesElems o 2 (viewAddr e (vd e f)) 4 64 (maskBit e f.q)
          (fun k => (fn (lane32 e (va e f)) (lane32 e (vb e f)) k).toNat) fun _ => 0) ∧
    (∀ f, viewsOk e [vd e f, va e f, vb e f] →
      completesWith s e (.vsel f) 2 fun o =>
        ∃ val : Nat → Nat, (∀ k, maskBit e f.q k → val k = elem e (va e f) 4 k) ∧
          (∀ k, ¬ maskBit e f.q k → val k = elem e (vb e f) 4 k) ∧
          writesElems o 1 (viewAddr e (vd e f)) 4 64 (fun _ => True) val fun _ => 0)

/-- R186 to R194, R203, R204, R207: integer and lane-moving slots. -/
def Obligations.IntegerAndMoveLaneOperations : Prop :=
  Claims.IntegerLaneOperations ∧ Claims.LaneMovesAndImmediates

/-- R194, R198: the compares write the bits of qd that their write mask selects; the float compares raise NV as R198 says. -/
def Sys2Proof.Claims.ComparesWriteMaskBits : Prop :=
  ∀ (s : State) (e : ExIn), slotReads s e →
    (∀ i f p, cmpRow i = some (f, p) → viewsOk e [va e f, vb e f] →
      completesWith s e i 0 fun o => o.flags = 0 ∧
        writesMask o 2 (f.d.toNat % 8) (maskBit e f.q) fun k => p (lane32 e (va e f) k) (lane32 e (vb e f) k)) ∧
    (∀ i f c, fcmpRow i = some (f, c) → viewsOk e [va e f, vb e f] →
      completesWith s e i 1 fun o =>
        (∀ j, o.flags.getLsbD j = true ↔
          ∃ k, maskBit e f.q k ∧ (fp32.cmp c (elem e (va e f) 4 k) (elem e (vb e f) 4 k)).2.getLsbD j = true) ∧
        writesMask o 2 (f.d.toNat % 8) (maskBit e f.q)
          fun k => (fp32.cmp c (elem e (va e f) 4 k) (elem e (vb e f) 4 k)).1 = true)

/-- R196, R197: the floating-point operations of slot B, on FP32 or BF16 elements under the mask. -/
def Sys2Proof.Claims.FloatSlotOperations : Prop :=
  ∀ (s : State) (e : ExIn) (i : Instr) (f : VForm) (lat w : Nat) (fn : Nat → Nat → Nat → Nat × FlagSet), slotReads s e →
    floatRow i = some (f, lat, w, fn) → viewsOk e [vd e f, va e f, vb e f] →
    completesWith s e i 1 fun o =>
      let r (k : Nat) : Nat × FlagSet := fn (elem e (va e f) w k) (elem e (vb e f) w k) (elem e (vd e f) w k)
      writesElems o lat (viewAddr e (vd e f)) w (256 / w) (fun k => maskBit e f.q (k * w / 4)) (fun k => (r k).1) fun k => (r k).2

/-- R199, R200: a conversion of the part that field B names. -/
def Sys2Proof.Claims.ConversionParts : Prop :=
  ∀ (s : State) (e : ExIn) (i : Instr) (f : VForm) (wd ws n p : Nat) (conv : Nat → Nat → Nat × FlagSet), slotReads s e →
    cvtRow i = some (f, wd, conv) → i.wf = true → viewsOk e [vd e f, va e f] → ws = fmtBytes (f.b.toNat % 32) →
    n = 256 / max ws wd → p = f.b.toNat / 32 →
    completesWith s e i 1 fun o =>
      let r (j : Nat) : Nat × FlagSet := conv (f.b.toNat % 32) (elem e (va e f) ws ((if n < 256 / ws then p else 0) * n + j))
      writesElems o 4 (viewAddr e (vd e f) + wd * ((if n < 256 / wd then p else 0) * n)) wd n
        (fun j => maskBit e f.q (64 * j / n)) (fun j => (r j).1) fun j => (r j).2

/-- R205: the mask operations. -/
def Sys2Proof.Claims.MaskOperations : Prop :=
  ∀ (s : State) (e : ExIn), slotReads s e →
    (∀ i f p, maskRow i = some (f, p) → i.wf = true →
      completesWith s e i 2 fun o => o.flags = 0 ∧ writesMask o 1 (f.d.toNat % 8) (fun _ => True)
        fun k => p (maskBit e (f.a.setWidth 3) k) (maskBit e (f.b.setWidth 3) k)) ∧
    (∀ f : WForm, completesWith s e (.qleni f) 2 fun o => o.flags = 0 ∧
      writesMask o 1 (f.d.toNat % 8) (fun _ => True) fun k => k < f.imm.toNat) ∧
    (∀ f : VForm, completesWith s e (.qlen f) 2 fun o => o.flags = 0 ∧
      writesMask o 1 (f.d.toNat % 8) (fun _ => True) fun k => k < (e.b.mb.getD (f.a.toNat % 8) 0).toNat) ∧
    (∀ f : VForm, viewsOk e [va e f] → completesWith s e (.qset f) 2 fun o => o.flags = 0 ∧
      writesMask o 1 (f.d.toNat % 8) (fun _ => True) fun k => elem e (va e f) 4 k ≠ 0)

/-- R206, R56: a reduction combines its source elements, with the identity for those not selected, in the tree of R56, and writes
the result to every selected lane; its flags are those of every step. -/
def Obligations.ReductionsFollowTree : Prop :=
  ∀ (s : State) (e : ExIn) (i : Instr) (f : VForm) (k w : Nat) (wide : Nat → Nat) (ident : Nat) (fn : Nat → Nat → Nat × FlagSet)
    (v : Nat → Nat), slotReads s e → redRow i = some (f, k, w, wide, ident, fn) → viewsOk e [vd e f, va e f] →
    (∀ j, maskBit e f.q (j * 64 / 2 ^ k) → v j = wide (elem e (va e f) w j)) →
    (∀ j, ¬ maskBit e f.q (j * 64 / 2 ^ k) → v j = ident) →
    completesWith s e i 2 fun o =>
      writesElems o 6 (viewAddr e (vd e f)) 4 64 (maskBit e f.q) (fun _ => (treeOf fn k v).1) fun _ => (treeOf fn k v).2

namespace Sys2Proof.Claims

/-! ## Numbers (R9, R36 to R40, R46 to R48) -/

/-- The number a finite value is. -/
def ratio : FVal → ℚ
  | .fin n m e => (if n then -1 else 1) * m * (2 : ℚ) ^ e
  | _ => 0
/-- A finite value. -/
def isFin (v : FVal) : Prop := ∃ n m e, v = .fin n m e
/-- `n` is the integer nearest to `x`, on a tie the even one (R9). -/
def nearest (x : ℚ) (n : ℤ) : Prop := |x - n| < 1 / 2 ∨ (|x - n| = 1 / 2 ∧ n % 2 = 0)
/-- The largest finite value of a format (R46). -/
def largest (f : FFmt) : ℚ := if f.noInf then 448 else (2 - (2 : ℚ) ^ (-(f.mb : ℤ))) * (2 : ℚ) ^ f.bias
/-- The encoding of a signed zero, infinity, or largest magnitude. -/
def signed (f : FFmt) (neg : Bool) (mag : Nat) : Nat := (if neg then 2 ^ (f.mb + f.eb) else 0) + mag
/-- The magnitude of infinity; the largest one in FP8, which has none. -/
def infMag (f : FFmt) : Nat := if f.noInf then 0x7E else (2 ^ f.eb - 1) * 2 ^ f.mb

/-- `r` is a number `x` ≠ 0 rounded once into format `f`, with its flags (R46, R47): nearest at the format's precision and exponent range,
ties to even; NX where inexact, UF where also tiny after rounding; beyond the largest value infinity with OF and NX, in FP8 the largest
value with SA and NX. -/
def rounded (f : FFmt) (x : ℚ) (r : Nat × FlagSet) : Prop :=
  ∃ (E n : ℤ), (2 : ℚ) ^ E ≤ |x| ∧ |x| < (2 : ℚ) ^ (E + 1) ∧
    let emin : ℤ := 1 - f.bias
    let q : ℤ := max E emin - f.mb
    let y : ℚ := n * (2 : ℚ) ^ q
    let tiny : Prop := E < emin ∧ ∃ k : ℤ, nearest (|x| / (2 : ℚ) ^ (E - f.mb)) k ∧ k * (2 : ℚ) ^ (E - f.mb) < (2 : ℚ) ^ emin
    nearest (|x| / (2 : ℚ) ^ q) n ∧ r.1 / 2 ^ (f.mb + f.eb) = (if x < 0 then 1 else 0) ∧
    (y ≤ largest f → (∃ m e, f.dec r.1 = .fin (decide (x < 0)) m e ∧ m * (2 : ℚ) ^ e = y) ∧
      (r.2.getLsbD 0 = true ↔ y ≠ |x|) ∧ (r.2.getLsbD 1 = true ↔ y ≠ |x| ∧ tiny) ∧
      r.2.getLsbD 2 = false ∧ r.2.getLsbD 3 = false ∧ r.2.getLsbD 4 = false) ∧
    (largest f < y → r = (signed f (decide (x < 0)) (infMag f), if f.noInf then flSA ||| flNX else flOF ||| flNX))

/-- `r` is the number `x` rounded once; a zero result has the sign `neg`. -/
def exactly (f : FFmt) (x : ℚ) (neg : Bool) (r : Nat × FlagSet) : Prop :=
  (x ≠ 0 → rounded f x r) ∧ (x = 0 → r = (signed f neg 0, 0))

/-- The canonical NaN with NV where an operand is signalling, and the result of an invalid operation (R47). -/
def nanResult (f : FFmt) (signalling : Bool) : Nat × FlagSet := (f.qnan, if signalling then flNV else 0)
/-- An infinite result, exact. -/
def infResult (f : FFmt) (neg : Bool) : Nat × FlagSet := (signed f neg (infMag f), 0)

/-- A sum with a NaN or an infinity among its operands (R47, R196). -/
def sumSpecial (f : FFmt) : FVal → FVal → Option (Nat × FlagSet)
  | .nan s, .nan t => some (nanResult f (s || t))
  | .nan s, _ => some (nanResult f s)
  | _, .nan s => some (nanResult f s)
  | .inf a, .inf b => some (if a = b then infResult f a else nanResult f true)
  | .inf a, _ => some (infResult f a)
  | _, .inf b => some (infResult f b)
  | _, _ => none

/-- A product with a NaN or an infinity among its operands (R47, R196). -/
def productSpecial (f : FFmt) : FVal → FVal → Option (Nat × FlagSet)
  | .nan s, .nan t => some (nanResult f (s || t))
  | .nan s, _ => some (nanResult f s)
  | _, .nan s => some (nanResult f s)
  | .inf a, .inf b => some (infResult f (a != b))
  | .inf a, .fin b m _ => some (if m = 0 then nanResult f true else infResult f (a != b))
  | .fin b m _, .inf a => some (if m = 0 then nanResult f true else infResult f (a != b))
  | _, _ => none

/-- The sign of an infinite product. -/
def infProduct : FVal → FVal → Option Bool
  | .inf a, .inf b => some (a != b)
  | .inf a, .fin b m _ => if m = 0 then none else some (a != b)
  | .fin b m _, .inf a => if m = 0 then none else some (a != b)
  | _, _ => none
/-- A product 0 × ∞. -/
def zeroTimesInf : FVal → FVal → Bool
  | .inf _, .fin _ m _ => m == 0
  | .fin _ m _, .inf _ => m == 0
  | _, _ => false

/-- A fused multiply-add with a NaN or an infinity among its operands (R47, R196): an invalid product whatever the addend. -/
def fmaSpecial (f : FFmt) (x y z : FVal) : Option (Nat × FlagSet) :=
  if zeroTimesInf x y then some (nanResult f true)
  else if x.isNaN || y.isNaN || z.isNaN then some (nanResult f (x.isSNaN || y.isSNaN || z.isSNaN))
  else
    match infProduct x y, z with
    | some p, .inf q => some (if p = q then infResult f p else nanResult f true)
    | some p, _ => some (infResult f p)
    | none, .inf q => some (infResult f q)
    | none, _ => none

/-- The order of values that are no NaN; −0 = +0 (R198). -/
def below : FVal → FVal → Prop
  | .inf true, .inf true => False
  | .inf true, _ => True
  | _, .inf true => False
  | .inf false, _ => False
  | _, .inf false => True
  | x, y => ratio x < ratio y
/-- The order of R197: −0 is below +0. -/
def below0 (x y : FVal) : Prop := below x y ∨ (isFin x ∧ isFin y ∧ ratio x = 0 ∧ ratio y = 0 ∧ x.sign = true ∧ y.sign = false)

/-- The range of a plane, INT or NAT format (R36). -/
def fmtRange (c : Nat) : ℤ × ℤ :=
  match c with
  | 0x00 => (-8, 7) | 0x01 => (-136, 119) | 0x02 => (-2184, 1911) | 0x03 => (-34952, 30583)
  | 0x04 => (0, 15) | 0x05 => (0, 255) | 0x06 => (0, 4095) | 0x07 => (0, 65535)
  | 0x08 => (-128, 127) | 0x09 => (-32768, 32767) | 0x0A => (-2 ^ 31, 2 ^ 31 - 1) | 0x0B => (-2 ^ 63, 2 ^ 63 - 1)
  | 0x0C => (0, 255) | 0x0D => (0, 65535) | 0x0E => (0, 2 ^ 32 - 1)
  | _ => (0, 0)

/-- A value rounded to an integer and saturated to a range, with its flags (R40, R48). -/
def toRange (lo hi : ℤ) (v : FVal) (y : ℤ) (fl : FlagSet) : Prop :=
  (∀ s, v = .nan s → y = 0 ∧ fl = flNV) ∧ (∀ n, v = .inf n → y = (if n then lo else hi) ∧ fl = flSA ||| flNX) ∧
    (isFin v → ∃ z : ℤ, nearest (ratio v) z ∧ (z < lo → y = lo ∧ fl = flSA ||| flNX) ∧ (hi < z → y = hi ∧ fl = flSA ||| flNX) ∧
      (lo ≤ z → z ≤ hi → y = z ∧ fl = if (z : ℚ) = ratio v then 0 else flNX))

/-- The integer `n` packed digits are, d0 highest, balanced or natural (R37, R38). -/
def digitSum (bal : Bool) (n p : Nat) : ℤ :=
  ((List.range n).map fun j =>
    (if bal then (BitVec.ofNat 4 (p / 16 ^ (n - 1 - j))).toInt else ((p / 16 ^ (n - 1 - j) % 16 : ℕ) : ℤ)) * 16 ^ (n - 1 - j)).sum

/-- The float format of a code. -/
def floatOf (c : Nat) : Option FFmt := if c = 0x10 then some bf16 else if c = 0x11 then some fp32 else if c = 0x12 then some fp8 else none

/-- A source element's exact value, by its code (R36, R37, R46). -/
def sourceIs (c bits : Nat) (v : FVal) : Prop :=
  (∀ f, floatOf c = some f → v = f.dec bits) ∧
    (c < 8 → isFin v ∧ ratio v = digitSum (decide (c < 4)) (c % 4 + 1) bits) ∧
    (0x08 ≤ c → c ≤ 0x0B → isFin v ∧ ratio v = (BitVec.ofNat (2 ^ (c - 5)) bits).toInt) ∧
    (0x0C ≤ c → c ≤ 0x0E → isFin v ∧ ratio v = ((bits % 2 ^ 2 ^ (c - 9) : Nat) : ℚ))

/-- An FP32 sum that would overflow saturates, with SA and NX and never OF (R54, R58). -/
def satRounded (x : ℚ) (r : Nat × FlagSet) : Prop :=
  ∃ r0, rounded fp32 x r0 ∧ (r0.2.getLsbD 2 = false → r = r0) ∧
    (r0.2.getLsbD 2 = true → r = (signed fp32 (decide (x < 0)) 0x7F7FFFFF, flSA ||| flNX))

end Sys2Proof.Claims

/-- R46: what an encoding of FP32, BF16 or FP8 means; subnormals are kept. -/
def Sys2Proof.Claims.FloatEncodings : Prop :=
  ∀ f ∈ [fp32, bf16, fp8], ∀ w, w < 2 ^ (1 + f.eb + f.mb) →
    let ex : Nat := w / 2 ^ f.mb % 2 ^ f.eb
    let fr : Nat := w % 2 ^ f.mb
    let neg := decide (w / 2 ^ (f.mb + f.eb) = 1)
    (f = fp8 → ex = 15 → fr = 7 → f.dec w = .nan false) ∧
    (f ≠ fp8 → ex = 2 ^ f.eb - 1 → f.dec w = if fr = 0 then .inf neg else .nan (decide (fr < 2 ^ (f.mb - 1)))) ∧
    ((if f = fp8 then ¬ (ex = 15 ∧ fr = 7) else ex ≠ 2 ^ f.eb - 1) → ∃ m e, f.dec w = .fin neg m e ∧
      m * (2 : ℚ) ^ e = if ex = 0 then fr * (2 : ℚ) ^ (1 - f.bias - f.mb : ℤ)
        else (1 + fr / (2 : ℚ) ^ f.mb) * (2 : ℚ) ^ (ex - f.bias : ℤ))

/-- R9, R46 to R48: the one rounding of every writer of a float. -/
def Sys2Proof.Claims.RoundingIsToNearestEven : Prop :=
  ∀ f ∈ [fp32, bf16, fp8], ∀ (neg : Bool) (m : Nat) (e : ℤ),
    exactly f (ratio (.fin neg m e)) neg (f.round neg m e) ∧ f.enc (.fin neg m e) = f.round neg m e ∧
    f.enc (.inf neg) = (signed f neg (infMag f), if f.noInf then flSA ||| flNX else 0) ∧ f.enc (.nan neg) = nanResult f neg

/-- R47, R196: the arithmetic of FP32 and BF16 is the exact result rounded once, with IEEE's signs of zero, NaNs and infinities. -/
def Sys2Proof.Claims.FloatArithmeticIsExact : Prop :=
  ∀ f ∈ [fp32, bf16], ∀ a b c : Nat,
    let x := f.dec a
    let y := f.dec b
    let z := f.dec c
    (isFin x → isFin y → exactly f (ratio x + ratio y) (x.sign && y.sign) (f.add a b) ∧
      exactly f (ratio x - ratio y) (x.sign && !y.sign) (f.sub a b) ∧
      exactly f (ratio x * ratio y) (x.sign != y.sign) (f.mul a b) ∧
      (isFin z → exactly f (ratio x * ratio y + ratio z) ((x.sign != y.sign) && z.sign) (f.fma a b c))) ∧
    (∀ r, sumSpecial f x y = some r → f.add a b = r) ∧ (∀ r, sumSpecial f x y.neg = some r → f.sub a b = r) ∧
    (∀ r, productSpecial f x y = some r → f.mul a b = r) ∧ (∀ r, fmaSpecial f x y z = some r → f.fma a b c = r)

/-- R46, R47, R196, R197: the floating-point operations of slot B; encodings, the one rounding, and exact arithmetic; NV of zero times infinity plus a quiet NaN, and FP8 NaNs as quiet, are log entry 69. -/
def Obligations.FloatingPointOperations : Prop :=
  Claims.FloatSlotOperations ∧ Claims.FloatEncodings ∧ Claims.RoundingIsToNearestEven ∧ Claims.FloatArithmeticIsExact

/-- R197, R198: minimum, maximum and the compares of FP32 and BF16, with their NV. -/
def Sys2Proof.Claims.FloatOrderResults : Prop :=
  ∀ f ∈ [fp32, bf16], ∀ a b : Nat, a < 2 ^ (1 + f.eb + f.mb) → b < 2 ^ (1 + f.eb + f.mb) →
    let x := f.dec a
    let y := f.dec b
    ((x.isNaN || y.isNaN) = true → (∀ mx, f.minmax mx a b = nanResult f (x.isSNaN || y.isSNaN)) ∧
      f.cmp .eq a b = (false, if x.isSNaN || y.isSNaN then flNV else 0) ∧ f.cmp .lt a b = (false, flNV) ∧ f.cmp .le a b = (false, flNV)) ∧
    ((x.isNaN || y.isNaN) = false →
      (below0 x y → f.minmax false a b = (a, 0) ∧ f.minmax true a b = (b, 0)) ∧
      (below0 y x → f.minmax false a b = (b, 0) ∧ f.minmax true a b = (a, 0)) ∧
      (¬ below0 x y → ¬ below0 y x → a = b ∧ ∀ mx, f.minmax mx a b = (a, 0)) ∧
      (∀ r, (f.cmp r a b).2 = 0) ∧
      ((f.cmp .lt a b).1 = true ↔ below x y) ∧ ((f.cmp .le a b).1 = true ↔ ¬ below y x) ∧
      ((f.cmp .eq a b).1 = true ↔ ¬ below x y ∧ ¬ below y x))

/-- R188, R194, R197, R198, R205: compares and the operations of mask registers, and the order of floating-point values; a float compare into q0 raises NV by log entry 85. -/
def Obligations.ComparesAndMaskOperations : Prop :=
  Claims.ComparesWriteMaskBits ∧ Claims.MaskOperations ∧ Claims.FloatOrderResults

/-- R40, R48, R201, R202: a conversion rounds the exact source value once into its target: a float, an INT or NAT format, or digits. -/
def Sys2Proof.Claims.ConversionsRoundOnce : Prop :=
  (∀ (sc dc bits : Nat), sc ≠ dc → ¬ (sc < 8 ∧ dc < 8) → (sc ≤ 0x0E ∨ (0x10 ≤ sc ∧ sc ≤ 0x12)) → ∃ v, sourceIs sc bits v ∧ decVal sc bits = v ∧
    (∀ f, floatOf dc = some f → (∀ s, v = .nan s → convertVal sc dc bits = nanResult f s) ∧
      (∀ n, v = .inf n → convertVal sc dc bits = (signed f n (infMag f), if f.noInf then flSA ||| flNX else 0)) ∧
      (isFin v → exactly f (ratio v) v.sign (convertVal sc dc bits))) ∧
    (0x08 ≤ dc → dc ≤ 0x0E → ∃ y, toRange (fmtRange dc).1 (fmtRange dc).2 v y (convertVal sc dc bits).2 ∧
      (convertVal sc dc bits).1 = (y % 2 ^ fmtBits dc).toNat) ∧
    (dc < 8 → convertVal sc dc bits = bpEncode (decide (dc < 4)) (dc % 4 + 1) v)) ∧
  (∀ (c bits : Nat), ∀ f, floatOf c = some f → bits < 2 ^ (1 + f.eb + f.mb) → convertVal c c bits =
    if (f.dec bits).isNaN then nanResult f (f.dec bits).isSNaN else (bits, 0)) ∧
  (∀ (sc dc bits : Nat), sc < 8 → dc < 8 → sc ≠ dc → ∃ v, isFin v ∧
    ratio v = digitSum (decide (sc < 4)) (sc % 4 + 1) bits * (16 : ℚ) ^ ((dc % 4 : Nat) - (sc % 4 : Nat) : ℤ) ∧
    convertVal sc dc bits = bpEncode (decide (dc < 4)) (dc % 4 + 1) v) ∧
  (∀ (bal : Bool) (n : Nat) (v : FVal), 1 ≤ n → n ≤ 4 → ∃ y,
    toRange (fmtRange (n - 1 + if bal then 0 else 4)).1 (fmtRange (n - 1 + if bal then 0 else 4)).2 v y (bpEncode bal n v).2 ∧
      (bpEncode bal n v).1 < 16 ^ n ∧ digitSum bal n (bpEncode bal n v).1 = y)

/-- R40, R48, R199 to R202: conversions, the part they name and the one rounding of each element. -/
def Obligations.ConversionsSelectParts : Prop :=
  Claims.ConversionParts ∧ Claims.ConversionsRoundOnce

/-- R220: the entry an interpolation uses, and its result val + slope·f, rounded once. -/
def Sys2Proof.Claims.InterpolationValues : Prop :=
  (∀ x : FVal, (isFin x → itpIndex x = if 16 * ratio x + 128 < 0 then 0 else if 256 ≤ 16 * ratio x + 128 then 255
      else ⌊16 * ratio x + 128⌋.toNat) ∧ (∀ n, x = .inf n → itpIndex x = if n then 0 else 255)) ∧
  ∀ (x v sl : FVal) (entry i : Nat), v = bf16.dec (entry / 65536) → sl = bf16.dec (entry % 65536) → x.isNaN = false →
    ((v.isNaN || sl.isNaN) = true → itpResult x entry i = nanResult bf16 (v.isSNaN || sl.isSNaN)) ∧
    ((v.isNaN || sl.isNaN) = false → ∀ f : FVal,
      (isFin x → isFin f ∧ ratio f = 16 * ratio x + 128 - i ∧ f.sign = decide (ratio f < 0)) → (∀ n, x = .inf n → f = .inf n) →
      (∀ r, fmaSpecial bf16 sl f v = some r → itpResult x entry i = r) ∧
      (isFin x → isFin v → isFin sl → exactly bf16 (ratio v + ratio sl * ratio f) ((sl.sign != f.sign) && v.sign) (itpResult x entry i)))

/-- R54, R55, R58: one block into a scaled accumulator, and a Hadamard sum. A block of integer zero adds nothing; the product is rounded
once, then the sum, and neither overflows; a Hadamard sum is rounded once. -/
def Sys2Proof.Claims.AccumulatorSums : Prop :=
  (∀ (acc ea eb : Nat), accFloat acc 0 ea eb = (acc, 0)) ∧
  (∀ (acc ea eb : Nat) (bi : ℤ), bi ≠ 0 → acc < 2 ^ 32 → ∃ p, satRounded (bi * (2 : ℚ) ^ (ea + eb - 254 : ℤ)) p ∧
    (isFin (fp32.dec acc) → ∃ r, accFloat acc bi ea eb = (r.1, p.2 ||| r.2) ∧
      (ratio (fp32.dec acc) + ratio (fp32.dec p.1) ≠ 0 → satRounded (ratio (fp32.dec acc) + ratio (fp32.dec p.1)) r) ∧
      (ratio (fp32.dec acc) + ratio (fp32.dec p.1) = 0 →
        r = (signed fp32 ((fp32.dec acc).sign && (fp32.dec p.1).sign) 0, 0))) ∧
    (∀ n, fp32.dec acc = .inf n → accFloat acc bi ea eb = (acc, p.2)) ∧
    (∀ n, fp32.dec acc = .nan n → accFloat acc bi ea eb = (fp32.qnan, p.2 ||| if n then flNV else 0))) ∧
  (∀ (l : List (Nat × Bool)) (vs : List FVal), l ≠ [] → vs = l.map (fun p => if p.2 then (fp32.dec p.1).neg else fp32.dec p.1) →
    ((∀ v ∈ vs, isFin v) → ((vs.map ratio).sum ≠ 0 → satRounded (vs.map ratio).sum (hsumFloat l)) ∧
      ((vs.map ratio).sum = 0 → (hsumFloat l).1 % 2 ^ 31 = 0 ∧ (hsumFloat l).2 = 0)) ∧
    ((∃ v ∈ vs, v.isNaN = true) → (hsumFloat l).1 = fp32.qnan) ∧
    ((∀ v ∈ vs, v.isNaN = false) → FVal.inf true ∈ vs → FVal.inf false ∈ vs → hsumFloat l = (fp32.qnan, flNV)) ∧
    (∀ n, (∀ v ∈ vs, v.isNaN = false) → FVal.inf n ∈ vs → FVal.inf (!n) ∉ vs → hsumFloat l = infResult fp32 n))

namespace Sys2Proof.Claims

/-- Stored planes, part, plane count N (or plane J + 1) of a plane operation (R209). -/
def planesOf (f : IForm) : Nat × Nat × Nat := ((layOf (f.imm.toNat / 8)).1, (layOf (f.imm.toNat / 8)).2, f.imm.toNat / 2 % 4 + 1)
/-- The .f32 form of a plane operation. -/
def isF32 (f : IForm) : Prop := f.imm.toNat % 2 = 1
/-- Digit `j` of element `el` of a plane vector of `sp` planes in view `v` (R42, R210). -/
def nib (e : ExIn) (v sp el j : Nat) : Nat :=
  elem e v 1 (planeStride sp * (el / 32) + 16 * j + el % 32 / 2) / 16 ^ (el % 2) % 16
/-- The scale byte of an element's block in view `v` (R209). -/
def scaleOf (e : ExIn) (v el : Nat) : Nat := elem e v 1 (el / 32)
/-- The element's digits as one number, d0 highest. -/
def digitsAt (e : ExIn) (v sp el : Nat) : Nat := ((List.range sp).map fun j => nib e v sp el j * 16 ^ (sp - 1 - j)).sum
/-- Block `b` of part `p` holds a selected element (R213). -/
def touched (e : ExIn) (q : BitVec 3) (p b : Nat) : Prop := ∃ k, maskBit e q k ∧ (64 * p + k) / 32 = b
/-- No scale byte of a touched block marks its block invalid (R45, R210). -/
def scalesOk (e : ExIn) (q : BitVec 3) (v p : Nat) : Prop := ∀ k, maskBit e q k → scaleOf e v (64 * p + k) ≠ 0xFF

/-- `o` writes planes 0 to np − 1 of every touched block, element by element from `new`, the others from their old digits; with three
planes of a `vplwr` also the padding as zero (R213). -/
def writesPlanes (e : ExIn) (o : InFlight) (d sp np p : Nat) (q : BitVec 3) (pad : Prop) (new : Nat → Nat) (fl : Nat → FlagSet) : Prop :=
  let dig (b i j : Nat) : Nat → Prop := fun x =>
    (maskBit e q (32 * b + i - 64 * p) → x = new (32 * b + i - 64 * p) / 16 ^ (sp - 1 - j) % 16) ∧
      (¬ maskBit e q (32 * b + i - 64 * p) → x = nib e d sp (32 * b + i) j)
  o.left = 3 ∧ o.mask = none ∧ o.vx = none ∧ o.swap = none ∧ o.hold = true ∧
    (∀ (a : Nat) (v : Byte), (a, v) ∈ o.bytes ↔
      ∃ b k, touched e q p b ∧ k < 16 ∧
        ((∃ j lo hi, j < np ∧ a = viewAddr e d + planeStride sp * b + 16 * j + k ∧ dig b (2 * k) j lo ∧ dig b (2 * k + 1) j hi ∧
          v = BitVec.ofNat 8 (lo + 16 * hi)) ∨
        (pad ∧ a = viewAddr e d + 64 * b + 48 + k ∧ v = 0))) ∧
    (∀ j, o.flags.getLsbD j = true ↔ ∃ k, maskBit e q k ∧ (fl k).getLsbD j = true)

/-- The issue of a plane write: its blocks are taken from the second port, it enters the pipeline, and nothing else of the device
changes. -/
def completesHeld (s : State) (e : ExIn) (i : Instr) (slot : Nat) (p : InFlight → Prop) : Prop :=
  ∃ o, p o ∧ exec i s = .next (s.setCtx s.focus { (cur s).claim s.clk o with ex := { ((cur s).claim s.clk o).ex with
    pipe := (cur s).ex.pipe ++ [{ o with slot := slot, seq := e.b.seq }], block := some { e.b with seq := e.b.seq + 1 } } })

/-- The codebook expansions of R216: fields, elements, width, the index element k uses, and its value from the entry. -/
def expandRow : Instr → Option (VForm × Nat × Nat × (Nat → Nat → Nat) × (Nat → BitVec 16 → Nat))
  | .vcbxBp16 f => some (f, 64, 4, fun p k => 64 * p + k, fun _ v =>
      (BitVec.ofInt 32 ((v.extractLsb' 12 4).toInt * 4096 + (v.extractLsb' 8 4).toInt * 256 + (v.extractLsb' 4 4).toInt * 16 +
        (v.extractLsb' 0 4).toInt)).toNat)
  | .vcbxBf f => some (f, 128, 2, fun p k => 128 * p + k, fun _ v => v.toNat)
  | .vcbxVq4 f => some (f, 64, 4, fun p k => 16 * p + k / 4, fun k v => (BitVec.ofInt 32 (v.extractLsb' (4 * (k % 4)) 4).toInt).toNat)
  | _ => none

/-- Index `t` of `w` bits of a view's index stream (R215, R50). -/
def indexOf (e : ExIn) (v w t : Nat) : Nat := leNat (e.x.poolGet e.clk (viewAddr e v) 256) / 2 ^ (w * t) % 2 ^ w

/-- The lanes a port holds from its cursor on. -/
def portLanes (p : Port) : List Nat := (p.entries.flatMap PortEntry.lanes).drop p.cursor

/-- Nothing of the running block changes but what `f` says. -/
def blockBecomes (s : State) (b : RunBlock) : State :=
  s.setCtx s.focus { cur s with ex := { (cur s).ex with block := some b } }

/-- An execute fault: the record, WHERE the block and its bundle, the core halted (R182 to R184). -/
def exFaulted (s t : State) (e : ExIn) (code : Nat) (det1 : W64) : Prop :=
  (∃ det0, recorded s t e.c 1 code 0 0 det0 det1) ∧ (t.ctx e.c).ex.halted = true ∧ (t.ctx e.c).ex.block = some e.b ∧ t.mem = s.mem

end Sys2Proof.Claims

/-- R209, R210: `vplrd` reads the leading planes of the elements of its part, as integers, or scaled and rounded once to FP32. -/
def Sys2Proof.Claims.PlaneReadValues : Prop :=
  ∀ (s : State) (e : ExIn) (f : IForm) (sp p n d a : Nat), slotReads s e → (sp, p, n) = planesOf f → d = e.view f.d f.x →
    a = e.view f.a f.x → viewsOk e [d, a] →
    let v (k : Nat) : Int := ((List.range (min n sp)).map fun j =>
      (BitVec.ofNat 4 (nib e a sp (64 * p + k) j)).toInt * 16 ^ (sp - 1 - j)).sum
    (¬ isF32 f → completesWith s e (.vplrd f) 0 fun o =>
      writesElems o 3 (viewAddr e d) 4 64 (maskBit e f.q) (fun k => (BitVec.ofInt 32 (v k)).toNat) fun _ => 0) ∧
    (isF32 f → viewsOk e [a + 1] → scalesOk e f.q (a + 1) p → completesWith s e (.vplrd f) 0 fun o =>
      let r (k : Nat) : Nat × FlagSet := fp32.round (decide (v k < 0)) (v k).natAbs ((scaleOf e (a + 1) (64 * p + k) : Int) - 127)
      writesElems o 3 (viewAddr e d) 4 64 (maskBit e f.q) (fun k => (r k).1) fun k => (r k).2)

/-- R213: what a plane write's issue takes from the second port: nothing where that port has not written in this clock; a byte it wrote in
this clock into a block of the write has its value from before the clock again, and the written one is held for it. -/
def Sys2Proof.Claims.PlaneWritesClaimBlocks : Prop :=
  ∀ (x : Context) (clk : Nat) (o : InFlight),
    (o.hold = false ∨ (x.noteAt clk).prior = [] → x.claim clk o = x) ∧
    (∀ (a : Nat) (v b : Byte), o.hold = true → (a, b) ∈ o.bytes → (a, v) ∈ (x.noteAt clk).prior → a ∉ (x.noteAt clk).exw →
      (∀ c ∈ (x.noteAt clk).prior, c.1 = a → c.2 = v) →
      memGet (x.claim clk o).pool a = v ∧ ∃ h ∈ (x.claim clk o).ex.held, h.addr = a ∧ h.byte = memGet x.pool a ∧
        ∀ w, (x.noteAt clk).second.find? (fun c => c.1 == a) = some (a, w) → h.src = w) ∧
    (∀ a, (∀ v, (a, v) ∉ (x.noteAt clk).prior) → memGet (x.claim clk o).pool a = memGet x.pool a)

/-- R43, R213: at the start of a clock a held write of which no plane write bars any byte of its block lands, and this clock is then its
copy command's last write to the pool (R239); the others stay held. -/
def Sys2Proof.Claims.HeldWritesLand : Prop :=
  ∀ (x : Context) (clk : Nat) (h : HeldWrite), h ∈ x.ex.held → (∀ g ∈ x.ex.held, g.addr = h.addr → g.byte = h.byte) →
    ((∀ g ∈ x.ex.held, g.addr / 64 = h.addr / 64 → x.heldByte g.addr = false) →
      memGet (x.landHeld clk).pool h.addr = h.byte ∧ h ∉ (x.landHeld clk).ex.held ∧
      ∀ (r : CpRun) (k : Nat), h.src = .cp r.num → x.cp.runs[k]? = some r →
        (x.landHeld clk).cp.runs[k]? = some { r with wclk := clk }) ∧
    ((∃ g ∈ x.ex.held, g.addr / 64 = h.addr / 64 ∧ x.heldByte g.addr = true) → h ∈ (x.landHeld clk).ex.held)

/-- R41, R211 to R213: `vplwr` writes whole blocks: the encoded digits of each selected element, rounded once, the others as they were;
and `vpladd` adds a clamped delta into plane J: the signed digits of planes 0 to J, each from −8 to 7, then add up to the old sum plus
the delta, with carries toward plane 0, or to the end of their range where the sum passes it, with SA. -/
def Sys2Proof.Claims.PlaneWriteValues : Prop :=
  ∀ (s : State) (e : ExIn) (f : IForm) (sp p n d a : Nat), slotReads s e → (sp, p, n) = planesOf f → d = e.view f.d f.x →
    a = e.view f.a f.x → viewsOk e [d, a] →
    (∀ x : Nat → FVal,
      (isF32 f → viewsOk e [d + 1] ∧ scalesOk e f.q (d + 1) p ∧
        ∀ k, x k = (fp32.dec (elem e a 4 k)).scale (127 - (scaleOf e (d + 1) (64 * p + k) : Int))) →
      (¬ isF32 f → ∀ k, x k = FVal.ofInt (lane32 e a k).toInt) →
      completesHeld s e (.vplwr f) 0 fun o =>
        let r (k : Nat) : Nat × FlagSet := bpEncode true (min n sp) ((x k).scale (-4 * ((sp - min n sp : Nat) : Int)))
        writesPlanes e o d sp sp p f.q (sp = 3) (fun k => (r k).1 * 16 ^ (sp - min n sp)) fun k => (r k).2) ∧
    ((Instr.vpladd f).wf = true → completesHeld s e (.vpladd f) 0 fun o =>
      let x (k : Nat) : Int := (lane32 e a k).toInt
      let dl (k : Nat) : Int := if x k < -8 then -8 else if 7 < x k then 7 else x k
      let ones : Int := ((List.range n).map fun i => (16 : Int) ^ i).sum
      let sumOf (d : Nat → Nat) : Int := ((List.range n).map fun j => (BitVec.ofNat 4 (d j)).toInt * 16 ^ (n - 1 - j)).sum
      let u (k : Nat) : Int := sumOf (nib e d sp (64 * p + k)) + dl k
      ∃ (new : Nat → Nat) (fl : Nat → FlagSet), writesPlanes e o d sp n p f.q False new fl ∧ ∀ k, maskBit e f.q k →
        sumOf (fun j => new k / 16 ^ (sp - 1 - j) % 16) = (if u k < -8 * ones then -8 * ones else if 7 * ones < u k then 7 * ones else u k) ∧
        fl k = if dl k = x k ∧ -8 * ones ≤ u k ∧ u k ≤ 7 * ones then 0 else flSA)

/-- R43, R209 to R213: plane reads and plane writes, and what they take from the second port. -/
def Obligations.PlanesReadAndWrite : Prop :=
  Claims.PlaneReadValues ∧ Claims.PlaneWriteValues ∧ Claims.PlaneWritesClaimBlocks ∧ Claims.HeldWritesLand

/-- R215 to R219: an expansion writes the entries of the front side its indices name, all used indices being valid; `cbswap` will
exchange the sides of its bank. -/
def Sys2Proof.Claims.CodebookExpansionAndSwap : Prop :=
  ∀ (s : State) (e : ExIn), slotReads s e →
    (∀ i f n w idx val, expandRow i = some (f, n, w, idx, val) → viewsOk e [vd e f, va e f] →
      let side := e.x.frontSide e.clk (f.b.toNat % 4)
      let iw := idxWidth (f.b.toNat / 4 % 4)
      let at_ (k : Nat) : Nat := indexOf e (va e f) iw (idx (f.b.toNat / 16) k)
      (∀ k, k < n → maskBit e f.q (k * 64 / n) → at_ k < side.2) →
      completesWith s e i 1 fun o =>
        writesElems o 3 (viewAddr e (vd e f)) w n (fun k => maskBit e f.q (k * 64 / n)) (fun k => val k (side.1.getD (at_ k) 0)) fun _ => 0) ∧
    (∀ f : WForm, completesWith s e (.cbswap f) 1 fun o => o = { InFlight.start 1 with swap := some (f.d.toNat % 4) })

/-- R220: an interpolation of the elements whose entries are valid; a NaN element gives the canonical NaN and uses no entry. -/
def Sys2Proof.Claims.TableInterpolation : Prop :=
  ∀ (s : State) (e : ExIn) (f : VForm), slotReads s e → viewsOk e [vd e f, va e f] →
    let tb := e.x.tables.getD (f.b.toNat % 4) ITable.reset
    let x (j : Nat) : FVal := bf16.dec (elem e (va e f) 2 j)
    (∀ j, j < 128 → maskBit e f.q (j / 2) → (x j).isNaN = false → itpIndex (x j) < tb.valid) →
    completesWith s e (.vitpBf f) 1 fun o =>
      let r (j : Nat) : Nat × FlagSet :=
        if (x j).isNaN then (0x7FC0, if (x j).isSNaN then flNV else 0)
        else itpResult (x j) (tb.entries.getD (itpIndex (x j)) 0).toNat (itpIndex (x j))
      writesElems o 6 (viewAddr e (vd e f)) 2 128 (fun j => maskBit e f.q (j / 2)) (fun j => (r j).1) fun j => (r j).2

/-- R215 to R220: codebook expansion, the swap of sides, and interpolation. -/
def Obligations.CodebooksAndTablesExpand : Prop :=
  Claims.CodebookExpansionAndSwap ∧ Claims.TableInterpolation ∧ Claims.InterpolationValues

/-- R207: the register moves of slot D. -/
def Sys2Proof.Claims.SlotMoves : Prop :=
  ∀ (s : State) (e : ExIn), slotReads s e →
    (∀ f : VForm, viewsOk e [vd e f, va e f] → completesWith s e (.vmov f) 3 fun o =>
      writesElems o 1 (viewAddr e (vd e f)) 4 64 (maskBit e f.q) (fun k => elem e (va e f) 4 k) fun _ => 0) ∧
    (∀ f : WForm, viewsOk e [e.view f.d f.x] → completesWith s e (.vmovi f) 3 fun o =>
      writesElems o 1 (viewAddr e (e.view f.d f.x)) 4 64 (maskBit e f.q) (fun _ => (f.imm.signExtend 32).toNat) fun _ => 0) ∧
    (∀ f : VForm, viewsOk e [vd e f] → completesWith s e (.vmovmb f) 3 fun o =>
      writesElems o 1 (viewAddr e (vd e f)) 4 64 (maskBit e f.q) (fun _ => (e.b.mb.getD (f.a.toNat % 8) 0).toNat) fun _ => 0) ∧
    (∀ (f : VForm) (l : LoopCtr), viewsOk e [vd e f] → e.b.lc[f.a.toNat % 4]? = some l → completesWith s e (.vmovlc f) 3 fun o =>
      writesElems o 1 (viewAddr e (vd e f)) 4 64 (maskBit e f.q) (fun _ => if l.active then l.count.toNat else 0) fun _ => 0)

/-- R222 to R224: a pop takes the next lanes of its input port, a push appends the selected lanes to its output port. -/
def Sys2Proof.Claims.StreamPopsAndPushes : Prop :=
  ∀ (s : State) (e : ExIn) (f : VForm), slotReads s e → (cur s).ports.length = 16 →
    (viewsOk e [vd e f] → ∀ p, p = (cur s).port (f.a.toNat % 16) → p.dir ≠ some true →
      (64 ≤ p.supply s.clk → ∃ o t, exec (.vpop f) s = .next t ∧ (cur t).ex.pipe = (cur s).ex.pipe ++ [o] ∧ o.slot = 3 ∧
        portLanes ((cur t).port (f.a.toNat % 16)) = (portLanes p).drop 64 ∧
        writesElems o 1 (viewAddr e (vd e f)) 4 64 (maskBit e f.q) (fun k => (portLanes p).getD k 0) fun _ => 0) ∧
      (∀ m, m = maskLanes (e.mask f.q) → m.length ≤ p.supply s.clk →
        ∃ o t, exec (.vpopx f) s = .next t ∧ (cur t).ex.pipe = (cur s).ex.pipe ++ [o] ∧ o.slot = 3 ∧
        portLanes ((cur t).port (f.a.toNat % 16)) = (portLanes p).drop m.length ∧
        writesElems o 1 (viewAddr e (vd e f)) 4 64 (maskBit e f.q) (fun k => (portLanes p).getD (m.countP fun j => decide (j < k)) 0)
          fun _ => 0)) ∧
    (viewsOk e [va e f] → ∀ p, p = (cur s).port (f.d.toNat % 16) → p.dir = some true → p.entries.length < p.depth →
      (∃ t en, exec (.vpush f) s = .next t ∧ en.lanes = (List.range 64).map (elem e (va e f) 4) ∧ en.born = s.clk ∧
        t = s.setCtx s.focus ((cur s).setPort (f.d.toNat % 16) { p with entries := p.entries ++ [en] })) ∧
      (maskLanes (e.mask f.q) ≠ [] → ∃ t en, exec (.vpushc f) s = .next t ∧
        en.lanes = (maskLanes (e.mask f.q)).map (elem e (va e f) 4) ∧ en.born = s.clk ∧
        t = s.setCtx s.focus ((cur s).setPort (f.d.toNat % 16) { p with entries := p.entries ++ [en] })))

/-- R157, R207, R222 to R225: moves of slot D, stream pops and pushes; a push to a port whose binding has ended is taken (log entry 84). -/
def Obligations.StreamsAndSlotMoves : Prop :=
  Claims.SlotMoves ∧ Claims.StreamPopsAndPushes

/-- R170, R226: a loop operation opens its counter over the bundles after its own; with a zero count the body is skipped. -/
def Sys2Proof.Claims.LoopsOpenOrSkip : Prop :=
  ∀ (s : State) (e : ExIn) (f : LForm) (b : RunBlock → W32 → RunBlock), slotReads s e → e.b.loopBad f.lc.toNat f.len.toNat = false →
    (∀ u c, c ≠ 0 → b u c = { u with lc := u.lc.set f.lc.toNat ⟨true, c, u.off + 1, u.off + f.len.toNat⟩ }) →
    (∀ u, b u 0 = { u with jump := some (u.off + f.len.toNat) }) →
    exec (.loop f) s = .next (blockBecomes s (b e.b (BitVec.ofNat 32 f.cnt.toNat))) ∧
    exec (.loopm f) s = .next (blockBecomes s (b e.b (e.b.mb.getD (f.cnt.toNat % 8) 0))) ∧
    (∀ p v r, (cur s).ports.length = 16 → p = (cur s).port (f.cnt.toNat % 16) → p.dir ≠ some true → 1 ≤ p.supply s.clk →
      portLanes p = v :: r →
      ∃ t, exec (.loopc f) s = .next t ∧ (cur t).ex.block = some (b e.b (BitVec.ofNat 32 v)) ∧
        ((cur t).port (f.cnt.toNat % 16)).entries = p.entries.tail ∧ ((cur t).port (f.cnt.toNat % 16)).cursor = 0)

/-- R181, R228 to R230, R173: VX, semaphores and feedback in slot D, the fields of a feedback entry, and the idle slot. -/
def Sys2Proof.Claims.IndexSemaphoreFeedbackSlots : Prop :=
  (∀ s : State, exec .exNop s = .next s) ∧
  ∀ (s : State) (e : ExIn), slotReads s e →
    (∀ f : WForm, completesWith s e (.vxi f) 3 fun o => o = { InFlight.start 1 with vx := some f.imm.toNat }) ∧
    (∀ (f : WForm) (v : Nat), (v : Int) = e.b.vx + f.imm.toInt → v ≤ 127 →
      completesWith s e (.vxa f) 3 fun o => o = { InFlight.start 1 with vx := some v }) ∧
    (∀ f : WForm, e.b.vx + f.imm.toInt < 0 ∨ 127 < e.b.vx + f.imm.toInt →
      ∃ t, exec (.vxa f) s = .next t ∧ ∃ det1, exFaulted s t e 0x0302 det1) ∧
    (∀ (f : WForm) (n : BitVec 4) (v tested : Nat), n.toNat = f.d.toNat % 16 → v = f.imm.toNat →
      tested = semOf (cur s) n + ((cur s).noteAt s.clk).taken.getD n.toNat 0 →
      (v ≤ semOf (cur s) n → ∃ t, exec (.semw f) s = .next t ∧
        ∀ m, semOf (cur t) m = if m = n then semOf (cur s) n - v else semOf (cur s) m) ∧
      (tested + v ≤ 65535 → ∃ t, exec (.sems f) s = .next t ∧
        ∀ m, semOf (cur t) m = if m = n then semOf (cur s) n + v else semOf (cur s) m) ∧
      (65535 < tested + v → ∃ t, exec (.sems f) s = .next t ∧
        exFaulted s t e 0x0306 (BitVec.ofNat 64 (v * 2 ^ 16 + tested)))) ∧
    (∀ f : IForm, viewsOk e [e.view f.a f.x] → (cur s).run ≠ .done → (cur s).fb.length < 16 →
      ∃ w : BitVec 48, exec (.fbput f) s = .next (s.setCtx s.focus { cur s with fb := (cur s).fb ++ [(w, s.clk)] }) ∧
        w.extractLsb' 40 8 = BitVec.ofNat 8 f.imm.toNat ∧
        ((∀ k, ¬ maskBit e f.q k) → w.extractLsb' 32 8 = 0xFF ∧ w.extractLsb' 0 32 = 0) ∧
        ∀ k, maskBit e f.q k → (∀ j, j < k → ¬ maskBit e f.q j) →
          w.extractLsb' 32 8 = BitVec.ofNat 8 k ∧ w.extractLsb' 0 32 = lane32 e (e.view f.a f.x) k)

/-- R170 to R172, R178, R181, R226 to R230: loops, VX, semaphores and feedback in slot D. -/
def Obligations.LoopsIndexAndSemaphoreSlots : Prop :=
  Claims.LoopsOpenOrSkip ∧ Claims.IndexSemaphoreFeedbackSlots

/-- R165 to R167: a clock in which slot D's operation cannot issue counts one slip, in the block and in SLIPC, and changes nothing else: a
pop or `loopc` without lanes, a push without room, a `semw` below its amount, a `fbput` at a full queue. -/
def Sys2Proof.Claims.FrozenClocksCountSlips : Prop :=
  ∀ (s : State) (e : ExIn), slotReads s e →
    let frozen : State := s.setCtx s.focus { cur s with
      ex := { (cur s).ex with block := some { e.b with slip := e.b.slip + 1 } }, slipc := (cur s).slipc + 1 }
    (∀ f : VForm, viewsOk e [vd e f] → ((cur s).port (f.a.toNat % 16)).dir ≠ some true →
      (((cur s).port (f.a.toNat % 16)).supply s.clk < 64 → exec (.vpop f) s = .next frozen) ∧
      (((cur s).port (f.a.toNat % 16)).supply s.clk < (maskLanes (e.mask f.q)).length → exec (.vpopx f) s = .next frozen)) ∧
    (∀ f : VForm, viewsOk e [va e f] → ((cur s).port (f.d.toNat % 16)).dir = none ∨
      (((cur s).port (f.d.toNat % 16)).dir = some true ∧
        ((cur s).port (f.d.toNat % 16)).depth ≤ ((cur s).port (f.d.toNat % 16)).entries.length) →
      exec (.vpush f) s = .next frozen ∧ (maskLanes (e.mask f.q) ≠ [] → exec (.vpushc f) s = .next frozen)) ∧
    (∀ f : LForm, e.b.loopBad f.lc.toNat f.len.toNat = false → ((cur s).port (f.cnt.toNat % 16)).dir ≠ some true →
      ((cur s).port (f.cnt.toNat % 16)).supply s.clk = 0 → exec (.loopc f) s = .next frozen) ∧
    (∀ (f : WForm) (n : BitVec 4), n.toNat = f.d.toNat % 16 → semOf (cur s) n < f.imm.toNat → exec (.semw f) s = .next frozen) ∧
    (∀ f : IForm, viewsOk e [e.view f.a f.x] → (cur s).run ≠ .done → 16 ≤ (cur s).fb.length → exec (.fbput f) s = .next frozen)

/-- R160, R161, R159: a block at one of the two head positions is fetched, starts once no other runs, and completes in the clock in
which its last operation has retired, leaving its queue entry and SLIPL. -/
def Sys2Proof.Claims.BlocksFetchStartAndComplete : Prop :=
  (∀ (s : State) (c : CtxId) (j : Job) (h : ExEntry) (r : List ExEntry), (s.ctx c).job = some j → (s.ctx c).exq = h :: r →
    (∀ u ∈ (s.ctx c).ex.buffer, u.blk ≠ h.blk) →
    ∃ t, exec (.blockFetch c) s = .next t ∧ t.mem = s.mem ∧
      ∃ u ∈ (t.ctx c).ex.buffer, u.blk = h.blk ∧ u.bundles = s.blockBundles j.k h.blk) ∧
  (∀ (s : State) (c : CtxId) (j : Job) (h h2 : ExEntry) (r : List ExEntry) (u : BlockBuf), (s.ctx c).job = some j →
    (s.ctx c).exq = h :: h2 :: r → u ∈ (s.ctx c).ex.buffer → u.blk = h.blk → (∀ v ∈ (s.ctx c).ex.buffer, v.blk ≠ h2.blk) →
    ∃ t, exec (.blockFetch c) s = .next t ∧ t.mem = s.mem ∧ u ∈ (t.ctx c).ex.buffer ∧
      ∃ v ∈ (t.ctx c).ex.buffer, v.blk = h2.blk ∧ v.bundles = s.blockBundles j.k h2.blk) ∧
  (∀ (s : State) (c : CtxId) (h : ExEntry) (r : List ExEntry) (u : BlockBuf), (s.ctx c).exq = h :: r → (s.ctx c).ex.halted = false →
    (s.ctx c).ex.block = none → (s.ctx c).ex.buffer.find? (fun v => v.blk == h.blk) = some u →
    ∃ t b, exec (.blockStart c) s = .next t ∧ t = s.setCtx c { s.ctx c with ex := { (s.ctx c).ex with block := some b } } ∧
      b.blk = h.blk ∧ b.bundles = u.bundles ∧ b.off = 0 ∧ b.vx = 0 ∧ b.slip = 0 ∧ b.mb = h.mb ∧ ∀ l ∈ b.lc, l.active = false) ∧
  (∀ (s : State) (c : CtxId) (b : RunBlock), (s.ctx c).ex.block = some b → b.draining = true → (s.ctx c).ex.pipe = [] →
    (s.ctx c).ex.halted = false →
    exec (.blockComplete c) s = .next (s.setCtx c { s.ctx c with
      exq := (s.ctx c).exq.tail, ex := { (s.ctx c).ex with block := none }, slipBlk := BitVec.ofNat 16 b.blk,
      slipCnt := BitVec.ofNat 32 b.slip }))

/-- R162, R164, R188, R218, R219: an operation whose latency has run writes its bytes and mask bits, sets VX, exchanges the sides of the
bank a `cbswap` names and of no other, and raises its flags; the others stay in flight. FLG shows the flags from the next clock on. -/
def Sys2Proof.Claims.OperationsRetire : Prop :=
  ∀ (s : State) (c : CtxId) (o : InFlight) (rest : List InFlight), (s.ctx c).ex.pipe = o :: rest → o.left = 0 → o.slot < 4 →
    (∀ p ∈ rest, p.left ≠ 0) → (s.ctx c).ex.held = [] →
    ∃ t, exec (.operationRetire c) s = .next t ∧ (t.ctx c).ex.pipe = rest ∧
      (∀ a, (∀ b, (a, b) ∉ o.bytes) → memGet (t.ctx c).pool a = memGet (s.ctx c).pool a) ∧
      (∀ a b, (a, b) ∈ o.bytes → (∀ b', (a, b') ∈ o.bytes → b' = b) → memGet (t.ctx c).pool a = b) ∧
      (∀ q m v, o.mask = some (q, m, v) → q < 8 → (t.ctx c).ex.q.getD q 0 = ((s.ctx c).ex.q.getD q 0 &&& ~~~m) ||| (v &&& m)) ∧
      (∀ q, (∀ m v, o.mask ≠ some (q, m, v)) → (t.ctx c).ex.q.getD q 0 = (s.ctx c).ex.q.getD q 0) ∧
      (∀ v b, o.vx = some v → (s.ctx c).ex.block = some b → (t.ctx c).ex.block = some { b with vx := v }) ∧
      (o.vx = none → (t.ctx c).ex.block = (s.ctx c).ex.block) ∧
      (∀ k m b, o.swap = some k → (s.ctx c).banks[m]? = some b →
        (t.ctx c).banks[m]? = some (if m = k then { b with sel := { b.sel with front := !b.sel.front } } else b)) ∧
      (o.swap = none → (t.ctx c).banks = (s.ctx c).banks) ∧
      (t.ctx c).flg = (s.ctx c).flg ∧ (t.ctx c).flgNew = (s.ctx c).flgNew ||| BitVec.ofNat 15 o.flags.toNat ∧
      (∀ clk, ((t.ctx c).newClock clk).flg = (t.ctx c).flg ||| (t.ctx c).flgNew ∧ ((t.ctx c).newClock clk).flgNew = 0) ∧
      (t.ctx c).x = (s.ctx c).x ∧ t.mem = s.mem

/-- R161 to R167: blocks are fetched, start, freeze and complete; operations retire. -/
def Obligations.BlocksRunAndOperationsRetire : Prop :=
  Claims.BlocksFetchStartAndComplete ∧ Claims.OperationsRetire ∧ Claims.FrozenClocksCountSlips

namespace Sys2Proof.Claims

/-- The views a slot's operation reads or writes, in the order D, A, B of its fields, with the view after one that holds block scales
(R156, R209). -/
def viewRow (e : ExIn) (i : Instr) : Option (List Nat) :=
  match intRow i, floatRow i, moveRow2 i with
  | some (f, _), _, _ => some [vd e f, va e f, vb e f]
  | _, some (f, _), _ => some [vd e f, va e f, vb e f]
  | _, _, some (f, _) => some [vd e f, va e f, vb e f]
  | none, none, none =>
    match moveRow i, expandRow i, redRow i, cvtRow i with
    | some (_, f, _), _, _, _ => some [e.view f.d f.x, e.view f.a f.x]
    | _, some (f, _), _, _ => some [vd e f, va e f]
    | _, _, some (f, _), _ => some [vd e f, va e f]
    | _, _, _, some (f, _) => some [vd e f, va e f]
    | none, none, none, none =>
      match i with
      | .vceqI32 f | .vcltI32 f | .vcleI32 f | .vcltN32 f | .vceqF32 f | .vcltF32 f | .vcleF32 f => some [va e f, vb e f]
      | .vsel f => some [vd e f, va e f, vb e f]
      | .vitpBf f | .vmov f => some [vd e f, va e f]
      | .vmovmb f | .vmovlc f | .vpop f | .vpopx f => some [vd e f]
      | .qset f | .vpush f | .vpushc f => some [va e f]
      | .vmovi f => some [e.view f.d f.x]
      | .fbput f => some [e.view f.a f.x]
      | .vplrd f => some ([e.view f.d f.x, e.view f.a f.x] ++ if f.imm.toNat % 2 = 1 then [e.view f.a f.x + 1] else [])
      | .vplwr f => some ([e.view f.d f.x, e.view f.a f.x] ++ if f.imm.toNat % 2 = 1 then [e.view f.d f.x + 1] else [])
      | .vpladd f => some [e.view f.d f.x, e.view f.a f.x]
      | _ => none

/-- A loop operation of counter `n` and `e` bundles breaks R172: its counter is active, all four are, its body ends beyond the block, or
beyond an active loop. -/
def loopBreaks (b : RunBlock) (n e : Nat) : Prop :=
  (∃ l, b.lc[n]? = some l ∧ l.active = true) ∨ (∀ l ∈ b.lc, l.active = true) ∨ b.bundles.length ≤ b.off + e ∨
    ∃ l ∈ b.lc, l.active = true ∧ l.last < b.off + e

/-- No fault has stopped an engine of the context that a freeze could wait for (R33). -/
def enginesGoOn (x : Context) : Prop :=
  x.failed = false ∧ x.run ≠ .halt ∧ x.run ≠ .stall ∧ x.mx.halted = false ∧ x.cp.halted = false ∧ ∀ b ∈ x.cp.binds, (x.bindRun b).isSome = true

/-- The port a slot-D operation pops from or pushes to. -/
def portOf : Instr → Option Nat
  | .vpop f | .vpopx f => some (f.a.toNat % 16)
  | .vpush f | .vpushc f => some (f.d.toNat % 16)
  | .loopc f => some (f.cnt.toNat % 16)
  | _ => none

/-- What the freeze of a slot-D operation waits for comes from an engine that a fault has stopped (R33): every engine, once the item has
ended in a fault; the sequencer, of the feedback queue, of a port that has no binding and no queued bind, and of a semaphore that no matrix
command is to signal; the matrix engine, of a semaphore that one of its commands is to signal. -/
def supplyHalted (x : Context) (i : Instr) : Prop :=
  x.failed = true ∨ (x.run = .halt ∧ ((∃ f, i = .fbput f) ∨ (∃ f, i = .semw f ∧ x.mxSignals (f.d.toNat % 16) = false) ∨
      ∃ p, portOf i = some p ∧ x.binding (BitVec.ofNat 4 p) = none ∧ x.bindQueued p = false)) ∨
    (∃ f, i = .semw f ∧ x.mxSignals (f.d.toNat % 16) = true ∧ x.mx.halted = true) ∨
    ∃ p b, portOf i = some p ∧ x.binding (BitVec.ofNat 4 p) = some b ∧ x.bindRun b = none

/-- What it waits for comes from an engine that goes on, whatever fault has stopped another (R33, R260): the active binding of its port,
or no fault has stopped any. -/
def supplyGoesOn (x : Context) (i : Instr) : Prop :=
  enginesGoOn x ∨ (x.failed = false ∧ ∃ p b r, portOf i = some p ∧ x.binding (BitVec.ofNat 4 p) = some b ∧ x.bindRun b = some r)

/-- The freeze condition of R165 as R183 numbers it, by slot D's opcode. -/
def frozenBy (b : RunBlock) : Nat :=
  match b.bundle.toNat / 2 ^ 121 with
  | 0x01 => 1 | 0x04 => 1 | 0x12 => 2 | 0x02 => 3 | 0x03 => 3 | 0x20 => 4 | _ => 5

end Sys2Proof.Claims

/-- R156, R168, R183: a view beyond the kernel's is a view-range fault of any operation that reaches it; and a strict block past its slip
budget faults in a frozen clock, unless what it waits for comes from an engine that a fault has stopped (R33; which engine supplies what:
log entry 91). -/
def Sys2Proof.Claims.ViewAndBudgetFaults : Prop :=
  (∀ (s : State) (e : ExIn) (i : Instr) (l : List Nat), slotReads s e → viewRow e i = some l → ¬ viewsOk e l →
    ∃ t, exec i s = .next t ∧ ∃ v ∈ l, (128 ≤ v ∨ e.j.k.vn ≤ v) ∧
      exFaulted s t e 0x0302 (BitVec.ofNat 64 (e.j.k.vn % 256 * 256 + v % 256))) ∧
  (∀ (s : State) (c : CtxId) (j : Job) (b : RunBlock) (i : Instr), (s.ctx c).job = some j → (s.ctx c).ex.block = some b →
    b.draining = false → j.strict = true → (s.ctx c).ex.halted = false → j.slipb < b.slip →
    decode .slotD (slotWord b.bundle 3) = some i →
    (∀ u, exec i { s with focus := c } = .next u → (∀ d, (u.ctx c).ex.block = some d → d.slip = b.slip) →
      exec (.slipBudgetFault c) s = .next s) ∧
    (∀ u d, exec i { s with focus := c } = .next u → (u.ctx c).ex.block = some d → b.slip < d.slip →
      (supplyGoesOn (s.ctx c) i → ∃ t, exec (.slipBudgetFault c) s = .next t ∧ (t.ctx c).ex.halted = true ∧
        ∃ det0, recorded s t c 1 0x0304 0 0 det0 (BitVec.ofNat 64 (b.slip % 2 ^ 32 * 2 ^ 32 + frozenBy b))) ∧
      (supplyHalted (s.ctx c) i → exec (.slipBudgetFault c) s = .next s)))

/-- R51, R45, R172, R179, R183, R225: the other execute faults, each with its DETAIL1: the illegal bundle at its lowest illegal slot, a
loop that breaks R172, a port of the other direction, an index or a table entry at or above its valid count, the lowest used one, and a
block that its scale byte marks invalid, the lowest touched one. -/
def Sys2Proof.Claims.OtherExecuteFaults : Prop :=
  (∀ (s : State) (c : CtxId) (b : RunBlock) (k : Nat), (s.ctx c).ex.block = some b →
    illegalSlot (bundleInstrs b.bundle) 0 = some k →
    (s.blockClock c b).mem = s.mem ∧ ((s.blockClock c b).ctx c).ex.halted = true ∧ ((s.blockClock c b).ctx c).ex.block = some b ∧
      recorded s (s.blockClock c b) c 1 0x0301 0 0
        (BitVec.ofNat 64 (slotWord b.bundle k * 2 ^ 32 + k * 2 ^ 16 + b.icyc % 65536)) 0) ∧
  ∀ (s : State) (e : ExIn), slotReads s e →
    (∀ (f : LForm) (i : Instr), i = .loop f ∨ i = .loopm f ∨ i = .loopc f → e.b.lc.length = 4 →
      loopBreaks e.b f.lc.toNat f.len.toNat → ∃ t m, exec i s = .next t ∧ (∀ k, k < 4 → (m.testBit k = true ↔
        ∃ l, e.b.lc[k]? = some l ∧ l.active = true)) ∧ m < 16 ∧ exFaulted s t e 0x0303 (BitVec.ofNat 64 (m * 16 + f.lc.toNat))) ∧
    (∀ f : VForm, viewsOk e [vd e f] → ((cur s).port (f.a.toNat % 16)).dir = some true → ∀ i, i = .vpop f ∨ i = .vpopx f →
      ∃ t, exec i s = .next t ∧ exFaulted s t e 0x0305 (BitVec.ofNat 64 (f.a.toNat % 16))) ∧
    (∀ f : VForm, viewsOk e [va e f] → ((cur s).port (f.d.toNat % 16)).dir = some false → ∀ i, i = .vpush f ∨ i = .vpushc f →
      ∃ t, exec i s = .next t ∧ exFaulted s t e 0x0305 (BitVec.ofNat 64 (f.d.toNat % 16))) ∧
    (∀ f : LForm, e.b.loopBad f.lc.toNat f.len.toNat = false → ((cur s).port (f.cnt.toNat % 16)).dir = some true →
      ∃ t, exec (.loopc f) s = .next t ∧ exFaulted s t e 0x0305 (BitVec.ofNat 64 (f.cnt.toNat % 16))) ∧
    (∀ i f n w idx val (k0 : Nat), expandRow i = some (f, n, w, idx, val) → viewsOk e [vd e f, va e f] →
      let side := e.x.frontSide e.clk (f.b.toNat % 4)
      let iw := idxWidth (f.b.toNat / 4 % 4)
      let at_ (k : Nat) : Nat := indexOf e (va e f) iw (idx (f.b.toNat / 16) k)
      k0 < n → maskBit e f.q (k0 * 64 / n) → side.2 ≤ at_ k0 →
      (∀ k, k < n → maskBit e f.q (k * 64 / n) → side.2 ≤ at_ k → at_ k0 ≤ at_ k) →
      ∃ t, exec i s = .next t ∧ exFaulted s t e 0x0307
        (BitVec.ofNat 64 (f.b.toNat % 4 * 2 ^ 40 + iw * 2 ^ 32 + at_ k0 * 2 ^ 16 + side.2))) ∧
    (∀ (f : IForm) (i : Instr) (sp p n v k0 : Nat), (sp, p, n) = planesOf f → isF32 f →
      (i = .vplrd f ∧ v = e.view f.a f.x) ∨ (i = .vplwr f ∧ v = e.view f.d f.x) →
      viewsOk e [e.view f.d f.x, e.view f.a f.x, v + 1] → maskBit e f.q k0 → scaleOf e (v + 1) (64 * p + k0) = 0xFF →
      (∀ k, maskBit e f.q k → scaleOf e (v + 1) (64 * p + k) = 0xFF → (64 * p + k0) / 32 ≤ (64 * p + k) / 32) →
      ∃ t, exec i s = .next t ∧ exFaulted s t e 0x0308 (BitVec.ofNat 64 ((64 * p + k0) / 32))) ∧
    (∀ (f : VForm) (j0 : Nat), viewsOk e [vd e f, va e f] →
      let tb := e.x.tables.getD (f.b.toNat % 4) ITable.reset
      let x (j : Nat) : FVal := bf16.dec (elem e (va e f) 2 j)
      j0 < 128 → maskBit e f.q (j0 / 2) → (x j0).isNaN = false → tb.valid ≤ itpIndex (x j0) →
      (∀ j, j < 128 → maskBit e f.q (j / 2) → (x j).isNaN = false → tb.valid ≤ itpIndex (x j) → itpIndex (x j0) ≤ itpIndex (x j)) →
      ∃ t, exec (.vitpBf f) s = .next t ∧ exFaulted s t e 0x0309
        (BitVec.ofNat 64 (f.b.toNat % 4 * 2 ^ 40 + itpIndex (x j0) * 2 ^ 16 + tb.valid)))

/-- R33, R45, R51, R156, R168, R172, R179, R183, R225: the execute faults. -/
def Obligations.ExecuteFaults : Prop :=
  Claims.ViewAndBudgetFaults ∧ Claims.OtherExecuteFaults

namespace Sys2Proof.Claims

/-! ## The copy engine -/

/-- Every begun command has moved its bytes, none of them held for a plane write (R213), or is a binding (R233). -/
abbrev allMoved (x : Context) : Prop :=
  ∀ r ∈ x.cp.runs, (r.moved = true ∧ ∀ h ∈ x.ex.held, h.src ≠ .cp r.num) ∨ (r.moved = false ∧ r.kind = .stream)
/-- The command `e` at the head of the queue's unbegun part may begin with tail `tl`: the engine runs, the command before has moved
or is a binding, a CHAIN finds every earlier update made, and the tail's modes are those of R257 (R233). -/
abbrev cpMay (s : State) (e : CpEntry) (tl : CpTail) : Prop :=
  (cur s).cpHead = some e ∧ (cur s).cp.halted = false ∧ allMoved (cur s) ∧
    (tl.chain = true → (cur s).cp.cks = []) ∧ tl.ckm ≠ 3 ∧ (tl.chain = true ∨ tl.check = true → tl.ckm ≠ 0) ∧
    (tl.chain = true → (cur s).cp.ckrm = tl.ckm)
/-- The same but for the modes: whatever else it asks, the command is the next to begin. -/
abbrev cpNext (s : State) (e : CpEntry) (tl : CpTail) : Prop :=
  (cur s).cpHead = some e ∧ (cur s).cp.halted = false ∧ allMoved (cur s) ∧ (tl.chain = true → (cur s).cp.cks = [])
/-- A field that is a pool address has 20 bits (R234). -/
abbrev poolAddrs (tl : CpTail) (src dst : Addr) : Prop := (tl.spool = true → src.toNat < 2 ^ 20) ∧ (tl.dpool = true → dst.toNat < 2 ^ 20)
/-- Command `e` has faulted as it would begin: the record holds dword 0 of the command, the engine is halted, no byte moves (R258). -/
def cpFaulted (s : State) (i : Instr) (e : CpEntry) (code det1 : Nat) : Prop :=
  ∃ t, exec i s = .next t ∧ recorded s t s.focus 3 code 0 0 (e.w.setWidth 64) (BitVec.ofNat 64 det1) ∧ (cur t).cp.halted = true ∧
    (cur t).cp.runs = (cur s).cp.runs ∧ (cur t).cpq = (cur s).cpq ∧ t.mem = s.mem ∧ (cur t).pool = (cur s).pool
/-- A footprint meets no fault (R238) and no active binding's bounding range (R233). -/
abbrev clearOf (s : State) (l : List CpItem) : Prop := (cur s).cpClash l = false ∧ s.itemsFault (cur s) l = none
/-- The addresses of the logical bytes of a list of runs. -/
def byteAt (l : List (Nat × Nat)) : List Nat := l.flatMap fun r => (List.range r.2).map (r.1 + ·)
/-- The runs of a pattern as addresses. -/
def natRuns (l : List (Int × Nat)) : List (Nat × Nat) := l.map fun r => (r.1.toNat, r.2)
/-- Source bytes in this device that no stream buffer makes undefined (R157). -/
abbrev localSrc (s : State) (c : CtxId) (pool : Bool) (l : List (Nat × Nat)) : Prop :=
  ∀ r ∈ l, if pool then ∀ i < r.2, (s.ctx c).inBuffer (r.1 + i) = false else isRemote r.1 = false
/-- Destination bytes in this device where a write leaves its byte: no slot of a stream (R336), no stream buffer (R157), no byte that
the execute core writes in this clock or holds (R66, R213). -/
abbrev localDst (s : State) (c : CtxId) (pool : Bool) (l : List (Nat × Nat)) : Prop :=
  ∀ r ∈ l, if pool then ∀ i < r.2, (s.ctx c).inBuffer (r.1 + i) = false ∧ (s.ctx c).heldByte (r.1 + i) = false ∧
    r.1 + i ∉ ((s.ctx c).noteAt s.clk).exw ∧ r.1 + i ∉ ((s.ctx c).noteAt s.clk).landed ∧ ∀ h ∈ (s.ctx c).ex.held, h.1 ≠ r.1 + i
  else isRemote r.1 = false ∧ ∀ i < r.2, s.inSlot (r.1 + i) = false
/-- Two sides share no byte. -/
abbrev apart (tl : CpTail) (src dst : List (Nat × Nat)) : Prop := tl.spool = tl.dpool → ∀ a ∈ byteAt dst, a ∉ byteAt src
/-- The source bytes in logical order. -/
def srcBytes (s : State) (c : CtxId) (pool : Bool) (l : List (Nat × Nat)) : List Byte :=
  (byteAt l).map fun a => if pool then (s.ctx c).poolByte s.clk a else memGet s.mem a
/-- A byte of the space a command writes. -/
def sideByte (s : State) (c : CtxId) (pool : Bool) (a : Nat) : Byte := if pool then memGet (s.ctx c).pool a else memGet s.mem a

/-- Logical byte k of `dst` holds byte k of `bs` in `t`, of a repeated address the highest k; every other byte of that space is as in
`s`, but for the addresses of `free`. -/
def bytesLand (s t : State) (c : CtxId) (pool : Bool) (dst : List (Nat × Nat)) (bs : List Byte) (free : List Nat) : Prop :=
  (∀ k a, (byteAt dst)[k]? = some a → (∀ j : Nat, k < j → (byteAt dst)[j]? ≠ some a) → bs[k]? = some (sideByte t c pool a)) ∧
    ∀ a, a ∉ byteAt dst → a ∉ free → sideByte t c pool a = sideByte s c pool a

/-- Command `e` has begun and made its moves: logical byte k of `dst` holds byte k of `bs`, of a repeated address the highest k; every
other byte of memory and pool, and every general register, is unchanged. -/
def movedTo (s t : State) (e : CpEntry) (tl : CpTail) (dst : List (Nat × Nat)) (bs : List Byte) (fl : FlagSet) (satn : Nat) : Prop :=
  bytesLand s t s.focus tl.dpool dst bs [] ∧
    (if tl.dpool then t.mem = s.mem else (cur t).pool = (cur s).pool) ∧ (cur t).x = (cur s).x ∧
    ∃ r, (cur t).cpRun e.num = some r ∧ r.moved = true ∧ r.t = tl ∧ r.wclk = s.clk ∧ r.flags = fl ∧ r.satn = satn

/-- The items of a plain move (R238). -/
def moveItems (tl : CpTail) (sal dal : Nat) (src dst : List (Int × Nat)) : List CpItem :=
  itemsOf tl.spool false sal false src ++ itemsOf tl.dpool true dal false dst ++ tailItems tl
/-- The bytes a move writes, with its flags and saturations: as they stand, or converted (R242). -/
def cvtBytes (cvt : Bool) (sf df : BitVec 5) (bs : List Byte) : List Byte × FlagSet × Nat :=
  if cvt then convertBytes sf.toNat df.toNat bs else (bs, 0, 0)
/-- A conversion's formats are accepted (R242). -/
abbrev formatsOk (cvt : Bool) (sf df : BitVec 5) : Prop := cvt = true → cvtOk sf.toNat = true ∧ cvtOk df.toNat = true

/-- A move of `exec i` with local sides. -/
def movesBytes (s : State) (i : Instr) (e : CpEntry) (tl : CpTail) (src dst : List (Nat × Nat)) (bs : List Byte × FlagSet × Nat) : Prop :=
  localSrc s s.focus tl.spool src → localDst s s.focus tl.dpool dst → apart tl src dst →
    ∃ t, exec i s = .next t ∧ movedTo s t e tl dst bs.1 bs.2.1 bs.2.2

/-- A begun command of entry `e` in `t`, its moves to come. -/
def begun (t : State) (e : CpEntry) (tl : CpTail) (k : CpKind) : Prop :=
  ∃ r, (cur t).cpRun e.num = some r ∧ r.kind = k ∧ r.moved = false ∧ r.t = tl ∧ r.late = none ∧ r.faulted = false

/-- Entry `e` of the copy queue has completed: it is gone, with its run, and its flags are raised in group CP (R233, R239). -/
def cpGone (s t : State) (c : CtxId) (r : CpRun) : Prop :=
  (∀ u ∈ (t.ctx c).cpq, u.num ≠ r.num) ∧ (∀ u ∈ (s.ctx c).cpq, u.num ≠ r.num → u ∈ (t.ctx c).cpq) ∧
    (∀ u ∈ (t.ctx c).cp.runs, u.num ≠ r.num) ∧
    (t.ctx c).flgNew = (s.ctx c).flgNew ||| BitVec.ofNat 15 ((r.flags ||| if 0 < r.satn then flSA else 0).toNat * 2 ^ 10) ∧
    (t.ctx c).pool = (s.ctx c).pool ∧ (t.ctx c).x = (s.ctx c).x

end Sys2Proof.Claims

/-- R240 to R244, R254: the plain commands make their moves as they begin: `copy`, `copya`, `gather`, `scatter`, `fill` and `ckst`,
with local sides that share no byte. -/
def Sys2Proof.Claims.PlainMovesBytes : Prop :=
  ∀ (s : State) (e : CpEntry),
    (∀ f : CopyForm, (Instr.copy f).wf = true → cpMay s e f.t → poolAddrs f.t f.src f.dst → formatsOk f.cvt f.sfmt f.dfmt →
      let u := moveUnits f.cvt f.sfmt f.dfmt
      let n := f.len.toNat * u.1.2 / u.1.1
      let dst : Nat × Nat := (f.dst.toNat, n * u.2.1 / u.2.2)
      countBad f.len.toNat u.1 u.2 = false → clearOf s (moveItems f.t u.1.1 u.2.1 [(f.src.toNat, f.len.toNat)] [(dst.1, dst.2)]) →
      movesBytes s (.copy f) e f.t [(f.src.toNat, f.len.toNat)] [dst]
        (cvtBytes f.cvt f.sfmt f.dfmt (srcBytes s s.focus f.t.spool [(f.src.toNat, f.len.toNat)]))) ∧
    (∀ f : CopyaForm, (Instr.copya f).wf = true → cpMay s e f.t → poolAddrs f.t f.src f.dst → formatsOk f.cvt f.sfmt f.dfmt →
      let sp := (cur s).pat f.spat
      let dp := (cur s).pat f.dpat
      let u := moveUnits f.cvt f.sfmt f.dfmt
      countBad sp.len u.1 u.2 = false → dp.len * u.2.2 = sp.len * u.1.2 / u.1.1 * u.2.1 → sp.aligned u.1.1 = true →
      dp.aligned u.2.1 = true → clearOf s (moveItems f.t u.1.1 u.2.1 (sp.runs f.src.toNat) (dp.runs f.dst.toNat)) →
      movesBytes s (.copya f) e f.t (natRuns (sp.runs f.src.toNat)) (natRuns (dp.runs f.dst.toNat))
        (cvtBytes f.cvt f.sfmt f.dfmt (srcBytes s s.focus f.t.spool (natRuns (sp.runs f.src.toNat))))) ∧
    (∀ (f : GatherForm) (sc : Bool), cpMay s e f.t → poolAddrs f.t f.src f.dst →
      let n := f.countM1.toNat + 1
      let len := f.rlenM1.toNat + 1
      let plain (a : Addr) : List (Int × Nat) := (List.range n).map fun k => ((a.toNat + k * len : Nat), len)
      let idx (k : Nat) : Nat := leNat ((cur s).poolGet s.clk (f.idx.toNat + 4 * k) 4)
      let recs (a : Addr) : List (Int × Nat) := (List.range n).map fun k => ((a.toNat + idx k * len : Nat), len)
      let src := if sc then plain f.src else recs f.src
      let dst := if sc then recs f.dst else plain f.dst
      let whole : CpItem := if sc then ⟨f.t.spool, f.src.toNat, n * len, false, 1, false⟩ else ⟨f.t.dpool, f.dst.toNat, n * len, true, 1, false⟩
      clearOf s (whole :: ⟨true, f.idx.toNat, 4 * n, false, 4, false⟩ :: tailItems f.t) →
      clearOf s (if sc then itemsOf f.t.dpool true 1 false dst else itemsOf f.t.spool false 1 false src) →
      localSrc s s.focus true [(f.idx.toNat, 4 * n)] →
      movesBytes s (if sc then .scatter f else .gather f) e f.t (natRuns src) (natRuns dst) (srcBytes s s.focus f.t.spool (natRuns src), 0, 0)) ∧
    (∀ f : FillForm, (Instr.fill f).wf = true → cpMay s e f.t → poolAddrs f.t 0 f.dst → clearOf s (moveItems f.t 1 1 [] [(f.dst.toNat, f.len.toNat)]) →
      movesBytes s (.fill f) e f.t [] [(f.dst.toNat, f.len.toNat)]
        ((List.range f.len.toNat).map fun k => BitVec.ofNat 8 (f.patv.toNat / 2 ^ (8 * (k % 8))), 0, 0)) ∧
    (∀ (d : Addr) (tl : CpTail), (Instr.ckst d tl).wf = true → cpMay s e tl → poolAddrs tl 0 d → (cur s).cp.cks = [] →
      (∀ r ∈ (cur s).cp.runs, r.t.ckm = 0) → clearOf s (moveItems tl 1 4 [] [(d.toNat, 4)]) →
      movesBytes s (.ckst d tl) e tl [] [(d.toNat, 4)] (leBytes 4 (cur s).cp.ckr.toNat, 0, 0))

namespace Sys2Proof.Claims

/-- The footprint of a bind: its pattern's runs, aligned to the memory element where a stage of its chain converts elements (R2, R246),
and its completion word. -/
def bindItems (s : State) (f : BindForm) : List CpItem :=
  let al := match bindChain f with
    | some ch => if (ch.1.any fun o => o.1 == 1) = true then (bindSizes f ch.2).1 else 1
    | none => 1
  itemsOf (if f.out then f.t.dpool else f.t.spool) f.out al true (((cur s).pat f.pat).runs f.addr.toNat) ++ tailItems f.t

/-- Element `k` of a byte stream of format `c`: its little-endian bits, or its digits, d0 highest, in plane blocks (R42, R242). -/
def streamElem (c : Nat) (bs : List Byte) (k : Nat) : Nat :=
  if c < 8 then
    let n := c % 4 + 1
    ((List.range n).map fun j =>
      (bs.getD (planeStride n * (k / 32) + 16 * j + k % 32 / 2) 0).toNat / 16 ^ (k % 2) % 16 * 16 ^ (n - 1 - j)).sum
  else leNat ((bs.drop (fmtBytes c * k)).take (fmtBytes c))
/-- Bytes of `cnt` elements of format `c`. -/
def streamBytes (c cnt : Nat) : Nat := if c < 8 then planeStride (c % 4 + 1) * (cnt / 32) else fmtBytes c * cnt
/-- Stage `k` of a chain in current format `cur`, and the format after it (R246). -/
def stageOk (o : Nat × Nat) (cur nxt : Nat) : Prop :=
  (o.1 = 1 ∧ o.2 ∈ [0x08, 0x09, 0x0A, 0x0C, 0x0D, 0x0E, 0x10, 0x11, 0x12] ∧ nxt = o.2) ∨
    (o.1 = 2 ∧ cur ∈ [0x10, 0x11, 0x12] ∧ nxt = cur) ∨ (o.1 = 3 ∧ o.2 = 0 ∧ nxt = cur)
/-- The stages that OPS holds before its first stage with code 0, from format `cur` to format `fin` (R246). -/
def chainIs (ops cur : Nat) (ch : List (Nat × Nat)) (fin : Nat) : Prop :=
  ch.length ≤ 4 ∧ (ch.length < 4 → ops / 256 ^ ch.length = 0) ∧ ∃ f : Nat → Nat, f 0 = cur ∧ f ch.length = fin ∧
    ∀ k o, ch[k]? = some o → o = (ops / 256 ^ k / 32 % 8, ops / 256 ^ k % 32) ∧ stageOk o (f k) (f (k + 1))
/-- `h` is the element `bits` of format `cur` after one stage, with its flags (R246). -/
def stageResult (o : Nat × Nat) (cur bits : Nat) (h : Nat × FlagSet) : Prop :=
  (o.1 = 1 → h = convertVal cur o.2 bits) ∧
    (o.1 = 2 → ∀ f, floatOf cur = some f → (isFin (f.dec bits) →
        exactly f (ratio (f.dec bits) * (2 : ℚ) ^ (BitVec.ofNat 5 o.2).toInt) (f.dec bits).sign h) ∧
      (∀ n, f.dec bits = .inf n → h = infResult f n) ∧ ∀ n, f.dec bits = .nan n → h = nanResult f n) ∧
    (o.1 = 3 → (∀ f, floatOf cur = some f → h = if (f.dec bits).isNaN then nanResult f (f.dec bits).isSNaN
        else if (f.dec bits).sign then (0, 0) else (bits, 0)) ∧
      (0x08 ≤ cur → cur ≤ 0x0A → h = (if (BitVec.ofNat (2 ^ (cur - 5)) bits).toInt < 0 then 0 else bits, 0)) ∧
      (0x0C ≤ cur → cur ≤ 0x0E → h = (bits, 0)))

end Sys2Proof.Claims

/-- R42, R242: a conversion of a byte stream converts each element once, by R48; plane blocks are written whole, the padding of three
planes as zero; its flags are those of its elements, and its saturations are counted. -/
def Sys2Proof.Claims.ConvertedStreams : Prop :=
  ∀ (sc dc cnt : Nat) (bs : List Byte), cvtOk sc = true → cvtOk dc = true → bs.length = streamBytes sc cnt →
    (sc < 8 ∨ dc < 8 → cnt % 32 = 0) →
    let el (k : Nat) : Nat × FlagSet := convertVal sc dc (streamElem sc bs k)
    let r := convertBytes sc dc bs
    r.1.length = streamBytes dc cnt ∧ (∀ k, k < cnt → streamElem dc r.1 k = (el k).1 % 2 ^ fmtBits dc) ∧
      (dc % 4 = 2 → dc < 8 → ∀ b i, 64 * b + 63 < r.1.length → i < 16 → r.1[64 * b + 48 + i]? = some 0) ∧
      (∀ j, r.2.1.getLsbD j = true ↔ ∃ k, k < cnt ∧ (el k).2.getLsbD j = true) ∧
      r.2.2 = (List.range cnt).countP fun k => decide ((el k).2 &&& flSA ≠ 0)

/-- R42, R240 to R244, R254: the plain copy commands move their bytes in the clock they begin (log entry 16), and a conversion converts each element once. -/
def Obligations.CopyMovesBytes : Prop :=
  Claims.PlainMovesBytes ∧ Claims.ConvertedStreams

/-- R246, R247: OPS as stages and formats, the stages in order on an element, and the bytes of an entry: of an input binding the next
memory elements through the chain, of an output binding the counted lanes. -/
def Sys2Proof.Claims.OperatorChains : Prop :=
  (∀ (ops cur fin : Nat) (ch : List (Nat × Nat)), ops < 2 ^ 32 → (chainOf 4 ops cur = some (ch, fin) ↔ chainIs ops cur ch fin)) ∧
  (∀ cur bits, runChain [] cur bits = (bits, 0)) ∧
  (∀ (o : Nat × Nat) (r : List (Nat × Nat)) (cur nxt bits : Nat), stageOk o cur nxt →
    ∃ h, stageResult o cur bits h ∧ runChain (o :: r) cur bits = ((runChain r nxt h.1).1, h.2 ||| (runChain r nxt h.1).2)) ∧
  (∀ (b : Binding) (ch : List (Nat × Nat) × Nat) (clk : Nat) (bs : List Byte),
    let e := b.entry ch clk bs
    let m := fmtBytes b.f.efmt.toNat
    let n := fmtBytes ch.2
    e.1.born = clk ∧ (b.f.raw = true → e.1.count = (bs.length + 3) / 4 ∧
      e.1.data = bs ++ List.replicate (4 * ((bs.length + 3) / 4) - bs.length) 0 ∧ e.2 = (0, 0)) ∧
    (b.f.raw = false → b.f.out = false → 1 ≤ m → bs.length % m = 0 →
      e.1.count = (bs.length / m * n + 3) / 4 ∧ e.1.data.length = 4 * e.1.count ∧
      (∀ k, k < bs.length / m → (e.1.data.drop (n * k)).take n =
        leBytes n (runChain ch.1 b.f.efmt.toNat (leNat ((bs.drop (m * k)).take m))).1) ∧
      ∀ i, n * (bs.length / m) ≤ i → i < e.1.data.length → e.1.data[i]? = some 0)) ∧
  ∀ (b : Binding) (ch : List (Nat × Nat) × Nat) (e : PortEntry), e.data.length = 4 * e.count →
    let m := fmtBytes b.f.efmt.toNat
    let n := fmtBytes ch.2
    (b.f.raw = true → (b.bytes ch e).1 = e.data) ∧
    (b.f.raw = false → b.f.out = true → 1 ≤ m → 1 ≤ n → ∀ cnt, cnt = Nat.min (e.data.length / m) ((b.pat.len - b.pos) / n) →
      (b.bytes ch e).1.length = n * cnt ∧ ∀ k, k < cnt → ((b.bytes ch e).1.drop (n * k)).take n =
        leBytes n (runChain ch.1 b.f.efmt.toNat (leNat ((e.data.drop (m * k)).take m))).1)

/-- R250, R251: group data expand to 32 output bytes a group: the next stream byte for each set bit of the mask, zero for the others; data
that end within a group, or go on after the last, decode to no whole object. -/
def Sys2Proof.Claims.GroupDataExpand : Prop :=
  ∀ (gs : List (W32 × List Byte)) (tail : List Byte), (∀ g ∈ gs, g.2.length = (List.range 32).countP fun i => g.1.getLsbD i) →
    let data := gs.flatMap fun g => leBytes 4 g.1.toNat ++ g.2
    let out := gs.flatMap fun g => (List.range 32).map fun i =>
      if g.1.getLsbD i then g.2.getD ((List.range i).countP fun j => g.1.getLsbD j) 0 else 0
    unpackGroups (data ++ tail) gs.length = (out, decide (tail = [])) ∧
    ∀ n, (tail.length < 4 ∨ tail.length - 4 < (List.range 32).countP fun i => (leNat (tail.take 4)).testBit i) →
      unpackGroups (data ++ tail) (gs.length + 1 + n) = (out, false)

/-- R240, R245, R248, R251 to R254: what `pat`, `cmpl`, `cbld`, `itld`, `unpack`, `bind` and `unbind` do as they begin: a slot, a mark,
a side or table made invalid until it is loaded, a header read, a port bound, a binding ended. -/
def Sys2Proof.Claims.CopyBeginEffects : Prop :=
  ∀ (s : State) (e : CpEntry),
    (∀ f : PatForm, cpMay s e noTail → ∃ t, exec (.pat f) s = .next t ∧ t.mem = s.mem ∧
      (cur t).cp.pats = (cur s).cp.pats.set f.slot.toNat ⟨f.runM1.toNat + 1, f.c1M1.toNat + 1, f.c2M1.toNat + 1, f.c3M1.toNat + 1,
        f.s1.toInt, f.s2.toInt, f.s3.toInt⟩ ∧ ∃ r, (cur t).cpRun e.num = some r ∧ r.moved = true) ∧
    (∀ tl : CpTail, cpMay s e tl → tl.cw = true → clearOf s (tailItems tl) → ∃ t, exec (.cmpl tl) s = .next t ∧ t.mem = s.mem ∧
      (cur t).pool = (cur s).pool ∧ ∃ r, (cur t).cpRun e.num = some r ∧ r.moved = true ∧ r.t = tl) ∧
    (∀ f : CbldForm, cpMay s e f.t → poolAddrs f.t f.src 0 → f.count.toNat ≤ 256 → (cur s).banks.length = 4 → (cur s).frontOf s.clk f.bank.toNat ≠ f.side →
      (∀ r ∈ (cur s).mx.runs, (f.bank.toNat, f.side) ∉ r.reads) →
      clearOf s (itemsOf f.t.spool false (if f.t.spool then 1 else 2) false [(f.src.toNat, 2 * f.count.toNat)] ++ tailItems f.t) →
      ∃ t, exec (.cbld f) s = .next t ∧ begun t e f.t (.bank f.bank.toNat f.side f.count.toNat false) ∧
        (∀ b, (cur t).banks[f.bank.toNat]? = some b → (if f.side then b.sel.valid1 else b.sel.valid0) = 0) ∧
        (∀ k, k ≠ f.bank.toNat → (cur t).banks[k]? = (cur s).banks[k]?)) ∧
    (∀ f : ItldForm, cpMay s e f.t → poolAddrs f.t f.src 0 → f.count.toNat ≤ 256 → (cur s).tables.length = 4 →
      clearOf s (itemsOf f.t.spool false (if f.t.spool then 1 else 4) false [(f.src.toNat, 4 * f.count.toNat)] ++ tailItems f.t) →
      ∃ t, exec (.itld f) s = .next t ∧ begun t e f.t (.table f.table.toNat f.count.toNat) ∧
        (∀ b, (cur t).tables[f.table.toNat]? = some b → b.valid = 0) ∧
        (∀ k, k ≠ f.table.toNat → (cur t).tables[k]? = (cur s).tables[k]?)) ∧
    (∀ f : UnpackForm, cpMay s e f.t → poolAddrs f.t 0 f.dst → 1 ≤ f.rmax.toNat → f.rmax.toNat ≤ 8 → f.maxo.toNat % 32 = 0 →
      (cur s).bufferOk (f.fbuf.toNat * 4096) 8192 = true →
      (let items := itemsOf false false 1 false [(f.src.toNat, 16)] ++ tailItems f.t
      (cur s).cpClash (⟨true, f.fbuf.toNat * 4096, 8192, true, 1, true⟩ :: items) = false ∧ s.itemsFault (cur s) items = none) →
      localSrc s s.focus false [(f.src.toNat, 16)] →
      let olen := leNat (memRead s.mem f.src.toNat 4)
      let clen := leNat (memRead s.mem (f.src.toNat + 8) 4)
      let body : List CpItem := [⟨false, f.src.toNat, 16 + clen, false, 1, false⟩, ⟨f.t.dpool, f.dst.toNat, olen, true, 1, false⟩]
      leNat (memRead s.mem (f.src.toNat + 4) 4) = 0 → leNat (memRead s.mem (f.src.toNat + 12) 4) = 0 → olen % 32 = 0 →
      olen ≤ f.maxo.toNat → olen / 8 ≤ clen → clen ≤ 36 * (olen / 32) → olen ≤ f.rmax.toNat * clen →
      clearOf s body →
      ∃ t, exec (.unpack f) s = .next t ∧ begun t e f.t (.unpackBody f olen clen) ∧ t.mem = s.mem) ∧
    (∀ f : BindForm, (Instr.bind f).wf = true → cpMay s e f.t → ((if f.out then f.t.dpool else f.t.spool) = true → f.addr.toNat < 2 ^ 20) →
      bindReason f = none → (∀ ch, bindChain f = some ch → ((cur s).pat f.pat).run % (bindSizes f ch.2).1 = 0) →
      (cur s).bufferOk (256 * f.buf.toNat) (256 * (f.depthM1.toNat + 1)) = true → ((cur s).port f.port.toNat).bound = false →
      (cur s).cp.binds.length < 8 → (cur s).ports.length = 16 →
      s.itemsFault (cur s) (bindItems s f) = none →
      (let r := ((cur s).pat f.pat).bound f.addr.toNat
      (cur s).cpClash [⟨if f.out then f.t.dpool else f.t.spool, r.1, r.2, f.out, 1, true⟩] = false) →
      ∃ t, exec (.bind f) s = .next t ∧ begun t e f.t .stream ∧
        (cur t).port f.port.toNat = ⟨some f.out, true, [], 0, f.depthM1.toNat + 1, 256 * f.buf.toNat⟩ ∧
        (cur t).cp.binds = (cur s).cp.binds ++ [⟨e.num, f, (cur s).pat f.pat, 0⟩]) ∧
    (∀ (p : BitVec 4) (tl : CpTail), cpMay s e tl → clearOf s (tailItems tl) → (cur s).ports.length = 16 →
      ∃ t, exec (.unbind p tl) s = .next t ∧ (∃ r, (cur t).cpRun e.num = some r ∧ r.moved = true ∧ r.t = tl) ∧
        (∀ b, (cur s).binding p = some b → ((cur t).port p.toNat).bound = false ∧
          (cur t).cp.binds = (cur s).cp.binds.filter fun u => u.num != b.num) ∧
        ((cur s).binding p = none → (cur t).ports = (cur s).ports ∧ (cur t).cp.binds = (cur s).cp.binds))

/-- R233, R234, R242, R245, R251, R252, R254, R257 to R259: what a command that cannot be carried out faults with as it would begin: the
illegal command with its reason, a pattern mismatch with its element counts, a buffer out of place, a load of the front side. Where
several reasons hold, the order is the model's (log entry 80); those of bits 47:20 of a pool address and of R246 are log entries 70, 22. -/
def Sys2Proof.Claims.CopyCommandFaults : Prop :=
  ∀ (s : State) (e : CpEntry),
    (∀ f : CopyForm, cpNext s e f.t →
      let u := moveUnits f.cvt f.sfmt f.dfmt
      let n := f.len.toNat * u.1.2 / u.1.1
      let items := moveItems f.t u.1.1 u.2.1 [(f.src.toNat, f.len.toNat)] [(f.dst.toNat, n * u.2.1 / u.2.2)]
      (cur s).cpClash items = false →
      (¬ poolAddrs f.t f.src f.dst → cpFaulted s (.copy f) e 0x0401 2) ∧
      (poolAddrs f.t f.src f.dst →
        (¬ formatsOk f.cvt f.sfmt f.dfmt ∨ f.t.ckm = 3 ∨ ((f.t.chain = true ∨ f.t.check = true) ∧ f.t.ckm = 0) →
          cpFaulted s (.copy f) e 0x0401 4) ∧
        (formatsOk f.cvt f.sfmt f.dfmt → f.t.ckm ≠ 3 → (f.t.chain = true ∨ f.t.check = true → f.t.ckm ≠ 0) →
          (f.t.chain = true → (cur s).cp.ckrm ≠ f.t.ckm → cpFaulted s (.copy f) e 0x0401 5) ∧
          ((f.t.chain = true → (cur s).cp.ckrm = f.t.ckm) →
            (countBad f.len.toNat u.1 u.2 = true → cpFaulted s (.copy f) e 0x0402 (n % 2 ^ 32 * 2 ^ 32 + n % 2 ^ 32)) ∧
            (countBad f.len.toNat u.1 u.2 = false → ∀ g, s.itemsFault (cur s) items = some g →
              ∃ t, exec (.copy f) s = .next t ∧ recorded s t s.focus 3 g.code g.st g.addr g.det0 g.det1))))) ∧
    (∀ f : CbldForm, cpMay s e f.t → poolAddrs f.t f.src 0 →
      (cur s).cpClash (itemsOf f.t.spool false (if f.t.spool then 1 else 2) false [(f.src.toNat, 2 * f.count.toNat)] ++ tailItems f.t) = false →
      (256 < f.count.toNat → (cur s).frontOf s.clk f.bank.toNat = f.side ∨ (∀ r ∈ (cur s).mx.runs, (f.bank.toNat, f.side) ∉ r.reads) →
        cpFaulted s (.cbld f) e 0x0401 3) ∧
      (f.count.toNat ≤ 256 → (cur s).frontOf s.clk f.bank.toNat = f.side →
        cpFaulted s (.cbld f) e 0x0404 (256 + f.side.toNat * 4 + f.bank.toNat))) ∧
    (∀ f : ItldForm, cpMay s e f.t → poolAddrs f.t f.src 0 → 256 < f.count.toNat →
      (cur s).cpClash (itemsOf f.t.spool false (if f.t.spool then 1 else 4) false [(f.src.toNat, 4 * f.count.toNat)] ++ tailItems f.t) = false →
      cpFaulted s (.itld f) e 0x0401 3) ∧
    (∀ tl : CpTail, cpMay s e tl → tl.cw = false → cpFaulted s (.cmpl tl) e 0x0401 3) ∧
    (∀ f : UnpackForm, cpMay s e f.t → poolAddrs f.t 0 f.dst →
      (cur s).cpClash (⟨true, f.fbuf.toNat * 4096, 8192, true, 1, true⟩ :: (itemsOf false false 1 false [(f.src.toNat, 16)] ++ tailItems f.t)) = false →
      (f.rmax.toNat = 0 ∨ 8 < f.rmax.toNat ∨ f.maxo.toNat % 32 ≠ 0 → cpFaulted s (.unpack f) e 0x0401 3) ∧
      (1 ≤ f.rmax.toNat → f.rmax.toNat ≤ 8 → f.maxo.toNat % 32 = 0 → (cur s).bufferOk (f.fbuf.toNat * 4096) 8192 = false →
        cpFaulted s (.unpack f) e 0x0403 (f.fbuf.toNat * 4096 % 2 ^ 20))) ∧
    (∀ f : BindForm, cpMay s e f.t → ((if f.out then f.t.dpool else f.t.spool) = true → f.addr.toNat < 2 ^ 20) →
      ((cur s).port f.port.toNat).bound = false → (cur s).cp.binds.length < 8 →
      (let r := ((cur s).pat f.pat).bound f.addr.toNat
      (cur s).cpClash [⟨if f.out then f.t.dpool else f.t.spool, r.1, r.2, f.out, 1, true⟩] = false) →
      (bindReason f ≠ none → cpFaulted s (.bind f) e 0x0401 4) ∧
      (∀ ch m, bindReason f = none → bindChain f = some ch → m = ((cur s).pat f.pat).len / (bindSizes f ch.2).1 →
        ((cur s).pat f.pat).run % (bindSizes f ch.2).1 ≠ 0 → cpFaulted s (.bind f) e 0x0402 (m % 2 ^ 32 * 2 ^ 32 + m % 2 ^ 32)) ∧
      (bindReason f = none → (∀ ch, bindChain f = some ch → ((cur s).pat f.pat).run % (bindSizes f ch.2).1 = 0) →
        (cur s).bufferOk (256 * f.buf.toNat) (256 * (f.depthM1.toNat + 1)) = true → ∀ g, s.itemsFault (cur s) (bindItems s f) = some g →
        ∃ t, exec (.bind f) s = .next t ∧ recorded s t s.focus 3 g.code g.st g.addr g.det0 g.det1))

/-- R240, R245, R248, R251 to R254, R258, R259: what the commands that move no bytes at once do as they begin, and the faults of commands at their begin; bits 47:20 of a pool address are reason 2 (log entry 70), a bind that breaks R246 faults (log entry 22). -/
def Obligations.CopyCommandsBegin : Prop :=
  Claims.CopyBeginEffects ∧ Claims.CopyCommandFaults

/-- R213, R239, R247, R248, R264: a command that has moved, none of its bytes held for a plane write, completes, writing its completion word; a binding takes or appends entries and
ends with its pattern; the peer's refusal is a lease fault and its acknowledgement fills a sum. -/
def Sys2Proof.Claims.CopyCompletionsAndBindings : Prop :=
  (∀ (s : State) (c : CtxId) (r : CpRun), (s.ctx c).cpRun r.num = some r → r.moved = true → (∀ p ∈ r.sums, p.2.2.isSome = true) →
    r.faulted = false → r.late = none → r.cwSent = false →
    ((∃ h ∈ (s.ctx c).ex.held, h.src = .cp r.num) → exec (.cpCommandComplete c r.num) s = .next s) ∧
    ((∀ h ∈ (s.ctx c).ex.held, h.src ≠ .cp r.num) →
    (r.t.cw = false → ∃ t, exec (.cpCommandComplete c r.num) s = .next t ∧ cpGone s t c r ∧ t.mem = s.mem) ∧
    (∀ (e : CpEntry) (q : List CpEntry), r.t.cw = true → (s.ctx c).cpq = e :: q → e.num = r.num → r.wclk < s.clk →
      isRemote r.t.caddr.toNat = false → (∀ i < 8, s.inSlot (r.t.caddr.toNat + i) = false) →
      ∃ t, exec (.cpCommandComplete c r.num) s = .next t ∧ cpGone s t c r ∧
        stored s t r.t.caddr.toNat (leBytes 8 ((if r.t.check && r.sum != r.t.expect then 2 ^ 63 else 0) +
          Nat.min r.satn 65535 * 2 ^ 32 + r.t.cval.toNat))))) ∧
  (∀ (s : State) (c : CtxId) (b : Binding) (r : CpRun) (ch : List (Nat × Nat) × Nat), (s.ctx c).binding b.f.port = some b → (s.ctx c).cpRun b.num = some r →
    r.faulted = false → r.late = none → (s.ctx c).ports.length = 16 → bindChain b.f = some ch →
    let p := (s.ctx c).port b.f.port.toNat
    let goes (t : State) (n : Nat) : Prop :=
      if b.pos + n < b.pat.len then { b with pos := b.pos + n } ∈ (t.ctx c).cp.binds ∧ ((t.ctx c).port b.f.port.toNat).bound = p.bound
      else ((t.ctx c).port b.f.port.toNat).bound = false ∧ ∀ u ∈ (t.ctx c).cp.binds, u.num ≠ b.num
    (∀ n src, b.f.out = false → p.entries.length < p.depth → r.host = [] → r.peer = [] → n = b.take (bindSizes b.f ch.2) →
      src = cutRuns b.runs b.pos n → localSrc s c b.f.t.spool src →
      ∃ t, exec (.bindingEntryAppend c b.f.port) s = .next t ∧ t.mem = s.mem ∧ goes t n ∧
        ((t.ctx c).port b.f.port.toNat).entries = p.entries ++ [(b.entry ch s.clk (srcBytes s c b.f.t.spool src)).1]) ∧
    (∀ en rest n dst, b.f.out = true → p.visible s.clk = en :: rest → n = Nat.min (b.bytes ch en).1.length (b.pat.len - b.pos) →
      dst = cutRuns b.runs b.pos n → localDst s c b.f.t.dpool dst →
      ∃ t, exec (.bindingEntryDrain c b.f.port) s = .next t ∧ goes t n ∧
        ((t.ctx c).port b.f.port.toNat).entries = p.entries.tail ∧
        bytesLand s t c b.f.t.dpool dst (b.bytes ch en).1 (if b.f.t.dpool then p.range else [])) ∧
    (b.pat.len ≤ b.pos → ∃ t, exec (.bindingEnd c b.f.port) s = .next t ∧ ((t.ctx c).port b.f.port.toNat).bound = false ∧
      ((t.ctx c).port b.f.port.toNat).entries = p.entries ∧ (∀ u ∈ (t.ctx c).cp.binds, u.num ≠ b.num) ∧
      ∃ v, (t.ctx c).cpRun b.num = some v ∧ v.moved = true)) ∧
  (∀ (s : State) (c : CtxId) (r : CpRun) (a : Addr), (s.ctx c).cpRun r.num = some r →
    (r.peer ≠ [] ∨ (∃ p ∈ r.sums, p.2.2 = none) ∨ r.cwSent = true) → r.late = none → r.faulted = false →
    (s.ctx c).cp.halted = false → (∀ u ∈ (s.ctx c).cp.runs, u.late = none) →
    ∃ t det0, exec (.peerRefusal c r.num a) s = .next t ∧ recorded s t c 3 0x0102 2 (BitVec.ofNat 64 a.toNat) det0 0 ∧ t.mem = s.mem ∧
      ∀ q, r.peer = [q] → q.1 ≤ a.toNat → a.toNat < q.1 + q.2 →
        det0 = BitVec.ofNat 64 (3 * 2 ^ 12 + if 256 ≤ q.2 then 255 else q.2 - 1)) ∧
  (∀ (s : State) (c : CtxId) (r : CpRun) (off len : Nat) (v : W32), (s.ctx c).cpRun r.num = some r →
    (r.cwSent = true → ∃ t, exec (.peerWriteAck c r.num off len v) s = .next t ∧ cpGone s t c r ∧ t.mem = s.mem) ∧
    (r.cwSent = false → (off, len, none) ∈ r.sums → ∃ t u, exec (.peerWriteAck c r.num off len v) s = .next t ∧
      (t.ctx c).cpRun r.num = some u ∧ (off, len, some v) ∈ u.sums ∧ t.mem = s.mem))

/-- R219, R251 to R253: a begun load writes its entries and their valid count, but stops once a swap has made its side the front one; and
a begun `unpack` writes its output, once their source bytes are at hand; FBUF ends undefined. -/
def Sys2Proof.Claims.CopyLoadsLand : Prop :=
  ∀ (s : State) (c : CtxId) (r : CpRun) (bs : List Byte), (s.ctx c).cpRun r.num = some r → r.moved = false → r.faulted = false →
    r.late = none → r.host = [] → r.peer = [] → localSrc s c r.t.spool r.src → bs = srcBytes s c r.t.spool r.src →
    (∀ k side n, r.kind = .bank k side n false → r.dst = [] → k < (s.ctx c).banks.length →
      ∃ b, ((s.cpAdvance c r.num).ctx c).banks[k]? = some b ∧ (if side then b.sel.valid1 else b.sel.valid0) = bs.length / 2 ∧
        (if side then b.side1 else b.side0).take (bs.length / 2) = (numsOf 2 bs).map (BitVec.ofNat 16)) ∧
    (∀ k side n, r.kind = .bank k side n true → (s.ctx c).cp.halted = false → (∀ u ∈ (s.ctx c).cp.runs, u.late = none) →
      ∃ det0, recorded s (s.cpAdvance c r.num) c 3 0x0404 1 0 det0 (BitVec.ofNat 64 (512 + side.toNat * 4 + k))) ∧
    (∀ k side n lost, r.kind = .bank k side n lost → ((s.ctx c).banks.getD k Bank.reset).sel.front = side →
      ∃ u ∈ (s.ctx c).noteFronts.cp.runs, u.num = r.num ∧ u.kind = .bank k side n true) ∧
    (∀ k n, r.kind = .table k n → r.dst = [] → k < (s.ctx c).tables.length →
      ∃ b, ((s.cpAdvance c r.num).ctx c).tables[k]? = some b ∧ b.valid = bs.length / 4 ∧
        b.entries.take (bs.length / 4) = (numsOf 4 bs).map (BitVec.ofNat 32)) ∧
    (∀ f olen clen, r.kind = .unpackBody f olen clen → r.t.spool = false → (unpackGroups bs (olen / 32)).2 = true →
      runsLen r.dst = (unpackGroups bs (olen / 32)).1.length → localDst s c r.t.dpool r.dst →
      (r.t.dpool = false → ∀ a ∈ byteAt r.dst, a ∉ byteAt ((f.src.toNat, 16) :: r.src)) →
      bytesLand s (s.cpAdvance c r.num) c r.t.dpool r.dst (unpackGroups bs (olen / 32)).1
        (if r.t.dpool then (List.range 8192).map (f.fbuf.toNat * 4096 + ·) else []))

/-- R213, R239, R245 to R256: completions, stream bindings and their operator chains, decompression, codebook and table loads. -/
def Obligations.CopyCompletionsBindingsAndLoads : Prop :=
  Claims.CopyCompletionsAndBindings ∧ Claims.CopyLoadsLand ∧ Claims.OperatorChains ∧ Claims.GroupDataExpand

namespace Sys2Proof.Claims

/-! ## The Thrumol link -/

/-- The base of a peer window, by port (R59). -/
def windowBase (p : LinkId) : Nat := if p.val = 0 then 0x100000000000 else 0x120000000000
/-- Nothing of the device but port `p` differs. -/
def portOnly (s t : State) (p : LinkId) : Prop := t = { s with links := t.links } ∧ ∀ k, k ≠ p.val → t.link k = s.link k
/-- The lowest byte, in logical order, that a copy command has outstanding through port `p` is `a`: of its reads of the peer, else of the
piece of its one destination run not acknowledged, else its completion word (R259, R263). -/
def lowestOut (p : LinkId) (r : CpRun) (a : Nat) : Prop :=
  windowBase p ≤ a ∧ a < windowBase p + 2 ^ 41 ∧
    ((∃ n rest, r.peer = (a, n) :: rest) ∨
     (r.peer = [] ∧ ∃ b n off v rest, r.dst = [(b, n)] ∧ off < n ∧ r.sums = (off, v, none) :: rest ∧ a = b + off) ∨
     (r.peer = [] ∧ r.sums = [] ∧ r.cwSent = true ∧ a = r.t.caddr.toNat))
/-- The two flits of the 64-byte block at `b`, and no other, are in `rx`, in this order. -/
def blockOf (rx : List (Nat × BitVec 256)) (b : Nat) (lo hi : BitVec 256) : Prop := b % 64 = 0 ∧ rx = [(b, lo), (b + 32, hi)]

/-! ## The matrix engine -/

/-- The matrix command at the head of the queue may begin under plan `p`: conditions 1 to 4 of R278, and no fault of R296. -/
abbrev mxMay (s : State) (e : MxEntry) (j : Job) (p : MxPlan) : Prop :=
  (cur s).mxHead = some e ∧ (cur s).job = some j ∧ (cur s).mx.halted = false ∧ mxReady (cur s) s.clk p = true ∧
    mxEarly (cur s) j p = none ∧ (p.t.wval = 0 ∨ p.t.wval.toNat ≤ semOf (cur s) p.t.wsem)

/-- Command `e` has begun: it is in setup for `slen` clocks, with the later stages' lengths and what its begin clock fixed; its format
word is popped and its wait taken. -/
def mxBegan (s t : State) (e : MxEntry) (p : MxPlan) (i : Instr) (slen clen wlen fold : Nat) (more : MxRun → Prop) : Prop :=
  (∃ r, (cur t).mx.runs = (cur s).mx.runs ++ [r] ∧ r.num = e.num ∧ r.i = i ∧ r.stage = .setup ∧ r.due = s.clk + slen ∧
    r.clen = clen ∧ r.wlen = wlen ∧ r.fold = fold ∧ r.span = p.wr ∧ r.undef = none ∧
    (∀ u, p.accRd = some u → r.acc0 = (cur s).poolGet s.clk u.1 u.2) ∧ more r) ∧
  (cur t).fq = (if p.tile then (cur s).fq.tail else (cur s).fq) ∧
  (∀ m, semOf (cur t) m = if m = p.t.wsem then semOf (cur s) m - p.t.wval.toNat else semOf (cur s) m) ∧
  (cur t).pool = (cur s).pool ∧ (cur t).mxq = (cur s).mxq ∧ (cur t).x = (cur s).x ∧ t.mem = s.mem

/-- The stage T of R279. -/
def stageT (f32 : Bool) : Nat := if f32 then 16 else 32
/-- H[i][j] of R57. -/
def hadamard (i j : Nat) : Int := (-1) ^ ((List.range 5).countP fun k => i.testBit k && j.testBit k)
/-- An exact sum in an ACC64I element, and whether it saturated (R53). -/
def acc64 (x : Int) : Int := if x < -(2 : Int) ^ 63 then -(2 : Int) ^ 63 else if (2 : Int) ^ 63 ≤ x then (2 : Int) ^ 63 - 1 else x
/-- The integer an ACC64I element holds. -/
def int64 (n : Nat) : Int := (BitVec.ofNat 64 n).toInt
/-- The element of an integer. -/
def bits64 (x : Int) : Nat := (BitVec.ofInt 64 x).toNat

/-- A run's result in compute: tile ACC gets the 1024 elements of `val`. -/
def tileResult (j : Job) (u : MxRun) (acc : Byte) (f32 : Bool) (val : Nat → Nat) : Prop :=
  u.writes = placed (tileRange j acc f32).1 (tileBytes f32 ((List.range 1024).map val))

/-- The exact block sum of R284 over 32 elements. -/
def blockSum (a b : Nat → Int) : Int := ((List.range 32).map fun i => a i * b i).sum
/-- Value i of block b of row m of an operand. -/
def valueAt (v : List (List (List Int))) (m b i : Nat) : Int := ((v.getD m []).getD b []).getD i 0
/-- Nibble g of a metadata dword (R285). -/
def groupOf (md : Nat) (g : Nat) : Nat := md / 16 ^ g % 16
/-- The A value that kept element i of B block (n, b) meets (R285). -/
def sparseA (a : List (List (List Int))) (md m b i : Nat) : Int :=
  let k := 4 * (i / 2) + if i % 2 = 0 then groupOf md (i / 2) % 4 else groupOf md (i / 2) / 4
  valueAt a m (2 * b + k / 32) (k % 32)
/-- One accumulator element of a multiply (R284): integer mode, or scaled mode by R54 and R55. -/
def mulElem (f32 : Bool) (kb : Nat) (old : Nat) (bi : Nat → Int) (ea eb : Nat → Nat) : Nat :=
  if f32 then (List.range kb).foldl (fun acc b => (accFloat acc (bi b) (ea b) (eb b)).1) old
  else (List.range kb).foldl (fun acc b => bits64 (acc64 (int64 acc + bi b))) old

/-- The bytes an operand is formed from in compute: its planes in the pool of context `c`, or the indices captured at begin. -/
def operandBytes (s : State) (c : CtxId) (j : Job) (o : OpInfo) (idx : List Byte) (op : BitVec 9) (k : Nat) : List Byte :=
  if o.w = 0 then (s.ctx c).poolGet s.clk (2048 * (j.k.mbase + op.toNat)) (32 * k * o.stride) else idx
/-- The command is `mmul f`, or with `sparse` `mmuls f`. -/
def multiply (sparse : Bool) (f : MulForm) : Instr := if sparse then .mmuls f else .mmul f
/-- The metadata dword of B block (n, b) of a multiply in context `c` (R285). -/
def metaAt (s : State) (c : CtxId) (f : MulForm) (n b : Nat) : Nat :=
  leNat ((s.ctx c).poolGet s.clk (f.mdat.toNat + 8 * (n * (f.kbm1.toNat + 1) + b)) 8)
/-- No group of the metadata is reserved (R285). -/
def metaOk (s : State) (c : CtxId) (f : MulForm) : Prop :=
  ∀ n b g, n < 32 → b < f.kbm1.toNat + 1 → g < 16 → groupOf (metaAt s c f n b) g % 4 < groupOf (metaAt s c f n b) g / 4
/-- Run `u` holds the product of A of run `r` (context `c`, `f`) with B of run `rb` (context `cb`, `fb`): the sums of R284 and R285. -/
def product (s : State) (c cb : CtxId) (j jb : Job) (r rb u : MxRun) (f fb : MulForm) (sparse : Bool) : Prop :=
  let kb := f.kbm1.toNat + 1
  let ka := if sparse then 2 * kb else kb
  let a := operandVals (infoA r.fmt) r.na ka r.codeA (operandBytes s c j (infoA r.fmt) r.idxA f.aop ka)
  let b := operandVals (infoB rb.fmt) rb.nb kb rb.codeB (operandBytes s cb jb (infoB rb.fmt) rb.idxB fb.bop kb)
  u.undef = r.undef ∧ tileResult j u f.acc (fwMode r.fmt) fun q =>
    mulElem (fwMode r.fmt) kb (if f.zacc then 0 else (tileElems (fwMode r.fmt) r.acc0).getD q 0)
      (fun k => blockSum (fun i => if sparse then sparseA a (metaAt s cb fb (q % 32) k) (q / 32) k i else valueAt a (q / 32) k i)
        fun i => valueAt b (q % 32) k i)
      (fun k => (r.scaleA.getD (q / 32 * kb + k) 0x7F).toNat) fun k => (rb.scaleB.getD (q % 32 * kb + k) 0x7F).toNat

/-- The matrix command `e` at the head has faulted as it would begin under plan `p`: the record, the engine halted, nothing else of
it changed (R296, R297). -/
def mxFaulted (s : State) (i : Instr) (p : MxPlan) (code det1 : Nat) : Prop :=
  ∃ t, exec i s = .next t ∧ recorded s t s.focus 2 code 0 0 (BitVec.ofNat 64 (p.op * 2 ^ 56 + (p.acc.getD 0).toNat * 2 ^ 40)) (BitVec.ofNat 64 det1) ∧
    (cur t).mx = { (cur s).mx with halted := true } ∧ (cur t).mxq = (cur s).mxq ∧ (cur t).fq = (cur s).fq ∧ (cur t).pool = (cur s).pool ∧
    t.mem = s.mem
/-- A matrix command that meets conditions 1 to 3 of R278. -/
abbrev mxNext (s : State) (e : MxEntry) (j : Job) (p : MxPlan) : Prop :=
  (cur s).mxHead = some e ∧ (cur s).job = some j ∧ (cur s).mx.halted = false ∧ mxReady (cur s) s.clk p = true
/-- Every index of an index operand `o` at its range lies below its bank's valid count (R286). -/
def indicesOk (s : State) (o : OpInfo) (bank : Nat) (u : Nat × Nat) : Prop :=
  o.w ≠ 0 → ∀ i ∈ indicesOf o.w ((cur s).poolGet s.clk u.1 u.2), i < ((cur s).frontSide s.clk bank).2
/-- The smallest of the indices that fail is `i` (log entry 80). -/
def indexFails (s : State) (o : OpInfo) (bank : Nat) (u : Nat × Nat) (i : Nat) : Prop :=
  o.w ≠ 0 ∧ i ∈ indicesOf o.w ((cur s).poolGet s.clk u.1 u.2) ∧ ((cur s).frontSide s.clk bank).2 ≤ i ∧
    ∀ k ∈ indicesOf o.w ((cur s).poolGet s.clk u.1 u.2), ((cur s).frontSide s.clk bank).2 ≤ k → i ≤ k
/-- The first 0xFF of a byte list is at place `k`. -/
def firstBad (bs : List Byte) (k : Nat) : Prop := bs[k]? = some 0xFF ∧ (0xFF : Byte) ∉ bs.take k

/-- What differs among the members of a crier group, by the reason of R296: CSEQ, CMASK, the number of senders, BFMT, BNP, BSC, BCBF,
MODE or CCL of the format words, OP or KB (R282). -/
def crierDiffer (s : State) (l : List Crier) (k : Nat) : Prop :=
  let two (p : Crier → Crier → Prop) : Prop := ∃ a ∈ l, ∃ b ∈ l, p a b
  let word (m : Crier) : W64 := (s.ctx m.d).fq.headD 0 &&& 0xE042033E0
  match k with
  | 1 => two fun a b => a.f.t.cseq ≠ b.f.t.cseq
  | 2 => two fun a b => a.f.cmask ≠ b.f.cmask
  | 3 => (l.countP fun m => m.f.bsel == 2) ≠ 1
  | 4 => two fun a b => word a ≠ word b
  | 5 => two fun a b => a.op ≠ b.op ∨ a.f.kbm1 ≠ b.f.kbm1
  | _ => False

/-- A multiply's plan for the context in focus. -/
def planOf (s : State) (f : MulForm) (op : Nat) (j : Job) : MxPlan := mulPlan s.focus f op j ((cur s).fq.headD 0)

end Sys2Proof.Claims

/-- R60, R262 to R266, R349: what a trained port does with a flit, an acknowledgement, a resend, an access of the peer, and its
injection register. A flit that fails its CRC is counted and dropped; one sent again is neither counted nor flipped; a peer's write
is made only when both flits of its block are in; a link that goes down faults each command with an access outstanding through it. -/
def Obligations.LinkPortBehaviour : Prop :=
  ∀ (s : State) (p : LinkId),
    (∀ lanes : BitVec 4, exec (.thrumolPortTrained p lanes) s =
      .next (s.setLink p.val { s.link p.val with lanes := lanes, up := lanes == 8, resends := [] })) ∧
    (∀ v : W32, s.phaseDev ≠ 3 → ∃ t, exec (.lkinjWrite p v) s = .next t ∧
      t.link p.val = { s.link p.val with
        arm := v.getLsbD 16, flit := BitVec.ofNat 8 (v.toNat / 256), bit := BitVec.ofNat 8 v.toNat, passed := 0, armClk := s.clk } ∧
      t.rsvw = if v.toNat < 2 ^ 17 then s.rsvw else satInc s.rsvw) ∧
    ((s.link p.val).up = true →
      (∀ f : Flit, f.crcOk = false →
        exec (.flitReceive p f) s = .next (s.setLink p.val { s.link p.val with crce := satInc (s.link p.val).crce })) ∧
      (∀ (f : Flit) (acks : List Nat), f.crcOk = true → f.kind = .control acks →
        ∃ t, exec (.flitReceive p f) s = .next t ∧ portOnly s t p ∧
          t.link p.val = { s.link p.val with resends := (t.link p.val).resends, bcast := (t.link p.val).bcast } ∧
          (∀ n ∈ acks, tabGet 0 (t.link p.val).resends n = 0) ∧
          (∀ n, n ∉ acks → tabGet 0 (t.link p.val).resends n = tabGet 0 (s.link p.val).resends n) ∧
          ∀ b, b ∈ (t.link p.val).bcast ↔ b ≠ [] ∧ ∃ b' ∈ (s.link p.val).bcast, b = b'.filter fun n => decide (n ∉ acks)) ∧
      (∀ (f : Flit) (a : Addr), f.crcOk = true → f.kind = .lkWrite a →
        ∃ t w, exec (.flitReceive p f) s = .next t ∧ portOnly s t p ∧ (t.link p.val).rx = (s.link p.val).rx ++ [(a.toNat, w)] ∧
          ((s.link p.val).arm = false ∨ f.again = true → w = f.payload ∧ (t.link p.val).arm = (s.link p.val).arm ∧
            (t.link p.val).passed = (s.link p.val).passed) ∧
          (f.again = false → (s.link p.val).arm = true → (s.link p.val).armClk < s.clk →
            (s.link p.val).passed < (s.link p.val).flit.toNat →
            w = f.payload ∧ (t.link p.val).arm = true ∧ (t.link p.val).passed = (s.link p.val).passed + 1) ∧
          (f.again = false → (s.link p.val).arm = true → (s.link p.val).armClk < s.clk →
            (s.link p.val).flit.toNat ≤ (s.link p.val).passed →
            w = f.payload ^^^ BitVec.ofNat 256 (2 ^ (s.link p.val).bit.toNat) ∧ (t.link p.val).arm = false ∧
            (t.link p.val).inj = satInc (s.link p.val).inj)) ∧
      (∀ (f : Flit) (rule : RuleId) (l : List (BitVec 256)), f.crcOk = true → f.kind = .fuseRecord rule true → (s.link p.val).arm = false →
        (s.link p.val).fuse = l → (s.link p.val).fuseRule = rule.val → l.length = 31 →
        ∃ t, exec (.flitReceive p f) s = .next t ∧ portOnly s t p ∧ (t.link p.val).rxReady =
          (s.link p.val).rxReady ++ [(rule.val, (l ++ [f.payload]).flatMap flitBytes, s.clk)]) ∧
      (∀ (f : Flit) (c : CtxId) (num : W32) (a : Addr) (r : CpRun), f.crcOk = true → f.kind = .readData c num a →
        (s.link p.val).arm = false → (s.ctx c).cpRun num = some r →
        (∃ q ∈ r.peer, q.1 < windowBase p + a.toNat + 32 ∧ windowBase p + a.toNat < q.1 + q.2) →
        ∃ t, exec (.flitReceive p f) s = .next t ∧ (t.ctx c).cpRun num = some { r with
          peer := subFlit (windowBase p + a.toNat) r.peer, got := memWrite r.got (windowBase p + a.toNat) (flitBytes f.payload) } ∧
          t.mem = s.mem ∧ (t.ctx c).pool = (s.ctx c).pool) ∧
      (∀ n, tabGet 0 (s.link p.val).resends n < 16 → ∃ t, exec (.flitResend ⟨p, n⟩) s = .next t ∧ t.out = s.out ++ [.resend p.val] ∧
        (∀ m, tabGet 0 (t.link p.val).resends m = tabGet 0 (s.link p.val).resends m + if m = n then 1 else 0) ∧
        t.link p.val = { s.link p.val with resends := (t.link p.val).resends, retry := satInc (s.link p.val).retry }) ∧
      (∀ n, 16 ≤ tabGet 0 (s.link p.val).resends n → ∃ t, exec (.flitResend ⟨p, n⟩) s = .next t ∧ (t.link p.val).up = false ∧
        (t.link p.val).down = true ∧ t.sint.getLsbD 2 = true ∧ t.bfail = satAdd s.bfail (s.link p.val).bcast.length ∧
        (t.link p.val).bcast = [] ∧
        ∀ (c : CtxId) (r : CpRun) (a : Nat), (∃ x, (c.val, x) ∈ s.ctxs) → (s.ctx c).cp.halted = false → (s.ctx c).cp.runs = [r] →
          r.late = none → r.faulted = false → lowestOut p r a →
          (t.ctx c).cp.halted = true ∧ ∃ e ∈ t.faults, e.src = .ctx c.val ∧ e.r.eng = 3 ∧ e.r.code = 0x0406 ∧ e.r.state = 1 ∧
            e.r.loc = BitVec.ofNat 64 (r.num.toNat % 32 * 2 ^ 32 + r.num.toNat) ∧ e.r.addr = BitVec.ofNat 64 a ∧ e.r.det0 = r.w0 ∧
            e.r.det1 = BitVec.ofNat 64 p.val ∧ e.r.core = c.core ∧ e.r.time = s.now ∧ e.clk = s.clk) ∧
      (∀ a : PeerAccess, a.granted = true → rangeInDevice a.addr.toNat a.len = true → a.write = false →
        ∃ t, exec (.lkPeerAccess p a) s = .next t ∧ t = { s with out := s.out ++ [.peerReply p.val true (memRead s.mem a.addr.toNat a.len)] }) ∧
      (∀ (a : PeerAccess) (b : Nat) (lo hi : BitVec 256), a.write = true → blockOf (s.link p.val).rx b lo hi → 0 < a.len →
        b ≤ a.addr.toNat → a.addr.toNat + a.len ≤ b + 64 →
        (a.granted = true → rangeInDevice a.addr.toNat a.len = true → roFault s.ro a.addr.toNat a.len = none →
          (∀ i < a.len, s.inSlot (a.addr.toNat + i) = false) →
          let d := ((flitBytes lo ++ flitBytes hi).drop (a.addr.toNat - b)).take a.len
          ∃ t, exec (.lkPeerAccess p a) s = .next t ∧ stored s t a.addr.toNat d ∧ (t.link p.val).rx = [] ∧
            t.out = s.out ++ [.peerAck p.val true (pieceSum 1 0 d) (pieceSum 2 0 d)]) ∧
        ((a.granted = false ∨ rangeInDevice a.addr.toNat a.len = false ∨ roFault s.ro a.addr.toNat a.len ≠ none) →
          ∃ t, exec (.lkPeerAccess p a) s = .next t ∧ t.mem = s.mem ∧ t.out = s.out ++ [.peerAck p.val false 0 0])) ∧
      (∀ (a : PeerAccess) (k : Nat), a.write = true → 0 < a.len → k % 32 = 0 → a.addr.toNat / 64 ≤ k / 64 →
        k / 64 ≤ (a.addr.toNat + a.len - 1) / 64 → (∀ f ∈ (s.link p.val).rx, ¬ (f.1 ≤ k ∧ k < f.1 + 32)) →
        exec (.lkPeerAccess p a) s = .next s) ∧
      (∀ a : PeerAccess, a.write = false → (a.granted = false ∨ rangeInDevice a.addr.toNat a.len = false) →
        ∃ t, exec (.lkPeerAccess p a) s = .next t ∧ t.mem = s.mem ∧ t.out = s.out ++ [.peerReply p.val false []]))

/-- R278, R279, R287 to R292: a command that may begin enters setup with the stage lengths of R279, or for `cbswap` and `msem`
completes at once; `cbswap` exchanges the sides of its bank. -/
def Sys2Proof.Claims.MatrixCommandsBegin : Prop :=
  ∀ (s : State) (e : MxEntry) (j : Job),
    (∀ (acc : Byte) (side kind : Bool) (tl : MxTail), mxMay s e j (tilePlan tl 3 j acc kind true) →
      ∃ t, exec (.hrot acc side kind tl) s = .next t ∧ mxBegan s t e (tilePlan tl 3 j acc kind true) (.hrot acc side kind tl)
        (8 + stageT kind) 32 (stageT kind) (foldOf (s.core s.focus.core).slv) fun _ => True) ∧
    (∀ (acc : Byte) (kind : Bool) (tl : MxTail), mxMay s e j (tilePlan tl 5 j acc kind false) →
      ∃ t, exec (.acclr acc kind tl) s = .next t ∧ mxBegan s t e (tilePlan tl 5 j acc kind false) (.acclr acc kind tl)
        1 0 (stageT kind) 1 fun _ => True) ∧
    (∀ (src : BitVec 20) (acc : Byte) (kind : Bool) (tl : MxTail) (p : MxPlan), mxMay s e j p →
      p = { tilePlan tl 6 j acc kind true with
        chk := [(src.toNat, if kind then 4096 else 8192, false, 64)],
        rd := (src.toNat, if kind then 4096 else 8192) :: (tilePlan tl 6 j acc kind true).rd } →
      ∃ t, exec (.accadd src acc kind tl) s = .next t ∧ mxBegan s t e p (.accadd src acc kind tl)
        (8 + 2 * stageT kind) 4 (stageT kind) 1 fun r => r.src0 = (cur s).poolGet s.clk src.toNat (if kind then 4096 else 8192)) ∧
    (∀ (f : DrainForm) (p : MxPlan) (fw : W64), fw = (cur s).fq.headD 0 → mxMay s e j p →
      p = { tilePlan f.t 4 j f.acc (fwMode fw) true with
        tile := true, fmtBad := !drainWordOk fw,
        chk := [(f.dst.toNat, drainSize (fwOfmt fw), true, 64)] ++ if f.dsce then [(f.dsca.toNat, 32, false, 1)] else [],
        rd := (tilePlan f.t 4 j f.acc (fwMode fw) true).rd ++ (if f.dsce then [(f.dsca.toNat, 32)] else []),
        wr := (f.dst.toNat, drainSize (fwOfmt fw)) :: if f.clr then (tilePlan f.t 4 j f.acc (fwMode fw) true).wr else [] } →
      (f.dsce = true → fmtIsPlane (fwOfmt fw) = true → (0xFF : Byte) ∉ (cur s).poolGet s.clk f.dsca.toNat 32) →
      ∃ t, exec (.drain f) s = .next t ∧ mxBegan s t e p (.drain f) (8 + stageT (fwMode fw)) 8
        ((drainSize (fwOfmt fw) + 255) / 256 + if f.clr then stageT (fwMode fw) else 0) 1 fun r =>
          r.fmt = fw ∧ (f.dsce = true → r.scaleA = (cur s).poolGet s.clk f.dsca.toNat 32)) ∧
    (∀ (f : MulForm) (sparse : Bool) (fw : W64) (cap : Nat), f.bsel = 0 → fw = (cur s).fq.headD 0 → cap = s.planeCap (fwCcl fw) →
      mxMay s e j (planOf s f (if sparse then 2 else 1) j) → mulLate s.clk f fw (cur s) (planOf s f (if sparse then 2 else 1) j) = none →
      let na := Nat.min (Nat.min (fwAnp fw + 1) (infoA fw).planes) cap
      let nb := Nat.min (Nat.min (fwBnp fw + 1) (infoB fw).planes) cap
      let i : Instr := if sparse then .mmuls f else .mmul f
      let idx (o : OpInfo) (k : Nat) : Nat := if o.w = 0 then 0 else 32 * k * o.stride
      let x := (idx (infoA fw) (if sparse then 2 * (f.kbm1.toNat + 1) else f.kbm1.toNat + 1) + idx (infoB fw) (f.kbm1.toNat + 1) + 255) / 256
      ∃ t, exec i s = .next t ∧ mxBegan s t e (planOf s f (if sparse then 2 else 1) j) i
        (8 + (if f.zacc then 0 else stageT (fwMode fw)) + x) (8 * (f.kbm1.toNat + 1) * na * nb) (stageT (fwMode fw))
        (foldOf (s.core s.focus.core).slv) fun r => r.fmt = fw ∧ r.na = na ∧ r.nb = nb ∧ r.group = []) ∧
    (∀ (bank : BitVec 2) (tl : MxTail), mxMay s e j (barePlan tl 7) → (cur s).banks.length = 4 →
      ∃ t, exec (.mxCbswap bank tl) s = .next t ∧ (∀ u ∈ (cur t).mxq, u.num ≠ e.num) ∧
        (∀ k b, (cur s).banks[k]? = some b → ∃ b', (cur t).banks[k]? = some b' ∧ b'.side0 = b.side0 ∧ b'.side1 = b.side1 ∧
          b'.sel.front = if k = bank.toNat then !b.sel.front else b.sel.front) ∧
        (∀ m, semOf (cur t) m = if m = tl.wsem then semOf (cur s) m - tl.wval.toNat else semOf (cur s) m) ∧
        (tl.sval ≠ 0 → (e.num, mxDet0 7 0 0, tl.ssem.toNat, tl.sval.toNat) ∈ (cur t).mx.sigs)) ∧
    (∀ tl : MxTail, mxMay s e j (barePlan tl 8) →
      ∃ t, exec (.msem tl) s = .next t ∧ (∀ u ∈ (cur t).mxq, u.num ≠ e.num) ∧
        (∀ m, semOf (cur t) m = if m = tl.wsem then semOf (cur s) m - tl.wval.toNat else semOf (cur s) m) ∧
        (tl.sval ≠ 0 → (e.num, mxDet0 8 0 0, tl.ssem.toNat, tl.sval.toNat) ∈ (cur t).mx.sigs))

/-- R57, R58, R284, R285, R287 to R290: the result a command carries through compute: element (m, n) of its tile, or its output. -/
def Sys2Proof.Claims.MatrixTileResults : Prop :=
  ∀ (s : State) (c : CtxId) (j : Job) (r : MxRun), (s.ctx c).job = some j → (s.ctx c).mxSetup = some r → r.due ≤ s.clk →
    (∀ v ∈ (s.ctx c).mx.runs, v.stage ≠ .compute) → r.group = [] →
    ∃ t u, exec (.mxEnterCompute c) s = .next t ∧ u ∈ (t.ctx c).mx.runs ∧ u.num = r.num ∧ u.stage = .compute ∧
      u.due = s.clk + r.clen * r.fold ∧ t.mem = s.mem ∧ (t.ctx c).pool = (s.ctx c).pool ∧
      (∀ acc kind tl, r.i = .acclr acc kind tl → tileResult j u acc kind fun _ => 0) ∧
      (∀ acc side tl, r.i = .hrot acc side false tl → tileResult j u acc false fun q => bits64 (acc64 ((List.range 32).map fun k =>
        if side then hadamard (q / 32) k * int64 ((tileElems false r.acc0).getD (32 * k + q % 32) 0)
        else int64 ((tileElems false r.acc0).getD (32 * (q / 32) + k) 0) * hadamard k (q % 32)).sum)) ∧
      (∀ acc side tl, r.i = .hrot acc side true tl → tileResult j u acc true fun q => (hsumFloat ((List.range 32).map fun k =>
        if side then ((tileElems true r.acc0).getD (32 * k + q % 32) 0, decide (hadamard (q / 32) k = -1))
        else ((tileElems true r.acc0).getD (32 * (q / 32) + k) 0, decide (hadamard k (q % 32) = -1)))).1) ∧
      (∀ src acc kind tl, r.i = .accadd src acc kind tl → tileResult j u acc kind fun q =>
        let a := (tileElems kind r.acc0).getD q 0
        let b := (tileElems kind r.src0).getD q 0
        if kind then (if b % 2 ^ 31 = 0 then a else (sat32 (fp32.add a b)).1) else bits64 (acc64 (int64 a + int64 b))) ∧
      (∀ f, r.i = .drain f → fmtIsPlane (fwOfmt r.fmt) = false → ∃ clr, u.writes = placed f.dst.toNat
        ((List.range 1024).flatMap fun q => leBytes (fmtBytes (fwOfmt r.fmt))
          (drainElem f r.fmt ((tileElems (fwMode r.fmt) r.acc0).getD q 0) (r.scaleA.getD (q / 32) 0x7F).toNat).1) ++ clr ∧
        (f.clr = false → clr = []) ∧
        (f.clr = true → clr = placed (tileRange j f.acc (fwMode r.fmt)).1 (List.replicate (tileRange j f.acc (fwMode r.fmt)).2 0))) ∧
      (∀ f, r.i = .drain f → fmtIsPlane (fwOfmt r.fmt) = true → ∃ clr, u.writes = placed f.dst.toNat
        (let n := fmtPlanes (fwOfmt r.fmt)
        let dig (m i j : Nat) : Nat := (drainElem f r.fmt ((tileElems (fwMode r.fmt) r.acc0).getD (32 * m + i) 0)
          (r.scaleA.getD m 0x7F).toNat).1 / 16 ^ (n - 1 - j) % 16
        (List.range (32 * planeStride n)).map fun q =>
          let m := q / planeStride n
          let b := q % planeStride n
          if b < 16 * n then BitVec.ofNat 8 (dig m (2 * (b % 16)) (b / 16) + 16 * dig m (2 * (b % 16) + 1) (b / 16)) else 0) ++ clr ∧
        (f.clr = false → clr = []) ∧
        (f.clr = true → clr = placed (tileRange j f.acc (fwMode r.fmt)).1 (List.replicate (tileRange j f.acc (fwMode r.fmt)).2 0))) ∧
      (∀ f sparse, r.i = multiply sparse f → (sparse = true → metaOk s c f) → product s c c j j r r u f f sparse)

/-- R40, R48, R288: one element of a drain: the accumulator's exact value, times SCL where asked, with the target's scale, rounded
once. -/
def Sys2Proof.Claims.DrainElementsRoundOnce : Prop :=
  ∀ (f : DrainForm) (fw : W64) (e scale : Nat), drainWordOk fw = true → e < (if fwMode fw then 2 ^ 32 else 2 ^ 64) →
    let x := if fwMode fw then fp32.dec e else FVal.ofInt (int64 e)
    let y := fp32.dec f.scl.toNat
    let o := fwOfmt fw
    ∃ (v : FVal) (fl : FlagSet),
      (f.uscl = false → v = x ∧ fl = 0) ∧
      (f.uscl = true → (isFin x → isFin y → isFin v ∧ ratio v = ratio x * ratio y ∧ v.sign = (x.sign != y.sign) ∧ fl = 0) ∧
        ((x.isNaN || y.isNaN) = true → v.isNaN = true ∧ fl = if x.isSNaN || y.isSNaN then flNV else 0) ∧
        ((x.isNaN || y.isNaN) = false → zeroTimesInf x y = true → v.isNaN = true ∧ fl = flNV) ∧
        (∀ n, zeroTimesInf x y = false → infProduct x y = some n → v = .inf n ∧ fl = 0)) ∧
      (fmtIsPlane o = true → ∃ w, (isFin v → isFin w ∧ ratio w = ratio v * (2 : ℚ) ^ (127 - scale : ℤ)) ∧ (¬ isFin v → w = v) ∧
        drainElem f fw e scale = ((bpEncode (decide (o < 4)) (o % 4 + 1) w).1, (bpEncode (decide (o < 4)) (o % 4 + 1) w).2 ||| fl)) ∧
      (fmtIsPlane o = false → ∃ q : Nat × FlagSet, drainElem f fw e scale = (q.1, q.2 ||| fl) ∧
        (∀ g, floatOf o = some g → (isFin v → exactly g (ratio v) v.sign q) ∧
          (∀ n, v = .inf n → q = (signed g n (infMag g), if g.noInf then flSA ||| flNX else 0)) ∧
          (v.isNaN = true → q.1 = g.qnan)) ∧
        (0x08 ≤ o → o ≤ 0x0E → ∃ z, toRange (fmtRange o).1 (fmtRange o).2 v z q.2 ∧ q.1 = (z % 2 ^ fmtBits o).toNat))

/-- R276, R279, R282 to R285: a crier group enters compute together when every member may, each with its own A and the sender's B; its
compute lasts the largest 8·KB·na·nb times the largest F, and a clock more for each clock in which a member's operand read is refused
(log entry 94); until then a member that could go on counts a held clock. -/
def Sys2Proof.Claims.GroupsComputeTogether : Prop :=
  (∀ (s : State) (c : CtxId) (r : MxRun) (f : MulForm) (sparse : Bool), (∃ x, (c.val, x) ∈ s.ctxs) → (s.ctx c).mx.runs = [r] →
    r.stage = .compute → s.clk < r.due → r.i = multiply sparse f →
    let g := if r.group = [] then [c.val] else r.group
    ((∀ d ∈ g, Config.portRefused s.clk d = false) → s.refusePorts.ctx c = s.ctx c) ∧
    ((∃ d ∈ g, Config.portRefused s.clk d = true) → (s.refusePorts.ctx c).mx.runs = [{ r with due := r.due + 1 }] ∧
      (s.refusePorts.ctx c).pool = (s.ctx c).pool ∧ (Config.portRefused s.clk c.val = false → (s.refusePorts.ctx c).mx.held = true))) ∧
  ∀ (s : State) (c : CtxId) (j : Job) (r : MxRun) (l : List (CtxId × MxRun)), (s.ctx c).job = some j → (s.ctx c).mxSetup = some r →
    r.group ≠ [] → l = s.groupRuns r.group → r.due ≤ s.clk → (∀ v ∈ (s.ctx c).mx.runs, v.stage ≠ .compute) →
    ((l.length ≠ r.group.length ∨ ∃ m ∈ l, s.clk < m.2.due ∨ ∃ v ∈ (s.ctx m.1).mx.runs, v.stage = .compute) →
      ∃ t, exec (.mxEnterCompute c) s = .next t ∧ t.ctx c = { s.ctx c with mx := { (s.ctx c).mx with held := true } } ∧
        (∀ d, d ≠ c → t.ctx d = s.ctx d) ∧ t.mem = s.mem) ∧
    (∀ (snd : CtxId × MxRun) (js : Job) (fs : MulForm) (sp : Bool), l.length = r.group.length → (l.map Prod.fst).Nodup →
      (∀ m ∈ l, m.2.due ≤ s.clk ∧ (∀ v ∈ (s.ctx m.1).mx.runs, v.stage ≠ .compute) ∧ 1 ≤ m.2.fold ∧
        ∃ jm f, (s.ctx m.1).job = some jm ∧ m.2.i = multiply sp f ∧ f.bsel ≠ 0 ∧ f.kbm1 = fs.kbm1) →
      l.filter (fun m => isSender m.2.i) = [snd] → (s.ctx snd.1).job = some js → snd.2.i = multiply sp fs →
      (sp = true → metaOk s snd.1 fs) →
      ∃ t len fold, exec (.mxEnterCompute c) s = .next t ∧ t.mem = s.mem ∧
        (∀ m ∈ l, m.2.clen ≤ len ∧ m.2.fold ≤ fold) ∧ (∃ m ∈ l, m.2.clen = len) ∧ (∃ m ∈ l, m.2.fold = fold) ∧
        ∀ m ∈ l, (t.ctx m.1).pool = (s.ctx m.1).pool ∧ ∃ u ∈ (t.ctx m.1).mx.runs, u.num = m.2.num ∧ u.stage = .compute ∧
          u.due = s.clk + len * fold ∧
          ∀ jm f, (s.ctx m.1).job = some jm → m.2.i = multiply sp f → product s m.1 snd.1 jm js m.2 snd.2 u f fs sp)

/-- R40, R48, R53 to R58, R276, R279, R282 to R290: what the matrix commands compute, alone and in crier groups, from the pool of the clock in which they enter compute (log entry 17), and the held clocks (log entries 87, 94). -/
def Obligations.MatrixResults : Prop :=
  Claims.MatrixTileResults ∧ Claims.DrainElementsRoundOnce ∧ Claims.GroupsComputeTogether ∧ Claims.AccumulatorSums

/-- R188, R213, R280, R285, R296: in its last writeback clock a command writes its bytes and leaves the queue, unless a plane write bars one
of them: then it stays (log entry 90). It raises its flags and signals, unless a reserved metadata group made its result undefined: then
it faults. A signal that would overflow faults and is not applied. -/
def Sys2Proof.Claims.MatrixCommandsComplete : Prop :=
  (∀ (s : State) (c : CtxId) (r : MxRun), (s.ctx c).mx.runs.find? (fun u => u.stage == .writeback) = some r →
    (s.clk < r.due ∨ ∃ v ∈ r.writes, (s.ctx c).heldByte v.1 = true ∨ v.1 ∈ ((s.ctx c).noteAt s.clk).landed ∨
      ∃ h ∈ (s.ctx c).ex.held, h.addr = v.1) → exec (.mxCommandComplete c) s = .next s) ∧
  ∀ (s : State) (c : CtxId) (r : MxRun) (op acc : Nat) (tl : MxTail), (s.ctx c).mx.runs.find? (fun u => u.stage == .writeback) = some r →
    r.due ≤ s.clk → mxParts r.i = some (op, acc, tl) →
    (∀ a b, (a, b) ∈ r.writes → (s.ctx c).heldByte a = false ∧ a ∉ ((s.ctx c).noteAt s.clk).exw ∧
      a ∉ ((s.ctx c).noteAt s.clk).landed ∧ ∀ h ∈ (s.ctx c).ex.held, h.addr ≠ a) →
    let v := semOf (s.ctx c) tl.ssem + ((s.ctx c).noteAt s.clk).taken.getD tl.ssem.toNat 0
    ∃ t, exec (.mxCommandComplete c) s = .next t ∧
      (∀ u ∈ (t.ctx c).mxq, u.num ≠ r.num) ∧ (∀ u ∈ (t.ctx c).mx.runs, u.num ≠ r.num) ∧
      (∀ a, (∀ b, (a, b) ∉ r.writes) → memGet (t.ctx c).pool a = memGet (s.ctx c).pool a) ∧
      (∀ a b, (a, b) ∈ r.writes → (∀ b', (a, b') ∈ r.writes → b' = b) → memGet (t.ctx c).pool a = b) ∧
      (t.ctx c).flg = (s.ctx c).flg ∧ t.mem = s.mem ∧
      (r.undef = none → (t.ctx c).flgNew = (s.ctx c).flgNew ||| BitVec.ofNat 15 (r.flags.toNat * 2 ^ 5)) ∧
      (r.undef = none → v + tl.sval.toNat ≤ 65535 → t.faults = s.faults ∧
        ∀ m, semOf (t.ctx c) m = if m = tl.ssem then semOf (s.ctx c) m + tl.sval.toNat else semOf (s.ctx c) m) ∧
      (r.undef = none → tl.sval ≠ 0 → 65535 < v + tl.sval.toNat → (s.ctx c).mx.halted = false →
        recorded s t c 2 0x050A 1 0 (BitVec.ofNat 64 (op * 2 ^ 56 + acc * 2 ^ 40))
          (BitVec.ofNat 64 (tl.ssem.toNat * 2 ^ 32 + tl.sval.toNat * 2 ^ 16 + v)) ∧ (t.ctx c).sem = (s.ctx c).sem) ∧
      (∀ code det1, r.undef = some (code, det1) → (s.ctx c).mx.halted = false →
        recorded s t c 2 code 1 0 (BitVec.ofNat 64 (op * 2 ^ 56 + (if fwMode r.fmt then 1 else 2) * 2 ^ 48 + acc * 2 ^ 40)) det1 ∧
          (t.ctx c).sem = (s.ctx c).sem ∧ (t.ctx c).flgNew = (s.ctx c).flgNew)

/-- R282, R283, R296: the members of a crier group that are all present, free of faults of their own and matching begin together; while
one is awaited none begins; a mismatch is the crier fault 0x0506 on every one, with the lowest reason that holds and the first other
member (log entry 72), and none begins. -/
def Obligations.CrierGroupsBeginTogether : Prop :=
  (∀ (s : State) (l : List Crier) (k : Nat), l ≠ [] → 1 ≤ k → k ≤ 5 →
    (crierReason s l = k ↔ crierDiffer s l k ∧ ∀ j, 1 ≤ j → j < k → ¬ crierDiffer s l j)) ∧
  (∀ (s : State) (l : List Crier), l ≠ [] → crierReason s l ≤ 5) ∧
  ∀ (s : State) (c : CtxId) (me : Crier) (l : List Crier), s.crier c = some me → l = (crierSet c me.f.cmask).filterMap s.crier →
    (l.length < (crierSet c me.f.cmask).length → me.early s = none → me.late s = none →
      ∃ t, exec (.crierCompare c) s = .next t ∧ t.faults = s.faults ∧ t.mem = s.mem ∧
        ∀ d, (t.ctx d).mx.runs = (s.ctx d).mx.runs ∧ (t.ctx d).sem = (s.ctx d).sem ∧ (t.ctx d).fq = (s.ctx d).fq) ∧
    (l.length = (crierSet c me.f.cmask).length → (∀ m ∈ l, m.early s = none) → me ∈ l →
      (crierReason s l = 0 → (∀ m ∈ l, m.late s = none ∧ (m.p.t.wval = 0 ∨ m.p.t.wval.toNat ≤ semOf (s.ctx m.d) m.p.t.wsem)) →
        ∃ t, exec (.crierCompare c) s = .next t ∧ ∀ m ∈ l, ∃ r ∈ (t.ctx m.d).mx.runs, r.num = m.e.num ∧ r.i = m.i ∧ r.stage = .setup ∧
          r.group = l.map fun u => u.d.val) ∧
      (crierReason s l ≠ 0 → ∃ t, exec (.crierCompare c) s = .next t ∧ t.faults.length = s.faults.length + l.length ∧
        ∀ m ∈ l, (t.ctx m.d).mx.halted = true ∧ (t.ctx m.d).mx.runs = (s.ctx m.d).mx.runs ∧
          ∀ o ∈ l, o.d ≠ m.d → (∀ u ∈ l, u.d ≠ m.d → memberOf o.d ≤ memberOf u.d) →
            ∃ e ∈ t.faults, e.src = .ctx m.d.val ∧ e.r.eng = 2 ∧ e.r.code = 0x0506 ∧ e.r.state = 0 ∧ e.r.core = m.d.core ∧
              e.r.ctx = m.d.bg ∧ e.r.time = s.now ∧ e.clk = s.clk ∧
              e.r.det0 = BitVec.ofNat 64 (m.op * 2 ^ 56 + m.f.acc.toNat * 2 ^ 40) ∧
              e.r.det1 = BitVec.ofNat 64 (crierReason s l * 2 ^ 52 + memberOf o.d * 2 ^ 48 + o.f.t.cseq.toNat * 2 ^ 32 +
                m.f.t.cseq.toNat * 2 ^ 16 + m.f.cmask.toNat)))

/-- R51, R274, R284, R286, R288, R296, R297: the faults of a multiply without a crier and of a drain as they would begin, in their order: an empty
format queue, an illegal format word, the operand's views, the bank conflict, an index that is not valid, a scale byte 0xFF. -/
def Sys2Proof.Claims.MatrixBeginFaults : Prop :=
  ∀ (s : State) (e : MxEntry) (j : Job),
    (∀ (f : MulForm) (sparse : Bool) (p : MxPlan) (fw : W64), f.bsel = 0 → p = planOf s f (if sparse then 2 else 1) j → fw = (cur s).fq.headD 0 →
      mxNext s e j p →
      let kb := f.kbm1.toNat + 1
      let na := 32 * (if sparse then 2 * kb else kb) * (infoA fw).stride
      let nb := 32 * kb * (infoB fw).stride
      let pa := 2048 * (j.k.mbase + f.aop.toNat)
      let pb := 2048 * (j.k.mbase + f.bop.toNat)
      let last (v : BitVec 9) (n : Nat) : Nat := v.toNat + (n - 1) / 2048
      let i := multiply sparse f
      ((cur s).fq = [] → mxFaulted s i p 0x0503 0) ∧
      ((cur s).fq ≠ [] → mulWordOk fw = false → mxFaulted s i p 0x0502 fw.toNat) ∧
      ((cur s).fq ≠ [] → mulWordOk fw = true →
        (j.k.mn ≤ last f.aop na ∨ pa / 2 ^ 14 ≠ (pa + na - 1) / 2 ^ 14 → mxFaulted s i p 0x0505 (last f.aop na)) ∧
        (last f.aop na < j.k.mn → pa / 2 ^ 14 = (pa + na - 1) / 2 ^ 14 →
          (j.k.mn ≤ last f.bop nb ∨ pb / 2 ^ 14 ≠ (pb + nb - 1) / 2 ^ 14 → mxFaulted s i p 0x0505 (2 ^ 16 + last f.bop nb)) ∧
          (last f.bop nb < j.k.mn → pb / 2 ^ 14 = (pb + nb - 1) / 2 ^ 14 →
            (j.k.an ≤ f.acc.toNat → mxFaulted s i p 0x0505 (2 ^ 17 + f.acc.toNat)) ∧
            (fwMode fw = false → j.k.an = f.acc.toNat + 1 → mxFaulted s i p 0x0505 (2 ^ 17 + f.acc.toNat + 1)) ∧
            (f.acc.toNat + (if fwMode fw then 0 else 1) < j.k.an →
              (∀ u ∈ p.chk, poolFault j.cv1 j.cv2 j.cv3 pathMX u.1 u.2.1 = none ∧ u.1 % u.2.2.2 = 0) → pa / 2 ^ 14 % 4 = pb / 2 ^ 14 % 4 →
              mxFaulted s i p 0x0504 (pa / 2 ^ 14 % 4 * 4 + pb / 2 ^ 14 % 4))))) ∧
      (mxEarly (cur s) j p = none →
        (∀ k, indexFails s (infoA fw) (fwAcbk fw) (pa, na) k → mxFaulted s i p 0x0508
          (fwAcbk fw * 2 ^ 40 + (infoA fw).w * 2 ^ 32 + k * 2 ^ 16 + ((cur s).frontSide s.clk (fwAcbk fw)).2)) ∧
        (indicesOk s (infoA fw) (fwAcbk fw) (pa, na) →
          (∀ k, indexFails s (infoB fw) (fwBcbk fw) (pb, nb) k → mxFaulted s i p 0x0508
            (fwBcbk fw * 2 ^ 40 + (infoB fw).w * 2 ^ 32 + k * 2 ^ 16 + ((cur s).frontSide s.clk (fwBcbk fw)).2)) ∧
          (indicesOk s (infoB fw) (fwBcbk fw) (pb, nb) →
            (∀ k, fwAsc fw = true → firstBad ((cur s).poolGet s.clk f.asca.toNat (32 * kb)) k → mxFaulted s i p 0x0509 k) ∧
            (∀ k, (fwAsc fw = true → (0xFF : Byte) ∉ (cur s).poolGet s.clk f.asca.toNat (32 * kb)) → fwBsc fw = true →
              firstBad ((cur s).poolGet s.clk f.bsca.toNat (32 * kb)) k → mxFaulted s i p 0x0509 (2 ^ 32 + k)))))) ∧
    (∀ (f : DrainForm) (p : MxPlan) (fw : W64), fw = (cur s).fq.headD 0 → mxNext s e j p →
      p = { tilePlan f.t 4 j f.acc (fwMode fw) true with
        tile := true, fmtBad := !drainWordOk fw,
        chk := [(f.dst.toNat, drainSize (fwOfmt fw), true, 64)] ++ if f.dsce then [(f.dsca.toNat, 32, false, 1)] else [],
        rd := (tilePlan f.t 4 j f.acc (fwMode fw) true).rd ++ (if f.dsce then [(f.dsca.toNat, 32)] else []),
        wr := (f.dst.toNat, drainSize (fwOfmt fw)) :: if f.clr then (tilePlan f.t 4 j f.acc (fwMode fw) true).wr else [] } →
      ((cur s).fq = [] → mxFaulted s (.drain f) p 0x0503 0) ∧
      ((cur s).fq ≠ [] → drainWordOk fw = false → mxFaulted s (.drain f) p 0x0502 fw.toNat) ∧
      (∀ k, mxEarly (cur s) j p = none → f.dsce = true → fmtIsPlane (fwOfmt fw) = true →
        firstBad ((cur s).poolGet s.clk f.dsca.toNat 32) k → mxFaulted s (.drain f) p 0x0509 (2 ^ 33 + k)))

/-- R274, R278 to R280, R284 to R292, R296, R297: matrix commands begin, complete, and fault as they would begin; source and accumulator bytes are those of the begin clock (log entry 17), of several bad operands the first is named (log entries 80, 90, 103). -/
def Obligations.MatrixCommandsBeginAndComplete : Prop :=
  Claims.MatrixCommandsBegin ∧ Claims.MatrixCommandsComplete ∧ Claims.MatrixBeginFaults

namespace Sys2Proof.Claims

/-! ## Line processors -/

/-- The processor in focus. -/
abbrev curP (s : State) : Proc := s.proc s.lnFocus.val
/-- Lane `i` of vector register `r` of the processor in focus. -/
def laneAt (s : State) (r : BitVec 4) (i : Nat) : W32 := ((curP s).x.getD r.toNat []).getD i 0
/-- k register of a field (R319). -/
def kAt (s : State) (r : BitVec 4) : W32 := (curP s).k.getD (r.toNat % 8) 0
/-- A scalar or address operand: the immediate, plus a k register when the field's flag is set (R319). -/
def scalarAt (s : State) (fld : BitVec 4) (imm : W32) : W32 := if fld.getLsbD 3 then imm + kAt s fld else imm
/-- The second operand of a vector binary form (R319). -/
def operandB (s : State) (f : LnForm) (i : Nat) : W32 := if f.f.getLsbD 0 then scalarAt s f.b f.imm else laneAt s f.b i

/-- The processor in focus has run an instruction: vector register `r` takes `v`, and it goes on (R316). -/
def laneWrote (s : State) (r : BitVec 4) (v : Nat → W32) : State :=
  s.lnNext { curP s with x := (curP s).x.set r.toNat ((List.range 32).map v) }
/-- The same for a k register. -/
def scalWrote (s : State) (r : BitVec 4) (v : W32) : State := s.lnNext { curP s with k := (curP s).k.set (r.toNat % 8) v }

/-- The lane operations of R321 and R322 but `vsel`, `vidx` and `vlut`: the result from the old lane, a and b. -/
def lnLaneRow : Instr → Option (LnForm × (W32 → W32 → W32 → W32))
  | .lnVadd f => some (f, fun _ a b => a + b)
  | .lnVsub f => some (f, fun _ a b => a - b)
  | .lnVmul f => some (f, fun _ a b => BitVec.ofNat 32 (a.toNat * b.toNat))
  | .lnVmac f => some (f, fun o a b => BitVec.ofNat 32 (o.toNat + a.toNat * b.toNat))
  | .lnVmin f => some (f, fun _ a b => if a.toInt ≤ b.toInt then a else b)
  | .lnVmax f => some (f, fun _ a b => if a.toInt ≤ b.toInt then b else a)
  | .lnVand f => some (f, fun _ a b => a &&& b)
  | .lnVor f => some (f, fun _ a b => a ||| b)
  | .lnVxor f => some (f, fun _ a b => a ^^^ b)
  | .lnVclt f => some (f, fun _ a b => if a.toInt < b.toInt then 1 else 0)
  | .lnVceq f => some (f, fun _ a b => if a = b then 1 else 0)
  | .lnVshl f => some (f, fun _ a _ => BitVec.ofNat 32 (a.toNat * 2 ^ f.imm.toNat))
  | .lnVshr f => some (f, fun _ a _ => BitVec.ofNat 32 (a.toNat / 2 ^ f.imm.toNat))
  | .lnVsra f => some (f, fun _ a _ => BitVec.ofInt 32 (a.toInt / 2 ^ f.imm.toNat))
  | .lnVrshr f => some (f, fun _ a _ =>
      if f.imm = 0 then a else BitVec.ofInt 32 ((a.toInt + 2 ^ (f.imm.toNat - 1)) / 2 ^ f.imm.toNat))
  | .lnVabs f => some (f, fun _ a _ => BitVec.ofInt 32 a.toInt.natAbs)
  | _ => none

/-- The scalar operations of R326: the result from ka and q. -/
def lnScalRow : Instr → Option (LnForm × (W32 → W32 → W32))
  | .kli f => some (f, fun _ _ => f.imm)
  | .kadd f => some (f, fun a q => a + q)
  | .ksub f => some (f, fun a q => a - q)
  | .kmul f => some (f, fun a q => BitVec.ofNat 32 (a.toNat * q.toNat))
  | .kmin f => some (f, fun a q => if a.toInt ≤ q.toInt then a else q)
  | .kmax f => some (f, fun a q => if a.toInt ≤ q.toInt then q else a)
  | .kand f => some (f, fun a q => a &&& q)
  | .kshl f => some (f, fun a q => if 32 ≤ q.toNat then 0 else BitVec.ofNat 32 (a.toNat * 2 ^ q.toNat))
  | .kshr f => some (f, fun a q => if 32 ≤ q.toNat then 0 else BitVec.ofNat 32 (a.toNat / 2 ^ q.toNat))
  | _ => none

/-- The processor in focus runs a strip of kernel `k` at position `pos` of the chain `m` of stream `st` (R315). -/
abbrev inChain (s : State) (st : Nat) (m : MillCfg) (pos : Nat) (k : RowKernel) : Prop :=
  s.chainOf s.lnFocus.val = some (st, m) ∧ pos = s.lnFocus.val % 8 - m.first ∧ m.kernels[pos]? = some k
/-- IH, IW and the sign of the input samples at a chain position (R315). -/
def inH (m : MillCfg) (pos : Nat) : Nat := (m.kernels.take pos).foldl (fun h k => h / k.rstep) m.height
def inW (m : MillCfg) (pos : Nat) : Nat := if pos = 0 then m.width else (m.kernels[pos - 1]?.map (·.ow)).getD 0
def inSign (m : MillCfg) (pos : Nat) : Bool := decide (0 < pos) && (m.kernels[pos - 1]?.map (·.osign)).getD false
/-- r of output row `o`, and its window row lnj, clamp(r − j, 0, IH − 1) (R315). -/
def rowR (k : RowKernel) (o : Nat) : Nat := o * k.rstep + (k.rstep - 1) + k.odly
def windowRow (k : RowKernel) (ih o j : Nat) : Nat := (max 0 (min ((rowR k o : Int) - j) ((ih : Int) - 1))).toNat
/-- The input row that window row lnj of the strip in focus is: one of the ring, present (R309), or one of the processor before. -/
def ringRow (s : State) (st : Nat) (m : MillCfg) (k : RowKernel) (j : Nat) : Option InRow :=
  (s.stream st).ring.find? fun r =>
    r.frame == (curP s).frame && r.row == windowRow k (inH m 0) (curP s).orow j && decide (r.born ≤ s.clk)
def chainRow (s : State) (m : MillCfg) (pos : Nat) (k : RowKernel) (j : Nat) : Option OutRow :=
  (s.proc (s.lnFocus.val - 1)).outRow (curP s).frame (windowRow k (inH m pos) (curP s).orow j)
/-- A sample that strip `t` of the processor before has written is present (R316): of the newest row, where r ≤ IH − 1 and ISPAN ≠ 0, only
the strips up to min(NS − 1, ⌊((s + 1)·ISPAN + REACH − 1) / OSPANp⌋). -/
def stripIn (s : State) (m : MillCfg) (pos : Nat) (k : RowKernel) (j t : Nat) : Bool :=
  let newest := windowRow k (inH m pos) (curP s).orow j = windowRow k (inH m pos) (curP s).orow 0 ∧ rowR k (curP s).orow ≤ inH m pos - 1
  if newest ∧ k.ispan ≠ 0 then
    m.kernels[pos - 1]?.all fun pre => decide (t ≤ Nat.min (pre.nstrip - 1) ((((curP s).strip + 1) * k.ispan + k.reach - 1) / pre.ospan))
  else true
/-- Sample `a` of window row lnj, if it is present. -/
def sampleAt (s : State) (st : Nat) (m : MillCfg) (pos : Nat) (k : RowKernel) (j a : Nat) : Option (BitVec 16) :=
  if pos = 0 then (ringRow s st m k j).bind fun r => r.samples[a]?
  else (chainRow s m pos k j).bind fun r => (tabFind r.samples a).bind fun u => if stripIn s m pos k j u.1 then some u.2 else none
/-- The status code of window row lnj, if it is final (R318). -/
def statusAt (s : State) (st : Nat) (m : MillCfg) (pos : Nat) (k : RowKernel) (j : Nat) : Option Nat :=
  if pos = 0 then (ringRow s st m k j).map (·.status) else (chainRow s m pos k j).bind fun r => if r.complete then some r.status else none

end Sys2Proof.Claims

/-- R319, R321 to R323: the lane operations, `vsel`, `vidx`, `vlut` and the reductions write their register and nothing else; no value
stops them. -/
def Sys2Proof.Claims.LineLaneOperations : Prop :=
  (∀ (s : State) (i : Instr) (f : LnForm) (fn : W32 → W32 → W32 → W32), lnLaneRow i = some (f, fn) → i.wf = true →
    exec i s = .next (laneWrote s f.d fun n => fn (laneAt s f.d n) (laneAt s f.a n) (operandB s f n))) ∧
  ∀ (s : State) (f : LnForm),
    exec (.lnVsel f) s = .next (laneWrote s f.d fun n => if laneAt s f.c n ≠ 0 then laneAt s f.a n else laneAt s f.b n) ∧
    exec (.lnVidx f) s = .next (laneWrote s f.d fun n => BitVec.ofNat 32 n) ∧
    (∀ st m pos k, inChain s st m pos k → exec (.lnVlut f) s = .next (laneWrote s f.d fun n =>
      let a := (laneAt s f.a n).toInt
      BitVec.ofNat 32 (((k.lut.getD []).getD (if a < 0 then 0 else if 4095 < a then 4095 else a.toNat) 0).toNat))) ∧
    exec (.lnVrsum f) s = .next (scalWrote s f.d (BitVec.ofNat 32 ((List.range 32).map fun n => (laneAt s f.a n).toNat).sum)) ∧
    (∃ v, exec (.lnVrmin f) s = .next (scalWrote s f.d v) ∧ (∃ n, n < 32 ∧ v = laneAt s f.a n) ∧
      ∀ n, n < 32 → v.toInt ≤ (laneAt s f.a n).toInt) ∧
    (∃ v, exec (.lnVrmax f) s = .next (scalWrote s f.d v) ∧ (∃ n, n < 32 ∧ v = laneAt s f.a n) ∧
      ∀ n, n < 32 → (laneAt s f.a n).toInt ≤ v.toInt)

/-- R315, R316, R318, R324 to R328: the scalar operations and strip values, the load of samples, an undefined value for each that is not
present, the store into the output row with its saturations, and the row's status; `nop` goes on, and the last instruction ends the
strip. -/
def Sys2Proof.Claims.LineRowsAndScalars : Prop :=
  (∀ (s : State) (i : Instr) (f : LnForm) (fn : W32 → W32 → W32), lnScalRow i = some (f, fn) → i.wf = true →
    exec i s = .next (scalWrote s f.d (fn (kAt s f.a) (scalarAt s f.b f.imm)))) ∧
  (∀ (s : State) (f : LnForm) (st : Nat) (m : MillCfg) (pos : Nat) (k : RowKernel), inChain s st m pos k →
    exec (.lld f) s = .next (laneWrote { s with free := s.free + 32 } f.d fun n =>
      let a := (max 0 (min ((scalarAt s f.a f.imm).toInt + n * (f.f.toNat % 4 + 1)) ((inW m pos : Int) - 1))).toNat
      let v := (sampleAt s st m pos k (f.c.toNat % 8) a).getD ((Config.freeWord (s.free + n)).setWidth 16)
      if inSign m pos then BitVec.ofInt 32 v.toInt else BitVec.ofNat 32 v.toNat)) ∧
  (∀ (s : State) (f : LnForm) (st : Nat) (m : MillCfg) (pos : Nat) (k : RowKernel) (r : OutRow), inChain s st m pos k →
    (curP s).outRow (curP s).frame (curP s).orow = some r →
    (∃ t r', exec (.lst f) s = .next t ∧ (curP t).outRow (curP s).frame (curP s).orow = some r' ∧
      (∀ (n : Nat) (a : Nat), n < 32 → (a : Int) = (scalarAt s f.a f.imm).toInt + n * (f.f.toNat % 4 + 1) → a < k.ow →
        tabFind r'.samples a = some ((curP s).strip,
          let v := (laneAt s f.b n).toInt
          if k.osign then BitVec.ofInt 16 (if v < -32768 then -32768 else if 32767 < v then 32767 else v)
          else BitVec.ofInt 16 (if v < 0 then 0 else if 65535 < v then 65535 else v))) ∧
      (∀ a : Nat, (∀ n : Nat, n < 32 → (a : Int) ≠ (scalarAt s f.a f.imm).toInt + n * (f.f.toNat % 4 + 1)) →
        tabFind r'.samples a = tabFind r.samples a) ∧ (curP t).x = (curP s).x ∧ (curP t).k = (curP s).k ∧ t.mem = s.mem ∧
      (t.stream st).satc = satAdd (s.stream st).satc ((List.range 32).countP fun (n : Nat) =>
        let a := (scalarAt s f.a f.imm).toInt + n * (f.f.toNat % 4 + 1)
        let v := (laneAt s f.b n).toInt
        decide (0 ≤ a) && decide (a < k.ow) && (if k.osign then decide (v < -32768) || decide (32767 < v) else decide (v < 0) || decide (65535 < v)))) ∧
    (∃ t r', exec (.rstat f) s = .next t ∧ (curP t).outRow (curP s).frame (curP s).orow = some r' ∧ r'.samples = r.samples ∧
      r'.status = Nat.max r.status ((scalarAt s f.a f.imm).toNat % 4))) ∧
  (∀ (s : State) (f : LnForm) (st : Nat) (m : MillCfg) (pos : Nat) (k : RowKernel), inChain s st m pos k →
    let u : State := { s with free := s.free + 1 }
    (f.imm = 0 → exec (.ksr f) s = .next (scalWrote u f.d (BitVec.ofNat 32 (curP s).strip))) ∧
    (f.imm = 1 → exec (.ksr f) s = .next (scalWrote u f.d (BitVec.ofNat 32 (curP s).orow))) ∧
    (f.imm = 2 → exec (.ksr f) s = .next (scalWrote u f.d (BitVec.ofNat 32 (rowR k (curP s).orow)))) ∧
    (f.imm = 3 → exec (.ksr f) s = .next (scalWrote u f.d (BitVec.ofNat 32 (curP s).frame))) ∧
    (f.imm = 4 → exec (.ksr f) s = .next (scalWrote u f.d (BitVec.ofNat 32 (inW m pos)))) ∧
    (f.imm = 5 → exec (.ksr f) s = .next (scalWrote u f.d (BitVec.ofNat 32 s.now.toNat))) ∧
    (f.imm = 6 → exec (.ksr f) s = .next (scalWrote u f.d (BitVec.ofNat 32 pos))) ∧
    (∀ j, j < 8 → f.imm = BitVec.ofNat 32 (8 + j) →
      (∀ c, statusAt s st m pos k j = some c → exec (.ksr f) s = .next (scalWrote u f.d (BitVec.ofNat 32 c))) ∧
      (statusAt s st m pos k j = none → exec (.ksr f) s = .next (scalWrote u f.d ((Config.freeWord s.free).setWidth 32 &&& 3))))) ∧
  (∀ s : State, exec .lnNop s = .next (s.lnNext (curP s)) ∧
    ∀ st m pos k, inChain s st m pos k → (curP s).busy = true →
      ((curP s).ip + 1 < k.code.length → s.lnNext (curP s) = s.setProc s.lnFocus.val { curP s with ip := (curP s).ip + 1 }) ∧
      (k.code.length ≤ (curP s).ip + 1 → (curP (s.lnNext (curP s))).busy = false ∧
        (if (curP s).strip + 1 < k.nstrip then (curP (s.lnNext (curP s))).strip = (curP s).strip + 1 ∧
          (curP (s.lnNext (curP s))).orow = (curP s).orow ∧ (curP (s.lnNext (curP s))).frame = (curP s).frame
        else (curP (s.lnNext (curP s))).strip = 0 ∧
          (if (curP s).orow + 1 < inH m (pos + 1) then (curP (s.lnNext (curP s))).orow = (curP s).orow + 1 ∧
            (curP (s.lnNext (curP s))).frame = (curP s).frame
          else (curP (s.lnNext (curP s))).orow = 0 ∧ (curP (s.lnNext (curP s))).frame = (curP s).frame + 1))))

/-- R319 to R328: the instructions of the line processors. -/
def Obligations.LineProcessorInstructions : Prop :=
  Claims.LineLaneOperations ∧ Claims.LineRowsAndScalars

namespace Sys2Proof.Claims

/-! ## The alignment unit -/

/-- The command in focus has been taken, `cost` clocks keep the unit, and only rule `q` may differ. -/
def alTook (s t : State) (q : Nat) (cost : Nat) : Prop :=
  cur t = { cur s with alq := (cur s).alq.tail } ∧ t.alFree = s.clk + cost ∧ (∀ k, k ≠ q → t.rule k = s.rule k) ∧ t.mem = s.mem ∧
    t.faults = s.faults ∧ t.almanac = s.almanac
/-- A command that defines: `t` has rule `q` as `r`, and no write to come is added. -/
def alDefined (s : State) (i : Instr) (q : BitVec 6) (r : Rule → Prop) : Prop :=
  ∃ t, exec i s = .next t ∧ alTook s t q.toNat 1 ∧ t.alWrites = s.alWrites ∧ r (t.rule q.toNat)
/-- Byte `i` of a dword as a member position of `fmem` (R340). -/
def memberOfByte (m : W64) (i : Nat) : Option Nat :=
  let b := m.toNat / 2 ^ (8 * i) % 256
  if 128 ≤ b then some (b - 128) else none
/-- A complete definition with members `ms` (R343). -/
def complete (r : Rule) (ms : List Nat) : Prop :=
  (∃ k, r.members = ms.map some ++ List.replicate k none) ∧ (ms = [] ↔ r.mode = 2) ∧ ms.Nodup ∧
    (ms ≠ [] → r.refpos < ms.length ∧ r.dead ≠ 0) ∧ r.ringSet = true ∧ r.cntSet = true ∧
    ¬ (r.ring.toNat ≤ r.cnt.toNat ∧ r.cnt.toNat < r.ring.toNat + 1024 * r.nrec)
/-- Check `k` of R343 fails for rule `r`. -/
def defect (r : Rule) (k : Nat) : Prop :=
  match k with
  | 1 => (¬ ∃ (ms : List Nat) (n : Nat), r.members = ms.map some ++ List.replicate n none) ∨ ((∀ m ∈ r.members, m = none) ∧ r.mode ≠ 2) ∨
      ((∃ m ∈ r.members, m ≠ none) ∧ r.mode = 2)
  | 2 => ¬ r.streams.Nodup
  | 3 => r.streams ≠ [] ∧ r.streams.length ≤ r.refpos
  | 4 => r.streams ≠ [] ∧ r.dead = 0
  | 5 => r.ringSet = false ∨ r.cntSet = false
  | 6 => r.ring.toNat ≤ r.cnt.toNat ∧ r.cnt.toNat < r.ring.toNat + 1024 * r.nrec
  | _ => False
/-- A memory fault of a command: PATH 5, CLASS 0, a write of `n` bytes, by the sequencer of the context in focus (R72, R350). -/
def alMemFaulted (s : State) (i : Instr) (code st a n : Nat) : Prop :=
  ∃ t, exec i s = .next t ∧ recorded s t s.focus 5 code st (BitVec.ofNat 64 a)
      (BitVec.ofNat 64 (2 ^ 21 + 5 * 2 ^ 12 + if 256 ≤ n then 255 else n - 1)) 0 ∧
    t.rules = s.rules ∧ t.alWrites = s.alWrites ∧ t.mem = s.mem
/-- An address of a ring or counter of `n` bytes faults: outside the regions or across the end of one, out of the granary, or misaligned
(R2, R59, R342). -/
def alAddressFaults (s : State) (i : Instr) (a n align : Nat) : Prop :=
  (regionOf a = none → alMemFaulted s i 0x0101 2 a n) ∧
    ∀ r e, regionOf a = some (r, e) → (e < a + n → alMemFaulted s i 0x0101 2 e n) ∧
      (a + n ≤ e → (r ≠ .granary → alMemFaulted s i 0x0105 0 a n) ∧ (r = .granary → a % align ≠ 0 → alMemFaulted s i 0x0104 0 a n))

/-- The distance of two times. -/
def timesApart (a b : W64) : Nat := ((a.toNat : Int) - b.toNat).natAbs
/-- Entry `i` of stream `st` is live above a floor (R345). -/
def liveAt (s : State) (st : Nat) (floor : W64) (i : Nat) : Prop :=
  i < 4 ∧ (s.alm st i).frame ≠ 0 ∧ floor.toNat < (s.alm st i).tstart.toNat
/-- near(st, v) of R345: the live entry with least distance, of two as near the one of larger FRAME; none where no entry is live. -/
def nearIs (s : State) (st : Nat) (floor v : W64) : Option AlmEntry → Prop
  | none => ∀ i, ¬ liveAt s st floor i
  | some e => (∃ i, liveAt s st floor i ∧ s.alm st i = e) ∧ ∀ i, liveAt s st floor i → timesApart e.tstart v < timesApart (s.alm st i).tstart v ∨
      (timesApart e.tstart v = timesApart (s.alm st i).tstart v ∧ (s.alm st i).frame.toNat ≤ e.frame.toNat)
/-- ref, anchor and the members' entries c[i] of `decide` (R345). -/
def chosen (s : State) (r : Rule) (ref : Option AlmEntry) (anchor : W64) (cs : List (Option AlmEntry)) : Prop :=
  nearIs s (r.streams.getD r.refpos 0) r.floor r.topen ref ∧ anchor = (ref.map (·.tstart)).getD r.topen ∧ cs.length = r.streams.length ∧
    ∀ i st : Nat, r.streams[i]? = some st → ∃ c : Option AlmEntry, nearIs s st r.floor anchor c ∧ 
      cs[i]? = some (Option.filter (fun e : AlmEntry => decide (timesApart e.tstart anchor ≤ r.delta)) c)
/-- ref exists and no c[i] is none. -/
def whole (ref : Option AlmEntry) (cs : List (Option AlmEntry)) : Bool := ref.isSome && cs.all Option.isSome
/-- SPREAD of the members present: from the least to the greatest TSTART, held at 2^32 − 1 (with none present, log entry 27). -/
def spreadIs (n : Nat) (cs : List (Option AlmEntry)) : Prop :=
  n < 2 ^ 32 ∧ ∀ lo hi : AlmEntry, some lo ∈ cs → some hi ∈ cs →
    (∀ e, some e ∈ cs → lo.tstart.toNat ≤ e.tstart.toNat ∧ e.tstart.toNat ≤ hi.tstart.toNat) →
    n = Nat.min (hi.tstart.toNat - lo.tstart.toNat) (2 ^ 32 - 1)
/-- The record of rule `q`, as it stood in `r`, with the next count, and the counter's advance after it are among the writes to come: its
place, every dword of R348, and with MODE 1 the broadcast that follows (R347 to R349). -/
def recordWritten (t : State) (q : Nat) (r : Rule) (anchor : W64) (cs : List (Option AlmEntry)) (part : Bool) : Prop :=
  ∃ w v, w ∈ t.alWrites ∧ v ∈ t.alWrites ∧ v.due = w.due + 1 ∧ w.addr = r.ring.toNat + 1024 * (r.counter.toNat % r.nrec) ∧ w.bcast = none ∧
    v.addr = r.cnt.toNat ∧ v.data = leBytes 4 (r.counter + 1).toNat ∧ v.bcast = (if r.mode = 1 then some (r.port, r.prule, w.data) else none) ∧
    let d (j : Nat) : Nat := leNat ((w.data.drop (8 * j)).take 8)
    d 0 = ((r.counter + 1).toNat * 2 ^ 32 + part.toNat * 2 ^ 24 + r.streams.length * 2 ^ 16 + q) % 2 ^ 64 ∧
    (∃ n, spreadIs n cs ∧ d 1 = (((List.range cs.length).map fun i => if cs[i]? = some none then 2 ^ i else 0).sum * 2 ^ 48 +
      r.refpos * 2 ^ 32 + n) % 2 ^ 64) ∧
    d 2 = anchor.toNat ∧ (∀ j, 3 ≤ j → j ≤ 7 → d j = 0) ∧
    (∀ i st : Nat, r.streams[i]? = some st → (cs[i]? = some none → d (8 + 4 * i) = 0 ∧ d (9 + 4 * i) = 0 ∧ d (10 + 4 * i) = 0 ∧
        d (11 + 4 * i) = st * 2 ^ 56 % 2 ^ 64) ∧
      ∀ e : AlmEntry, cs[i]? = some (some e) → d (8 + 4 * i) = e.frame.toNat ∧ d (9 + 4 * i) = e.tstart.toNat ∧ d (10 + 4 * i) = e.tend.toNat ∧
        d (11 + 4 * i) = (st * 2 ^ 56 + e.slot.toNat * 2 ^ 48 + e.ncorr.toNat * 2 ^ 32 + e.nlate.toNat * 2 ^ 16 + e.ndrop.toNat) % 2 ^ 64) ∧
    ∀ j, 64 + 32 * cs.length ≤ j → j < 1024 → w.data[j]? = some 0
/-- Rule `r` after a record: FLOOR, NPART and the counter move on, and no match is pending. -/
def moved (r : Rule) (anchor : W64) (part : Bool) : Rule :=
  { r with
    counter := r.counter + 1, npart := if part then satInc r.npart else r.npart, floor := anchor + BitVec.ofNat 64 r.delta,
    pend := false, st := 1, dlAt := none }
/-- `decide` of R345 for rule `q`, pending as `r`, at time `te`: a record, where every member is there or a part is allowed; then, where a
member still has a live entry, the next match is pending from the least TSTART, and is decided again with no part allowed. -/
def decided (s t : State) (q : Nat) (r : Rule) (te : W64) (part : Bool) : Prop :=
  ∃ ref anchor cs, chosen s r ref anchor cs ∧
    (whole ref cs = false → part = false → t.rule q = r) ∧
    (whole ref cs = true ∨ part = true → recordWritten t q r anchor cs (!whole ref cs) ∧
      let n := moved r anchor (!whole ref cs)
      ((∀ st ∈ r.streams, ∀ i, ¬ liveAt s st n.floor i) → t.rule q = n) ∧
      ∀ v : W64, (∃ st ∈ r.streams, ∃ i, liveAt s st n.floor i ∧ (s.alm st i).tstart = v) →
        (∀ st ∈ r.streams, ∀ i, liveAt s st n.floor i → v.toNat ≤ (s.alm st i).tstart.toNat) →
        let m := { n with pend := true, st := 2, topen := v, dl := te + BitVec.ofNat 64 r.dead }
        ∃ ref' anchor' cs', chosen s m ref' anchor' cs' ∧ (whole ref' cs' = true → recordWritten t q m anchor' cs' false) ∧
          (whole ref' cs' = false → t.rule q = m))

end Sys2Proof.Claims

/-- R340, R342, R343: each command of a granted rule in an allowed state takes effect as a whole; a rule not granted, or in a state not
allowed, is the rule-state fault, and `farm` of a definition that is not complete the incomplete-rule fault with the first of the six
checks that fails. R2, R59, R72, R342, R345, R348, R350: `fforce` decides in part; an address of a ring or counter faults by its place, and
`farm` by the leases of its work item and the read-only ranges: the whole ring is checked (log entry 53), DETAIL0 has WR 1 and SCOPE 0
(log entry 55), the ranges follow log entry 86. -/
def Sys2Proof.Claims.AlignmentCommandsAct : Prop :=
  ∀ (s : State) (q : BitVec 6) (r : Rule), r = s.rule q.toNat →
    (s.granted q.toNat = true → r.st = 0 →
      (∀ (part : Bool) (m : W64), alDefined s (.fmem q part m) q fun u =>
        u = { r with members := u.members } ∧ u.members.length = r.members.length ∧
          ∀ i v, r.members[i]? = some v → u.members[i]? = some (if i / 8 = part.toNat then memberOfByte m (i % 8) else v)) ∧
      (∀ (pos : BitVec 4) (delta dead : W32), alDefined s (.ftol q pos delta dead) q fun u =>
        u = { r with refpos := pos.toNat, delta := delta.toNat, dead := dead.toNat }) ∧
      (∀ (n : Byte) (a : Addr), a.toNat % 1024 = 0 → 0x10000000000 ≤ a.toNat → a.toNat + 1024 * (n.toNat + 1) ≤ 0x10030000000 →
        alDefined s (.fring q n a) q fun u => u = { r with ring := a, nrec := n.toNat + 1, ringSet := true }) ∧
      (∀ a : Addr, a.toNat % 4 = 0 → 0x10000000000 ≤ a.toNat → a.toNat + 4 ≤ 0x10030000000 →
        alDefined s (.fcnt q a) q fun u => u = { r with cnt := a, cntSet := true }) ∧
      (∀ (pr : BitVec 6) (mode : BitVec 2) (port : Bool), alDefined s (.fpeer q pr mode port) q fun u =>
        u = { r with mode := mode.toNat, port := port.toNat, prule := pr.toNat }) ∧
      (∀ ms, complete r ms → leaseFault (cur s).leases false true r.ring.toNat (1024 * r.nrec) = none →
        leaseFault (cur s).leases false true r.cnt.toNat 4 = none →
        roFault s.ro r.ring.toNat (1024 * r.nrec) = none → roFault s.ro r.cnt.toNat 4 = none →
        ∃ t, exec (.farm q) s = .next t ∧ alTook s t q.toNat 2 ∧
          t.rule q.toNat = { r with st := if r.mode = 2 then 3 else 1, pend := false, dlAt := none, floor := s.now, counter := 0 } ∧
          t.alWrites = s.alWrites ++ [⟨s.clk + 1, r.cnt.toNat, [0, 0, 0, 0], none⟩]) ∧
      (∀ k, 1 ≤ k → k ≤ 6 → defect r k → (∀ j, 1 ≤ j → j < k → ¬ defect r j) →
        ∃ t, exec (.farm q) s = .next t ∧ t.rules = s.rules ∧ t.alWrites = s.alWrites ∧ t.mem = s.mem ∧
          recorded s t s.focus 5 0x0703 0 0 (BitVec.ofNat 64 (cur s).alWord) (BitVec.ofNat 64 k) ∧
          ∀ e ∈ t.faults.getLast?, if k = 2 then 2 ≤ r.streams.count e.r.unit else e.r.unit = 0) ∧
      (∀ ms, complete r ms →
        (∀ a, leaseFault (cur s).leases false true r.ring.toNat (1024 * r.nrec) = some a → alMemFaulted s (.farm q) 0x0102 2 (a % 2 ^ 48) (1024 * r.nrec)) ∧
        (leaseFault (cur s).leases false true r.ring.toNat (1024 * r.nrec) = none →
          (∀ a, leaseFault (cur s).leases false true r.cnt.toNat 4 = some a → alMemFaulted s (.farm q) 0x0102 2 (a % 2 ^ 48) 4) ∧
          (leaseFault (cur s).leases false true r.cnt.toNat 4 = none →
            (∀ a, roFault s.ro r.ring.toNat (1024 * r.nrec) = some a → alMemFaulted s (.farm q) 0x0103 2 (a % 2 ^ 48) (1024 * r.nrec)) ∧
            (roFault s.ro r.ring.toNat (1024 * r.nrec) = none → ∀ a, roFault s.ro r.cnt.toNat 4 = some a →
              alMemFaulted s (.farm q) 0x0103 2 (a % 2 ^ 48) 4)))) ∧
      (∀ (n : Byte) (a : Addr), alAddressFaults s (.fring q n a) a.toNat (1024 * (n.toNat + 1)) 1024) ∧
      (∀ a : Addr, alAddressFaults s (.fcnt q a) a.toNat 4 4)) ∧
    (s.granted q.toNat = true →
      (∃ t, exec (.fdis q) s = .next t ∧ alTook s t q.toNat 1 ∧ t.alWrites = s.alWrites ∧
        t.rule q.toNat = { r with st := 0, pend := false, dlAt := none }) ∧
      (r.pend = false → ∃ t, exec (.fforce q) s = .next t ∧ alTook s t q.toNat 1 ∧ t.alWrites = s.alWrites ∧ t.rule q.toNat = r) ∧
      (r.pend = true → ∃ t, exec (.fforce q) s = .next t ∧ (cur t).alq = (cur s).alq.tail ∧ decided s t q.toNat r s.now true ∧
        (∀ k, k ≠ q.toNat → t.rule k = s.rule k) ∧ t.mem = s.mem)) ∧
    (∀ (i : Instr) (d : Prop), d = ((∃ p m, i = .fmem q p m) ∨ (∃ p a b, i = .ftol q p a b) ∨ (∃ n a, i = .fring q n a) ∨ (∃ a, i = .fcnt q a) ∨
        (∃ a b c, i = .fpeer q a b c) ∨ i = .farm q) →
      (d ∨ i = .fdis q ∨ i = .fforce q → s.granted q.toNat = false → ∃ t, exec i s = .next t ∧ t.rules = s.rules ∧
        recorded s t s.focus 5 0x0702 0 0 (BitVec.ofNat 64 (cur s).alWord) 2) ∧
      (d → s.granted q.toNat = true → r.st ≠ 0 → ∃ t, exec i s = .next t ∧ t.rules = s.rules ∧
        recorded s t s.focus 5 0x0702 0 0 (BitVec.ofNat 64 (cur s).alWord) 1))

/-- R28, R337, R344 to R349: a deadline that device time has passed is noted with the first clock past it and its time; a recorded frame
enters the almanac and opens or decides the matches of the armed rules that name its stream; a deadline decides in part; the writes of
a record and its counter perform when due, but into no byte held read-only (log entry 92), and a broadcast follows or is counted as
failed; a received one becomes a mirror rule's record. -/
def Sys2Proof.Claims.AlignmentEventsAct : Prop :=
  (∀ (s : State) (q : Nat) (r : Rule), (∀ p ∈ s.rules, p.1 = q → p.2 = r) → (∃ p ∈ s.rules, p.1 = q) →
    (r.pend = true → r.dlAt = none → r.dl.toNat < s.now.toNat → ∃ clk te, s.noteDeadlines.rule q = { r with dlAt := some (clk, te) } ∧
      (s.timeLog = [] → clk = s.clk ∧ te = s.now) ∧
      ∀ c0 u0 gain, s.timeLog = [(c0, u0, gain)] → 0 < gain → c0 ≤ s.clk → u0 + (s.clk - c0) * gain = s.timeU →
        clk ≤ s.clk ∧ c0 ≤ clk ∧ te = BitVec.ofNat 64 ((u0 + (clk - c0) * gain) / 6000000) ∧
        r.dl.toNat < (u0 + (clk - c0) * gain) / 6000000 ∧
        (c0 < clk → (u0 + (clk - 1 - c0) * gain) / 6000000 ≤ r.dl.toNat)) ∧
    (¬ (r.pend = true ∧ r.dlAt = none ∧ r.dl.toNat < s.now.toNat) → s.noteDeadlines.rule q = r)) ∧
  (∀ (s : State) (sid : StreamId) (f : FrameRec) (rest : List FrameRec) (e : AlmEntry), (s.stream sid.val).recs = f :: rest →
    s.alReady (f.clk, 0, sid.val) = true →
    e = ⟨BitVec.ofNat 64 (memNat s.mem f.addr 8), BitVec.ofNat 64 (memNat s.mem (f.addr + 8) 8), BitVec.ofNat 64 (memNat s.mem (f.addr + 16) 8),
      f.te, BitVec.ofNat 8 f.idx, BitVec.ofNat 16 (memNat s.mem (f.addr + 28) 2), BitVec.ofNat 16 (memNat s.mem (f.addr + 32) 2),
      BitVec.ofNat 16 (memNat s.mem (f.addr + 34) 2), BitVec.ofNat 16 (memNat s.mem (f.addr + 36) 2)⟩ →
    ∃ t, exec (.frameRecording sid) s = .next t ∧ t.alm sid.val ((e.frame - 1).toNat % 4) = e ∧
      (t.stream sid.val).recs = rest ∧ t.mem = s.mem ∧
      ∀ (q : Nat) (r : Rule), q < 64 → r = s.rule q →
        (¬ ((r.st = 1 ∨ r.st = 2) ∧ sid.val ∈ r.streams) → t.rule q = r) ∧
        ((r.st = 1 ∨ r.st = 2) → sid.val ∈ r.streams → e.tstart.toNat ≤ r.floor.toNat → t.rule q = { r with ign := satInc r.ign }) ∧
        ((r.st = 1 ∨ r.st = 2) → sid.val ∈ r.streams → r.floor.toNat < e.tstart.toNat →
          decided t t q (if r.pend then r else
            { r with pend := true, st := 2, dlAt := none, topen := e.tstart, dl := f.te + BitVec.ofNat 64 r.dead }) f.te false)) ∧
  (∀ (s : State) (q : RuleId) (r : Rule) (clk : Nat) (te : W64), r = s.rule q.val → r.dlAt = some (clk, te) → r.pend = true →
    s.alReady (clk, 1, q.val) = true →
    ∃ t, exec (.ruleDeadline q) s = .next t ∧ t.almanac = s.almanac ∧ decided s t q.val r te true ∧ t.mem = s.mem ∧
      ∀ k, k ≠ q.val → t.rule k = s.rule k) ∧
  (∀ (s : State) (w : AlWrite), s.alWrites = [w] →
    (s.clk < w.due → s.alFlush = s) ∧
    (w.due ≤ s.clk → s.alFlush.alWrites = [] ∧ (∀ a, (a < w.addr ∨ w.addr + w.data.length ≤ a) → memGet s.alFlush.mem a = memGet s.mem a) ∧
      (∀ a, (∃ r ∈ s.ro, r.base ≤ a ∧ a < r.base + r.len) → memGet s.alFlush.mem a = memGet s.mem a) ∧
      ((∀ r ∈ s.ro, w.addr + w.data.length ≤ r.base ∨ r.base + r.len ≤ w.addr) → (∀ i < w.data.length, s.inSlot (w.addr + i) = false) →
        memRead s.alFlush.mem w.addr w.data.length = w.data) ∧
      (w.bcast = none → s.alFlush.out = s.out ∧ s.alFlush.bfail = s.bfail) ∧
      ∀ p q d, w.bcast = some (p, q, d) → ((s.link p).up = true → s.alFlush.out = s.out ++ [.broadcast p q d] ∧ s.alFlush.bfail = s.bfail) ∧
        ((s.link p).up = false → s.alFlush.out = s.out ∧ s.alFlush.bfail = satInc s.bfail))) ∧
  (∀ (s : State) (p : LinkId) (q : Nat) (d : List Byte) (clk : Nat) (rest : List (Nat × List Byte × Nat)) (r : Rule),
    (s.link p.val).rxReady = (q, d, clk) :: rest → s.alReady (clk, 3, p.val) = true → r = s.rule q →
    (r.st = 3 → ∃ t w v, exec (.broadcastReceipt p) s = .next t ∧ (t.link p.val).rxReady = rest ∧ (t.rule q).counter = r.counter + 1 ∧
      t.alWrites = s.alWrites ++ [w, v] ∧ w.addr = r.ring.toNat + 1024 * (r.counter.toNat % r.nrec) ∧ w.data.drop 8 = d.drop 8 ∧
      leNat (w.data.take 8) / 2 ^ 32 = (r.counter + 1).toNat ∧ (leNat (w.data.take 8)).testBit 25 = true ∧
      v.addr = r.cnt.toNat ∧ v.data = leBytes 4 (r.counter + 1).toNat) ∧
    (r.st ≠ 3 → ∃ t, exec (.broadcastReceipt p) s = .next t ∧ (t.link p.val).rxReady = rest ∧ t.bdrop = satInc s.bdrop ∧
      t.rules = s.rules ∧ t.alWrites = s.alWrites))

/-- R337 to R350: alignment commands and events. -/
def Obligations.AlignmentUnitActs : Prop :=
  Claims.AlignmentCommandsAct ∧ Claims.AlignmentEventsAct

namespace Sys2Proof.Claims

/-! ## Ingress -/

/-- The row of an open frame that is next is finalized with a status, for a good row its samples `data`, and its row time: it takes its
ring position, or waits behind rows still needed; a third that would wait is dropped (R305, R308 to R310). -/
def rowOut (s t : State) (st : Nat) (m : MillCfg) (o : OpenFrame) (status : Nat) (data : List (BitVec 16)) (stamp : W64) : Prop :=
  let u := s.stream st
  let blocked := s.ringBlocked st m u.rowSeq
  let full := blocked = true ∧ 2 ≤ u.waiting.length
  ∃ r : InRow, r.frame = o.frame ∧ r.row = o.next ∧ r.seq = u.rowSeq ∧ r.born = s.clk + 1 ∧
    (¬ full → r.status = status ∧ r.samples = (if status = 0 then data else m.policy o.next u.prev) ∧
      r.time = if status = 0 ∨ status = 3 then stamp else BitVec.ofInt 64 (o.t0 + m.doff + o.next * m.rper)) ∧
    (full → r.status = 1 ∧ (t.stream st).ovrc = satInc u.ovrc) ∧
    (if blocked then (t.stream st).waiting = u.waiting ++ [r] else r ∈ (t.stream st).ring) ∧
    (t.stream st).rowSeq = u.rowSeq + 1 ∧
    (t.stream st).openF = (if o.next + 1 = m.height then none else
      some { o with next := o.next + 1, recv := none, lrow := if o.lrow = some o.next then none else o.lrow }) ∧
    (t.stream st).dropc = (if r.status = 1 then satInc u.dropc else u.dropc) ∧
    (t.stream st).latec = (if r.status = 2 then satInc u.latec else u.latec) ∧
    (t.stream st).corrc = (if r.status = 3 then satInc u.corrc else u.corrc) ∧ t.mem = s.mem
/-- Stream `st` counts one stray packet and nothing else changes. -/
def strayed (s : State) (st : Nat) : State := s.setStream st { s.stream st with stray := satInc (s.stream st).stray }
/-- A frame of stream `st` has been opened with reference time T0 (R306, R312). -/
def opened (s t : State) (st : Nat) (t0 : Int) : Prop :=
  (t.stream st).sframe = (s.stream st).sframe + 1 ∧
    (t.stream st).openF = some ⟨((s.stream st).sframe + 1).toNat, t0, 0, none, none, none⟩ ∧ t.mem = s.mem
/-- Stream `st` of a state with the end `k` of a packet, a frame or a row still to take effect (R308). -/
def waitsFor (s : State) (st : Nat) (k : Cut) : State := s.setStream st { s.stream st with cut := some k }
/-- The next `n` rows of an open frame are finalized as dropped, in ascending order (R306 to R308). -/
def rowsSkipped (st : Nat) (m : MillCfg) : Nat → State → OpenFrame → State → Prop
  | 0, s, _, t => t = s
  | n + 1, s, o, t => ∃ v, rowOut s v st m o 1 [] s.now ∧
      rowsSkipped st m n v { o with next := o.next + 1, recv := none, lrow := if o.lrow = some o.next then none else o.lrow } t

/-- Every byte of a range that R69 holds read-only is as it was (R28). -/
def keepsHeld (s t : State) : Prop := ∀ a, (∃ r ∈ s.ro, r.base ≤ a ∧ a < r.base + r.len) → memGet t.mem a = memGet s.mem a
/-- The launch of a record completes in the next clock, which gives its stamp (R312, R362). -/
def launchDone (t : State) (q : Nat) (lseq : W32) : Prop :=
  ∀ l ∈ t.launches, l.q = q → l.lseq = lseq → l.st = .completing ∧ l.tend = none

end Sys2Proof.Claims

/-- R303, R305 to R310, R312: what camera packets do at a source, once what ended a packet before them has taken effect and the rows
whose deadline has passed are finalized. A packet of another data type takes its row, which is then corrupt (log entry 47). The end of a
frame or the first byte of a packet, which cuts a row off with the device time as its row time (log entry 48), waits, while a row receives one, for that packet's last byte, to the end of the clock at most: the last
byte of a clock comes first (log entry 95). -/
def Sys2Proof.Claims.CameraPackets : Prop :=
  (∀ (s u : State) (sid : StreamId) (ecc : Bool) (st : Nat), st = sid.val → st < 96 → u = (s.countEcc st ecc).upTo st →
    (∀ m, (u.stream st).cfg = some m → (u.stream st).pend = false →
      (m.fsper = 0 → ((∀ o, (u.stream st).openF = some o → o.recv = none) →
          ∃ t, exec (.csi2FrameStart sid ecc) s = .next t ∧ opened u t st u.now.toNat) ∧
        (∀ o, (u.stream st).openF = some o → o.recv.isSome = true →
          exec (.csi2FrameStart sid ecc) s = .next (waitsFor u st (.frame u.now.toNat)))) ∧
      (m.fsper ≠ 0 → (u.stream st).fsOk = true →
        exec (.csi2FrameStart sid ecc) s = .next (u.setStream st { u.stream st with fsOk := false })) ∧
      (m.fsper ≠ 0 → (u.stream st).fsOk = false → exec (.csi2FrameStart sid ecc) s = .next (strayed u st)) ∧
      (∀ (dt : Byte) (o : OpenFrame), (u.stream st).openF = some o → (0x2A ≤ dt.toNat ∧ dt.toNat ≤ 0x2E ∨ dt = 0x1E) →
        (o.recv = none → exec (.csi2LongPacketStart sid dt ecc) s =
          .next (u.setStream st { u.stream st with openF := some { o with recv := some (decide (dt.toNat = m.dt)) }, cut := none })) ∧
        (o.recv.isSome = true →
          exec (.csi2LongPacketStart sid dt ecc) s = .next (waitsFor u st (.packet (decide (dt.toNat = m.dt))))))) ∧
    ((u.stream st).cfg = none ∨ (u.stream st).pend = true → exec (.csi2FrameStart sid ecc) s = .next (strayed u st)) ∧
    (∀ m o, (u.stream st).cfg = some m → (u.stream st).openF = some o → o.next < m.height →
      (o.recv = none → ∃ t, exec (.csi2FrameEnd sid ecc) s = .next t ∧ (t.stream st).openF = none ∧
        (t.stream st).rowSeq = (u.stream st).rowSeq + (m.height - o.next) ∧ t.mem = s.mem) ∧
      (o.recv.isSome = true → exec (.csi2FrameEnd sid ecc) s = .next (waitsFor u st .close))) ∧
    ((u.stream st).openF = none → exec (.csi2FrameEnd sid ecc) s = .next (strayed u st)) ∧
    (∀ dt : Byte, dt.toNat ≠ 0x12 → ¬ (0x2A ≤ dt.toNat ∧ dt.toNat ≤ 0x2E ∨ dt = 0x1E) →
      exec (.csi2LongPacketStart sid dt ecc) s = .next (strayed u st))) ∧
  (∀ (s u : State) (sid : StreamId) (st : Nat) (m : MillCfg) (o : OpenFrame) (ty crcOk : Bool) (l : List (BitVec 16)), st = sid.val →
    st < 96 → u = s.catchUp st → (u.stream st).cfg = some m → (u.stream st).openF = some o → o.recv = some ty →
    ∃ v, rowOut u v st m o (if crcOk = true ∧ ty = true ∧ l.length = m.width then 0 else 3)
        (l.map fun v => BitVec.ofNat 16 (v.toNat % 2 ^ dtBits m.dt)) u.now ∧
      exec (.csi2LongPacketEnd sid l crcOk) s = .next (v.settle st)) ∧
  (∀ (s : State) (st : Nat), (s.stream st).cut = none → s.settle st = s) ∧
  (∀ (s u : State) (st : Nat) (m : MillCfg) (k : Cut), (s.stream st).cfg = some m → (s.stream st).cut = some k →
    u = s.setStream st { s.stream st with cut := none } →
    (∀ t0, k = .frame t0 → opened s (s.settle st) st t0 ∧ ((s.settle st).stream st).cut = none) ∧
    (∀ o, k = .close → (s.stream st).openF = some o → o.next < m.height → ((s.settle st).stream st).openF = none ∧
      ((s.settle st).stream st).rowSeq = (s.stream st).rowSeq + (m.height - o.next) ∧ (s.settle st).mem = s.mem) ∧
    (k = .close → (s.stream st).openF = none → s.settle st = strayed u st) ∧
    (∀ ty, k = .packet ty → (s.stream st).openF = none → s.settle st = strayed u st) ∧
    (∀ ty o, k = .packet ty → (s.stream st).openF = some o →
      (o.recv = none → s.settle st = u.setStream st { u.stream st with openF := some { o with recv := some ty } }) ∧
      (o.recv.isSome = true → o.next + 1 < m.height → ∃ v, rowOut u v st m o 3 [] s.now ∧
        s.settle st = v.setStream st { v.stream st with openF := (v.stream st).openF.map fun w => { w with recv := some ty } }) ∧
      (o.recv.isSome = true → o.next + 1 = m.height → ∃ v, rowOut u v st m o 3 [] s.now ∧ s.settle st = strayed v st))) ∧
  (∀ (s u : State) (sid : StreamId) (ecc : Bool), u = (if sid.val < 96 then s.countEcc sid.val ecc else s) →
    exec (.discardedPacket sid ⟨.embedded, ecc⟩) s = .next u ∧ exec (.discardedPacket sid ⟨.lineStartEnd, ecc⟩) s = .next u ∧
    (sid.val < 96 → exec (.discardedPacket sid ⟨.unsupported, ecc⟩) s = .next (strayed u sid.val) ∧
      exec (.discardedPacket sid ⟨.badHeader, ecc⟩) s = .next (strayed s sid.val)) ∧
    (96 ≤ sid.val → ∀ k, k = .lidarIpv6 ∨ k = .lidarFragment ∨ k = .lidarTwoTags →
      exec (.discardedPacket sid ⟨k, ecc⟩) s = .next (strayed s (sid.val / 4 * 4)))) ∧
  (∀ (s : State) (st : Nat) (ecc : Bool), s.countEcc st ecc =
    if ecc then s.setStream st { s.stream st with eccc := satInc (s.stream st).eccc } else s)

namespace Sys2Proof.Claims

/-- A datagram of row `row` is taken at a source as the row's packet: every lower row still waiting is finalized as dropped, then its own
row as good; a row already finalized by its deadline is counted in LATEP (R306, R307). -/
def rowTaken (u t : State) (st : Nat) (m : MillCfg) (o : OpenFrame) (row : Nat) (data : List (BitVec 16)) (stamp : W64) : Prop :=
  (o.next ≤ row → ∃ v, rowsSkipped st m (row - o.next) u o v ∧
    rowOut v t st m { o with next := row, lastRow := some row } 0 data stamp) ∧
  (row < o.next → t = u.setStream st { u.stream st with openF := some { o with lastRow := some row }, latep := satInc (u.stream st).latep })

end Sys2Proof.Claims

/-- R304, R306 to R308: lidar datagrams: the first byte puts the row that the datagram names, if it waits, in RECV, so that its deadline
counts it late (log entry 95); the last byte of a datagram that passes its checks closes and opens frames, skips the rows before its own
and finalizes it; one that fails its checks counts as the lowest waiting row's, else as stray, and moves the last row received (log entry
51). A row number that no open frame expects is counted. -/
def Sys2Proof.Claims.LidarDatagrams : Prop :=
  ∀ (s : State) (port : Fin 8) (d : Datagram), (s.lidarSource port.val d.udp = none →
      exec (.lidarDatagram port d) s = .next (strayed s (96 + 4 * port.val))) ∧
    ∀ (u : State) (st : Nat) (m : MillCfg) (row : Nat), s.lidarSource port.val d.udp = some (st, m) →
      ((s.stream st).pend = true → exec (.lidarDatagram port d) s = .next (strayed s st)) ∧
      ((s.stream st).pend = false → u = { s with free := s.free + 10 }.catchUp st →
      m.roff + 2 ≤ d.payload.length → m.tsoff + 8 ≤ d.payload.length → row = leNat ((d.payload.drop m.roff).take 2) →
      let good := d.checksOk = true ∧ m.poff + 2 * m.width ≤ d.payload.length
      let stamp := BitVec.ofNat 64 (leNat ((d.payload.drop m.tsoff).take 8))
      let data := (List.range m.width).map fun i => BitVec.ofNat 16 (leNat ((d.payload.drop (m.poff + 2 * i)).take 2))
      (d.first = true →
        ((u.stream st).openF = none → ∃ t, exec (.lidarDatagram port d) s = .next t ∧ t.stream st = u.stream st ∧ t.mem = s.mem) ∧
        ∀ o, (u.stream st).openF = some o → ∃ t, exec (.lidarDatagram port d) s = .next t ∧ t.mem = s.mem ∧
          t.stream st = { u.stream st with openF := some { o with
            lrow := if o.next ≤ row ∧ row < m.height ∧ ∀ r ∈ o.lastRow, r < row then some row else o.lrow } }) ∧
      (d.first = false →
        (¬ good → ∃ t, exec (.lidarDatagram port d) s = .next t ∧ t.mem = s.mem ∧
          (∀ o, (u.stream st).openF = some o → o.next = row → ∃ v, rowOut u v st m { o with lrow := none } 3 [] stamp ∧
            t = v.setStream st { v.stream st with openF := (v.stream st).openF.map fun o => { o with lastRow := some row } }) ∧
          ((∀ o, (u.stream st).openF = some o → o.next ≠ row) → (t.stream st).stray = satInc (u.stream st).stray)) ∧
        (good → m.height ≤ row → ∃ t, exec (.lidarDatagram port d) s = .next t ∧ t.mem = s.mem ∧
          (t.stream st).stray = satInc (u.stream st).stray) ∧
        (good → row < m.height →
          (∀ o w, (u.stream st).openF = some o → o.recv = none → (∀ r ∈ o.lastRow, r < row) →
            w = u.setStream st { u.stream st with openF := some { o with lrow := none } } →
            ∃ t, exec (.lidarDatagram port d) s = .next t ∧ rowTaken w t st m { o with lrow := none } row data stamp) ∧
          ((u.stream st).openF = none → ∃ t w o, exec (.lidarDatagram port d) s = .next t ∧
            opened u w st ((u.now.toNat : Int) - m.rper * row) ∧ (w.stream st).openF = some o ∧ rowTaken w t st m o row data stamp) ∧
          (∀ o r, (u.stream st).openF = some o → o.lastRow = some r → row ≤ r → o.next < m.height →
            ∃ t v w o', exec (.lidarDatagram port d) s = .next t ∧ (v.stream st).openF = none ∧
              (v.stream st).rowSeq = (u.stream st).rowSeq + (m.height - o.next) ∧ v.now = u.now ∧
              opened v w st ((u.now.toNat : Int) - m.rper * row) ∧ (w.stream st).openF = some o' ∧ rowTaken w t st m o' row data stamp))))

/-- R306 to R310, R312: frame-syncs open frames, also while a row receives a packet: then the frame before closes once that packet's last
byte has come, or at the end of the clock (log entry 95); deadlines finalize rows, late in RECV and dropped in WAIT; a row that waits
enters the ring once its position is free. -/
def Sys2Proof.Claims.SyncsDeadlinesAndRing : Prop :=
  ∀ (s : State) (sid : StreamId) (st : Nat) (m : MillCfg), st = sid.val → (s.stream st).cfg = some m →
    (∀ time u, st < 96 → m.fsper ≠ 0 → (s.stream st).pend = false → (s.stream st).cut = none →
      time = m.fsbase + (s.stream st).syncNo * m.fsper → time ≤ s.now.toNat → u = s.catchUp st →
      ∃ t, exec (.frameSync sid) s = .next t ∧ (t.stream st).fsOk = true ∧
        (t.stream st).syncNo = (s.stream st).syncNo + 1 ∧ t.out = s.out ++ [.frameSync st (s.stream st).syncNo] ∧
        ((∀ o, (u.stream st).openF = some o → o.recv = none) → opened u t st time) ∧
        (∀ o, (u.stream st).openF = some o → o.recv.isSome = true → (t.stream st).openF = some o ∧
          (t.stream st).cut = some (.frame time))) ∧
    (∀ o, (s.stream st).openF = some o → m.deadline o.t0 o.next < s.now.toNat → o.next < m.height →
      (o.next + 1 = m.height ∨ (s.now.toNat : Int) ≤ m.deadline o.t0 (o.next + 1)) →
      ∃ t, exec (.rowDeadline sid) s = .next t ∧
        rowOut s t st m o (if o.recv.isSome = true ∨ o.lrow = some o.next then 2 else 1) [] s.now) ∧
    (∀ r rest, (s.stream st).waiting = r :: rest → s.ringBlocked st m r.seq = false →
      ∃ t, exec (.ringRowEnter sid) s = .next t ∧ (t.stream st).waiting = rest ∧ { r with born := s.clk + 1 } ∈ (t.stream st).ring)

/-- R303 to R310, R312: what packets, datagrams, syncs and deadlines do at a source (log entries 47, 48, 51, 95). -/
def Obligations.IngressPackets : Prop :=
  Claims.CameraPackets ∧ Claims.LidarDatagrams ∧ Claims.SyncsDeadlinesAndRing

/-- R28, R312, R316, R318, R330 to R337: a configuration record is applied or refused, its launch to complete in the next clock; strips
start and rows complete; a slot is reset, dwords 0x08 to 0x38 and the status bytes, and a tile row is written in its three steps, its
saturations counted in SATC and its counts in dword 0x20. A byte of a range that R69 holds read-only is never written (log entry 92). -/
def Sys2Proof.Claims.MillRecordsApplyAndRowsAdvance : Prop :=
  (∀ (s : State) (sid : StreamId) (st q : Nat) (lseq : W32) (dw : List W64) (rest : List (Nat × W32 × List W64)), st = sid.val →
    (s.stream st).pending = (q, lseq, dw) :: rest → ((s.stream st).cfg = none ∨ (s.stream st).frames = []) →
    let u := s.setStream st { s.stream st with pending := rest }
    (u.millCheck dw = .off → ∃ t, exec (.millConfigApply sid) s = .next t ∧ (t.stream st).cfg = none ∧ (t.stream st).pending = rest ∧
      launchDone t q lseq ∧ t.mem = s.mem) ∧
    (∀ m g, u.millCheck dw = .on m g → ∃ t, exec (.millConfigApply sid) s = .next t ∧ (t.stream st).cfg = some m ∧
      (t.stream st).pending = rest ∧ launchDone t q lseq ∧ ⟨g.base, g.size⟩ ∈ t.ro ∧
      ∀ i < m.nslot, memNat t.mem (m.slotbase + 4096 * m.slotsz * i) 8 = 0 ∧ memNat t.mem (m.slotbase + 4096 * m.slotsz * i + 0x18) 4 = 0) ∧
    (∀ b, u.millCheck dw = .bad b → ∃ t e, exec (.millConfigApply sid) s = .next t ∧ t.faults = s.faults ++ [e] ∧ e.q = q ∧
      e.src = .stream st ∧ e.r.state = 3 ∧ e.r.code = 0x0601 ∧ e.r.eng = 4 ∧ e.r.unit = st / 4 ∧ e.r.lseq = lseq ∧
      e.r.det0 = BitVec.ofNat 64 (b.idx * 2 ^ 32 + b.pos * 2 ^ 24 + b.reason) ∧ e.r.addr = BitVec.ofNat 64 b.addr ∧
      e.r.det1 = BitVec.ofNat 64 b.det1 ∧ e.r.core = 0xFF ∧ e.r.wid = 0 ∧ e.r.loc = 0 ∧
      (t.queue q).frozen = true ∧ (t.stream st).cfg = (s.stream st).cfg ∧ (t.stream st).pending = rest ∧ t.mem = s.mem)) ∧
  (∀ (s : State) (pid : ProcId) (st pos : Nat) (m : MillCfg) (k : RowKernel), s.chainOf pid.val = some (st, m) →
    pos = pid.val % 8 - m.first → m.kernels[pos]? = some k →
    ((s.proc pid.val).busy = false → ¬ ((s.proc pid.val).orow = 0 ∧ (s.proc pid.val).strip = 0 ∧ (s.proc pid.val).dframe ≠ (s.proc pid.val).frame) →
      s.stripReady pid.val st m k (s.proc pid.val) = true →
      ∃ t, exec (.stripStart pid) s = .next t ∧ (t.proc pid.val).busy = true ∧ (t.proc pid.val).ip = 0 ∧
        (t.proc pid.val).strip = (s.proc pid.val).strip ∧ (t.proc pid.val).x = (s.proc pid.val).x ∧ t.mem = s.mem) ∧
    (∀ (r : OutRow) (l : List Nat), (s.proc pid.val).outRow (s.proc pid.val).dframe (s.proc pid.val).drow = some r → k.nstrip ≤ r.strips →
      k.named.map (fun j => s.rowStatus st m pos (s.proc pid.val).dframe (k.winRow (m.inRows pos) (s.proc pid.val).drow j)) = l.map some →
      ∃ t r', exec (.outputRowComplete pid) s = .next t ∧
        (t.proc pid.val).outRow (s.proc pid.val).dframe (s.proc pid.val).drow = some r' ∧
        r' = { r with status := l.foldl Nat.max r.status, complete := true } ∧
        ((s.proc pid.val).drow + 1 < m.outRows pos → (t.proc pid.val).drow = (s.proc pid.val).drow + 1 ∧
          (t.proc pid.val).dframe = (s.proc pid.val).dframe) ∧
        (m.outRows pos ≤ (s.proc pid.val).drow + 1 → (t.proc pid.val).drow = 0 ∧ (t.proc pid.val).dframe = (s.proc pid.val).dframe + 1))) ∧
  (∀ (s : State) (sid : StreamId) (st : Nat) (m : MillCfg) (f : FrameRun) (rest : List FrameRun), st = sid.val →
    (s.stream st).cfg = some m → (s.stream st).frames = f :: rest →
    (f.slotReset = false → ∃ t, exec (.slotReset sid) s = .next t ∧ (t.stream st).frames = { f with slotReset := true } :: rest ∧
      keepsHeld s t ∧ (∀ a, (a < m.slot f.frame ∨ m.slot f.frame + 0x440 ≤ a) → memGet t.mem a = memGet s.mem a) ∧
      (roFault s.ro (m.slot f.frame) 0x440 = none →
      memNat t.mem (m.slot f.frame) 8 = f.frame % 2 ^ 64 ∧ memNat t.mem (m.slot f.frame + 0x18) 8 = (st * 2 ^ 48 + m.rows * 2 ^ 32) % 2 ^ 64 ∧
      memNat t.mem (m.slot f.frame + 0x20) 8 = 0 ∧ memNat t.mem (m.slot f.frame + 0x30) 8 = 0 ∧ memNat t.mem (m.slot f.frame + 0x38) 8 = 0 ∧
      memNat t.mem (m.slot f.frame + 0x28) 8 = (m.ofmt * 2 ^ 32 + m.rowpitch * 2 ^ 16 + m.iw m.kernels.length) % 2 ^ 64 ∧
      (∀ i < 16, memGet t.mem (m.slot f.frame + 0x08 + i) = 0) ∧ ∀ i < 0x400, memGet t.mem (m.slot f.frame + 0x40 + i) = 0)) ∧
    (∀ r : OutRow, f.slotReset = true → f.due ≤ s.clk → r.complete = true →
      (s.proc (m.procAt st (m.kernels.length - 1))).outRow f.frame f.rowcnt = some r →
      (∃ t, exec (.tileRowWrite sid) s = .next t ∧ keepsHeld s t) ∧
      (∀ v, f.stage = 0 → (∀ i < m.iw m.kernels.length, (tabFind r.samples i).isSome = true) →
        v = convertBytes (if m.inSigned m.kernels.length then 0x09 else 0x0D) m.ofmt ((List.range (m.iw m.kernels.length)).flatMap fun i =>
          leBytes 2 ((tabFind r.samples i).getD (0, 0)).2.toNat) →
        ∃ t, exec (.tileRowWrite sid) s = .next t ∧ (t.stream st).satc = satAdd (s.stream st).satc v.2.2 ∧
          stored s t (m.slot f.frame + 0x1000 + r.row * m.rowpitch)
            (if roFault s.ro (m.slot f.frame + 0x1000 + r.row * m.rowpitch) v.1.length = none then v.1 else [])) ∧
      (f.stage = 1 → r.status < 4 → r.row < 4096 → (r.row + 1 = m.rows → f.tend.isSome = true) → roFault s.ro (m.slot f.frame) 0x440 = none →
        ∃ t, exec (.tileRowWrite sid) s = .next t ∧
          memNat t.mem (m.slot f.frame + 0x40 + r.row / 4) 1 / 4 ^ (r.row % 4) % 4 = r.status ∧
          memNat t.mem (m.slot f.frame + 0x20) 8 = ((f.ncorr + if r.status = 3 then 1 else 0) * 2 ^ 32 +
            (f.nlate + if r.status = 2 then 1 else 0) * 2 ^ 16 + (f.ndrop + if r.status = 1 then 1 else 0)) % 2 ^ 64 ∧
          (r.row = 0 → memNat t.mem (m.slot f.frame + 0x08) 8 = (f.tstart.getD 0).toNat) ∧
          (r.row + 1 = m.rows → memNat t.mem (m.slot f.frame + 0x10) 8 = (f.tend.getD 0).toNat) ∧
          (∀ a, (a < m.slot f.frame ∨ m.slot f.frame + 0x440 ≤ a) → memGet t.mem a = memGet s.mem a)) ∧
      (f.stage = 2 → roFault s.ro (m.slot f.frame) 0x440 = none →
        ∃ t, exec (.tileRowWrite sid) s = .next t ∧ stored s t (m.slot f.frame + 0x18) (leBytes 4 (f.rowcnt + 1)) ∧
        (m.rows ≤ f.rowcnt + 1 → (∀ g ∈ (t.stream st).frames, g.frame ≠ f.frame) ∧
          (t.stream st).recs = (s.stream st).recs ++ [⟨f.frame, s.clk, s.now, m.slot f.frame, m.slotIdx f.frame⟩]))))

namespace Sys2Proof.Claims

/-! ## Mill configuration records (R311, R314, R315, R329, R334, R335) -/

/-- Bits `hi`:`lo` of dword `i` of a record (R311). -/
def fld (dw : List W64) (i hi lo : Nat) : Nat := bitsOf (dw.getD i 0).toNat hi lo
/-- The descriptor index for chain position `i`. -/
def kidx (dw : List W64) (i : Nat) : Nat := fld dw 3 (8 * i + 7) (8 * i)
/-- Bits of dword `j` of the descriptor for chain position `i`, in the LN section at `b` (R314). -/
def desc (mem : Mem) (b : Nat) (dw : List W64) (i j hi lo : Nat) : Nat := bitsOf (memNat mem (b + 0x40 + 64 * kidx dw i + 8 * j) 8) hi lo
/-- Instruction `k` of the kernel for chain position `i`. -/
def lnCode (mem : Mem) (b : Nat) (dw : List W64) (i k : Nat) : Nat := memNat mem (b + desc mem b dw i 0 31 0 + 8 * k) 8
/-- Output rows per frame after the first `n` processors (R315). -/
def chainRows (mem : Mem) (b : Nat) (dw : List W64) (n : Nat) : Nat :=
  (List.range n).foldl (fun h i => h / desc mem b dw i 1 43 40) (fld dw 4 63 48)
/-- Samples per tile row: OW of the last processor. -/
def lastOw (mem : Mem) (b : Nat) (dw : List W64) : Nat := desc mem b dw (fld dw 1 26 23 - 1) 1 15 0
/-- The other streams that are on. -/
def othersOn (s : State) (dw : List W64) : List (Nat × MillCfg) :=
  s.streams.filterMap fun p => if p.1 = fld dw 1 6 0 then none else p.2.cfg.map fun m => (p.1, m)

/-- A field of R311 is reserved and not zero, or outside its limits. -/
abbrev recordBad (dw : List W64) : Prop :=
  fld dw 1 47 42 ≠ 0 ∨ fld dw 1 31 27 ≠ 0 ∨ fld dw 1 19 8 ≠ 0 ∨ 2 < fld dw 1 41 40 ∨ fld dw 1 26 23 = 0 ∨ 8 < fld dw 1 26 23 ∨
    (∃ i < 8, fld dw 1 26 23 ≤ i ∧ kidx dw i ≠ 0) ∨ fld dw 4 63 48 = 0 ∨ 4096 < fld dw 4 63 48 ∨ fld dw 4 47 32 = 0 ∨
    (if 96 ≤ fld dw 1 6 0 then 4482 else 4096) < fld dw 4 47 32 ∨ fld dw 4 31 0 = 0 ∨ (96 ≤ fld dw 1 6 0 ∧ fld dw 7 31 0 ≠ 0) ∨
    fld dw 10 63 56 ≠ 0 ∨ fld dw 10 55 48 = 0 ∨ fld dw 10 47 0 % 4096 ≠ 0 ∨ fld dw 11 47 32 % 64 ≠ 0 ∨ fld dw 11 31 5 ≠ 0 ∨
    (fld dw 7 31 0 = 0 ∧ fld dw 12 63 0 ≠ 0) ∨ fld dw 14 63 0 ≠ 0 ∨ fld dw 15 63 0 ≠ 0
/-- The header of an LN section of `len` bytes is bad (R314). -/
abbrev lnHeaderBad (mem : Mem) (b len : Nat) : Prop :=
  len < 64 ∨ memNat mem b 8 = 0 ∨ 255 < memNat mem b 8 ∨ ∃ j < 7, memNat mem (b + 8 + 8 * j) 8 ≠ 0
/-- The descriptor for chain position `i` leaves its limits (R314). -/
abbrev descBad (mem : Mem) (b len : Nat) (dw : List W64) (i : Nat) : Prop :=
  let d := desc mem b dw i
  memNat mem b 8 ≤ kidx dw i ∨ len < 0x40 + 64 * (kidx dw i + 1) ∨ d 0 63 48 ≠ 0 ∨ d 0 47 32 = 0 ∨ 1024 < d 0 47 32 ∨ d 0 31 0 % 8 ≠ 0 ∨
    len < d 0 31 0 + 8 * d 0 47 32 ∨ d 1 63 56 ≠ 0 ∨ d 1 48 48 = 0 ∨ d 1 47 44 ≠ 0 ∨ d 1 43 40 = 0 ∨ 4 < d 1 43 40 ∨ d 1 39 36 ≠ 0 ∨
    7 < d 1 35 32 ∨ d 1 31 16 = 0 ∨ 256 < d 1 31 16 ∨ d 1 15 0 = 0 ∨ 8192 < d 1 15 0 ∨ d 2 63 49 ≠ 0 ∨ d 2 47 32 = 0 ∨ 8192 < d 2 47 32 ∨
    8191 < d 2 31 16 ∨ 8192 < d 2 15 0 ∨ (i = 0 ∧ (d 2 31 16 ≠ 0 ∨ d 2 15 0 ≠ 0)) ∨ d 3 63 32 ≠ 0 ∨ d 3 31 0 % 64 ≠ 0 ∨
    (d 3 31 0 ≠ 0 ∧ len < d 3 31 0 + 8192) ∨ d 4 63 0 ≠ 0 ∨ d 5 63 0 ≠ 0 ∨ d 6 63 0 ≠ 0 ∨ d 7 63 0 ≠ 0
/-- A word is illegal in the kernel for chain position `i` (R329): reserved, a window row not in WMASK, or a table where there is none. -/
def lnIllegal (mem : Mem) (b : Nat) (dw : List W64) (i w : Nat) : Bool :=
  match decode .ln w with
  | none => true
  | some (.lld f) => !(desc mem b dw i 1 55 48).testBit (f.c.toNat % 8)
  | some (.ksr f) => decide (8 ≤ f.imm.toNat) && !(desc mem b dw i 1 55 48).testBit (f.imm.toNat - 8)
  | some (.lnVlut _) => desc mem b dw i 3 31 0 == 0
  | _ => false
/-- Bytes of line buffer that a stream takes. -/
def bufOf (m : MillCfg) : Nat := 32 * m.width + (m.kernels.map fun k => 32 * k.ow + if k.lut.isSome then 8192 else 0).sum
/-- Bytes of line buffer that the mill needs with the record applied. -/
def bufNeed (s : State) (b : Nat) (dw : List W64) : Nat :=
  32 * fld dw 4 47 32 +
    ((List.range (fld dw 1 26 23)).map fun i => 32 * desc s.mem b dw i 1 15 0 + if desc s.mem b dw i 3 31 0 = 0 then 0 else 8192).sum +
    ((s.streams.filterMap fun p => if p.1 ≠ fld dw 1 6 0 ∧ p.1 / 4 = fld dw 1 6 0 / 4 then p.2.cfg else none).map bufOf).sum
/-- Clocks that processor `i` has for an output row, and those it needs. -/
def rowHave (mem : Mem) (b : Nat) (dw : List W64) (i : Nat) : Nat :=
  3 * ((List.range (i + 1)).map fun j => desc mem b dw j 1 43 40).prod * fld dw 4 31 0 / 5
def rowNeed (mem : Mem) (b : Nat) (dw : List W64) (i : Nat) : Nat := desc mem b dw i 1 31 16 * desc mem b dw i 0 47 32 + 64
/-- Bytes of a tile row of `ow` samples (R330). -/
def tileRowBytes (ofmt ow : Nat) : Nat := if ofmt < 8 then ow / 32 * planeStride (ofmt % 4 + 1) else ow * fmtBytes ofmt
/-- First byte and length of a record's slots. -/
def slotsOf (dw : List W64) : Nat × Nat := (fld dw 10 47 0, 4096 * fld dw 11 63 48 * fld dw 10 55 48)

/-- Reason `k` of R334 applies to a record with EN = 1 whose image is `g`, its LN section of `len` bytes at `b`. -/
def millRefused (s : State) (dw : List W64) (g : Image) (b len k : Nat) : Prop :=
  let st := fld dw 1 6 0
  let n := fld dw 1 26 23
  let ofmt := fld dw 11 4 0
  let z := slotsOf dw
  match k with
  | 1 => recordBad dw ∨ lnHeaderBad s.mem b len ∨ ∃ i < n, (descBad s.mem b len dw i ∨ chainRows s.mem b dw (i + 1) = 0)
  | 2 => (if 96 ≤ st then fld dw 1 39 32 ≠ 0 else ¬ (0x2A ≤ fld dw 1 39 32 ∧ fld dw 1 39 32 ≤ 0x2E ∨ fld dw 1 39 32 = 0x1E)) ∨
      (st < 96 ∧ fld dw 13 63 0 ≠ 0) ∨ (96 ≤ st ∧ ∃ o ∈ othersOn s dw, o.1 / 4 = st / 4 ∧ o.2.udp = fld dw 13 63 48) ∨
      ofmt ∉ [0, 1, 2, 3, 4, 5, 6, 7, 0x08, 0x09, 0x0C, 0x0D, 0x10, 0x11, 0x12] ∨ (ofmt < 8 ∧ lastOw s.mem b dw % 32 ≠ 0) ∨
      (96 ≤ st ∧ 8972 < fld dw 13 15 0 + 2 * fld dw 4 47 32)
  | 3 => 8 < fld dw 1 22 20 + n ∨ ∃ o ∈ othersOn s dw, o.1 / 4 = st / 4 ∧ ∃ p < fld dw 1 22 20 + n, fld dw 1 22 20 ≤ p ∧
      o.2.first ≤ p ∧ p < o.2.first + o.2.kernels.length
  | 4 => ∃ i < n, ∃ j < desc s.mem b dw i 0 47 32, lnIllegal s.mem b dw i (lnCode s.mem b dw i j) = true
  | 5 => 2 ^ 21 < bufNeed s b dw
  | 6 => ∃ i < n, rowHave s.mem b dw i < rowNeed s.mem b dw i
  | 7 => z.1 < 0x10000000000 ∨ 0x10030000000 ≤ z.1 ∨ 0x10030000000 < z.1 + z.2 ∨
      4096 * fld dw 11 63 48 < 0x1000 + chainRows s.mem b dw n * fld dw 11 47 32 ∨
      fld dw 11 47 32 < tileRowBytes ofmt (lastOw s.mem b dw) ∨
      ∃ o ∈ othersOn s dw, o.2.slotbase < z.1 + z.2 ∧ z.1 < o.2.slotbase + 4096 * o.2.slotsz * o.2.nslot
  | 8 => leaseList s.mem (dw.getD 6 0).toNat = none ∨ ∃ ls ∈ leaseList s.mem (dw.getD 6 0).toNat,
      (leaseFault ls false true z.1 z.2 ≠ none ∨ roFault (s.ro ++ [⟨g.base, g.size⟩]) z.1 z.2 ≠ none ∨
        leaseFault ls true false g.base g.size ≠ none ∨ s.imageOf g.base = none)
  | _ => False

/-- The fields of a refusal that R335 gives beside its reason. -/
def millDetail (s : State) (dw : List W64) (b : Nat) (v : MillBad) : Prop :=
  (v.reason = 4 → v.pos < fld dw 1 26 23 ∧ v.idx < desc s.mem b dw v.pos 0 47 32 ∧ v.det1 = lnCode s.mem b dw v.pos v.idx ∧
    lnIllegal s.mem b dw v.pos v.det1 = true) ∧
  (v.reason = 5 → v.det1 = bufNeed s b dw) ∧
  (v.reason = 6 → v.pos < fld dw 1 26 23 ∧ rowHave s.mem b dw v.pos < rowNeed s.mem b dw v.pos ∧
    v.det1 = rowHave s.mem b dw v.pos % 2 ^ 32 * 2 ^ 32 + rowNeed s.mem b dw v.pos) ∧
  (v.reason ≠ 4 → v.idx = 0) ∧ (v.reason ∉ [4, 5, 6] → v.det1 = 0) ∧ (v.reason ∉ [7, 8] → v.addr = 0) ∧
  (v.reason ∉ [1, 4, 6] → v.pos = 0xFF)

end Sys2Proof.Claims

/-- R311, R314, R315, R329, R334, R335: which record is refused, for which reason, with which details: the lowest reason that applies, by
the record and the row kernels its image holds; where none applies, the configuration the record gives. The kernels are read whether
the image verifies or not (log entry 26). -/
def Sys2Proof.Claims.MillRecordsRefused : Prop :=
  (∀ (s : State) (dw : List W64), fld dw 1 7 7 = 0 →
    let zero := fld dw 1 63 8 = 0 ∧ ∀ i ∈ [3, 4, 7, 10, 11, 12, 13, 14, 15], fld dw i 63 0 = 0
    (zero → s.millCheck dw = .off) ∧ (¬ zero → ∃ v, s.millCheck dw = .bad v ∧ v.reason = 1)) ∧
  (∀ (s : State) (dw : List W64), fld dw 1 7 7 = 1 → imageAt s.mem (fld dw 2 47 0) = none →
    ∃ v, s.millCheck dw = .bad v ∧ (recordBad dw → v.reason = 1) ∧ (¬ recordBad dw → v.reason ∈ [2, 3, 7, 8])) ∧
  ∀ (s : State) (dw : List W64) (g : Image) (b len : Nat), fld dw 1 7 7 = 1 → imageAt s.mem (fld dw 2 47 0) = some g → g.sec 5 = ⟨b, len⟩ →
    (∀ k, 1 ≤ k → k ≤ 8 → millRefused s dw g b len k → (∀ j, 1 ≤ j → j < k → ¬ millRefused s dw g b len j) →
      ∃ v, s.millCheck dw = .bad v ∧ v.reason = k ∧ millDetail s dw b v) ∧
    ((∀ k, ¬ millRefused s dw g b len k) → ∃ m, s.millCheck dw = .on m g ∧ m.mark = BitVec.ofNat 16 (fld dw 1 63 48) ∧ m.pol = fld dw 1 41 40 ∧
      m.dt = fld dw 1 39 32 ∧ m.first = fld dw 1 22 20 ∧ m.height = fld dw 4 63 48 ∧ m.width = fld dw 4 47 32 ∧ m.rper = fld dw 4 31 0 ∧
      m.doff = fld dw 7 63 32 ∧ m.fsper = fld dw 7 31 0 ∧ m.nslot = fld dw 10 55 48 ∧ m.slotbase = fld dw 10 47 0 ∧
      m.slotsz = fld dw 11 63 48 ∧ m.rowpitch = fld dw 11 47 32 ∧ m.ofmt = fld dw 11 4 0 ∧ m.fsbase = fld dw 12 63 0 ∧
      m.udp = fld dw 13 63 48 ∧ m.tsoff = fld dw 13 47 32 ∧ m.roff = fld dw 13 31 16 ∧ m.poff = fld dw 13 15 0 ∧
      m.kernels.length = fld dw 1 26 23 ∧ ∀ i k, m.kernels[i]? = some k →
        let d := desc s.mem b dw i
        k.code = (List.range (d 0 47 32)).map (fun j => BitVec.ofNat 64 (lnCode s.mem b dw i j)) ∧ k.wmask = d 1 55 48 ∧ k.rstep = d 1 43 40 ∧
        k.odly = d 1 35 32 ∧ k.nstrip = d 1 31 16 ∧ k.ow = d 1 15 0 ∧ (k.osign = true ↔ d 2 48 48 = 1) ∧ k.ospan = d 2 47 32 ∧
        k.reach = d 2 31 16 ∧ k.ispan = d 2 15 0 ∧ (d 3 31 0 = 0 → k.lut = none) ∧
        (d 3 31 0 ≠ 0 → k.lut = some ((List.range 4096).map fun j => BitVec.ofNat 16 (memNat s.mem (b + d 3 31 0 + 2 * j) 2))))

/-- R28, R311, R312, R314 to R316, R318, R329 to R337: mill records, checked, refused or applied; strips, rows, slots and tile rows (log entries 26, 49, 50, 92). -/
def Obligations.MillsConfigureAndWriteRows : Prop :=
  Claims.MillRecordsApplyAndRowsAdvance ∧ Claims.MillRecordsRefused

namespace Sys2Proof.Claims

/-! ## The scheduler -/

/-- Every launch of queue `q` with number `lseq` in `t` has the property. -/
def launchIs (t : State) (q : Nat) (lseq : W32) (p : Launch → Prop) : Prop := ∀ l ∈ t.launches, l.q = q → l.lseq = lseq → p l
/-- A scheduler record (ENG 6) of queue `q` has been added. -/
def schedRecorded (s t : State) (q code st : Nat) (lseq : W32) (det1 : W64) : Prop :=
  ∃ e, e ∈ t.faults ∧ e.q = q ∧ e.r.eng = 6 ∧ e.r.code = code ∧ e.r.state = st ∧ e.r.lseq = lseq ∧ e.r.det1 = det1 ∧
    e.r.core = 0xFF ∧ e.rseq = none ∧ e.clk = s.clk
/-- No byte of a range lies in a slot of a stream that is on (R336), nor in a range that R69 holds read-only. -/
abbrev plainRange (s : State) (a n : Nat) : Prop :=
  rangeInDevice a n = true ∧ (∀ r ∈ s.ro, a + n ≤ r.base ∨ r.base + r.len ≤ a) ∧ ∀ i < n, s.inSlot (a + i) = false
/-- The context is asked to give way: a request of this clock or, where its sequencer has acted, of the next (R94, R99). -/
def asked (s t : State) (c : CtxId) : Prop :=
  ((s.ctx c).run = .run ∨ (s.ctx c).run = .stall ∨ (s.ctx c).run = .sleep ∨ (s.ctx c).run = .halt) → (s.ctx c).preq = none →
    (t.ctx c).preq = some s.clk ∨ (t.ctx c).preq = some (s.clk + 1)
/-- Two byte ranges share no byte. -/
abbrev disjoint (a n b m : Nat) : Prop := a + n ≤ b ∨ b + m ≤ a
/-- A mill record's dependences are met: no graph record, or one with DEP and ERR 0 (R360). -/
abbrev millReady (s : State) (g : Nat) : Prop := g = 0 ∨ (s.graphOk g = true ∧ memNat s.mem g 4 = 0 ∧ memNat s.mem (g + 4) 4 = 0)
/-- The completion signal of R362 with both times `time`. -/
def signalOf (dw : List W64) (time : W64) (code : Nat) : List Byte :=
  leBytes 8 (dw.getD 9 0).toNat ++ leBytes 8 time.toNat ++ leBytes 8 time.toNat ++ leBytes 8 (code % 2 ^ 16)
/-- A killed launch: completing with its code and stamp, every item ended or killed (R376). -/
def killedIs (t : State) (q : Nat) (lseq : W32) (code : Nat) (tend : W64) : Prop :=
  launchIs t q lseq fun l => l.st = .completing ∧ l.code = BitVec.ofNat 16 code ∧ l.tend = some tend ∧
    ∀ i ∈ l.items, i.st = .ended ∨ i.st = .killed
/-- The context holds the work item `wid` of a launch. -/
abbrev holdsItem (x : Context) (q : Nat) (lseq : W32) (wid : W64) : Prop :=
  x.holds = true ∧ x.job.map (fun j => (j.q, j.lseq, j.wid)) = some (q, lseq, wid)
/-- The values of a fault record fit their fields of R31. -/
def fits (r : FaultRec) : Prop := r.state < 16 ∧ r.unit < 256 ∧ r.core < 256 ∧ r.eng < 16 ∧ r.code < 2 ^ 16
/-- The 64 bytes at `a` hold a fault record of queue `q` by the layout of R31, each reserved field zero. -/
def layoutIs (m : Mem) (a q : Nat) (r : FaultRec) (rseq : W32) : Prop :=
  let d := bitsOf (memNat m a 8)
  d 63 52 = 0 ∧ d 51 48 = r.state ∧ d 47 46 = 0 ∧ d 45 40 = q ∧ d 39 32 = r.unit ∧ d 31 24 = r.core ∧ d 23 21 = 0 ∧ d 20 20 = r.ctx.toNat ∧
    d 19 16 = r.eng ∧ d 15 0 = r.code ∧ memNat m (a + 0x08) 8 = r.wid.toNat ∧ memNat m (a + 0x10) 8 = r.time.toNat ∧
    memNat m (a + 0x18) 8 = r.loc.toNat ∧ memNat m (a + 0x20) 8 = r.addr.toNat ∧ memNat m (a + 0x28) 8 = r.det0.toNat ∧
    memNat m (a + 0x30) 8 = r.det1.toNat ∧ memNat m (a + 0x38) 4 = r.lseq.toNat ∧ memNat m (a + 0x3C) 4 = rseq.toNat
/-- A record that waits for a slot of queue `q` and has not been counted: found in an earlier clock, not written, and no other fault of
its engine is reported and awaits its answer, or comes before it and is not written (R34, R35). -/
def waitsUncounted (s : State) (q : Nat) (e : FaultEntry) : Bool :=
  s.waitsSlot q e && !e.counted
/-- A step of the watchdog ladder is due (R374). -/
abbrev stepIsDue (s : State) (l : Launch) (fired us : Nat) (t0 : W64) : Prop :=
  l.st = .running ∧ l.finished = false ∧ (s.queue l.q).wden = true ∧ l.fired = fired ∧ l.tstart = some t0 ∧
    (t0 + BitVec.ofNat 64 (1000 * us)).toNat ≤ s.now.toNat

end Sys2Proof.Claims

/-- R31, R35, R353, R354, R371, R373: a doorbell moves TAIL or freezes its queue, in a record whose LSEQ is HEAD (log entry 98); a record of
a fault goes to its slot by the layout of R31, with TAIL after it; with no slot free each record that waits is counted once in OVF, and
WAIT reads 1; the runtime frees slots; the coalescing timer raises CVEC for every completion pending. -/
def Obligations.QueuePointersAndRecords : Prop :=
  ∀ (s : State) (qid : QId) (q : Nat) (u : Queue), q = qid.val → u = s.queue q →
    (∀ v : W32, u.hostFed = true → s.phaseDev ≠ 3 →
      ((v - u.head).toNat ≤ u.size → (v - u.tail).toNat ≤ u.size →
        ∃ t, exec (.doorbell qid v) s = .next t ∧ t.queue q = { u with tail := v, born := (t.queue q).born } ∧
          (∀ k, k ≠ q → t.queue k = s.queue k) ∧ t.mem = s.mem ∧ t.faults = s.faults) ∧
      (u.size < (v - u.head).toNat ∨ u.size < (v - u.tail).toNat →
        ∃ t, exec (.doorbell qid v) s = .next t ∧ (t.queue q).frozen = true ∧ (t.queue q).tail = u.tail ∧
          schedRecorded s t q 0x0802 3 u.head (BitVec.ofNat 64 v.toNat))) ∧
    (∀ v : W32, u.hostFed = false → s.phaseDev ≠ 3 → exec (.doorbell qid v) s = .next { s with rsvw := satInc s.rsvw }) ∧
    (∀ v : W32, s.phaseDev ≠ 3 → exec (.xheadWrite qid v) s = .next (s.setQueue q { u with xhead := v })) ∧
    (∀ v : W32, s.phaseDev = 3 → exec (.doorbell qid v) s = .next s ∧ exec (.xheadWrite qid v) s = .next s) ∧
    (∀ (e : FaultEntry) (a : Nat), s.nextFault q = some e → e.clk < s.clk → a = u.xbase + 64 + 64 * (u.xtail.toNat % u.xsize) →
      (u.xtail - u.xhead).toNat < u.xsize → plainRange s a 64 → plainRange s u.xbase 64 →
      ∃ t, exec (.exceptionRecordWrite qid) s = .next t ∧ memRead t.mem a 64 = faultBytes q e.r u.xtail ∧
        (fits e.r → layoutIs t.mem a q e.r u.xtail) ∧
        memRead t.mem u.xbase 64 = leBytes 8 (u.xtail + 1).toNat ++ leBytes 8 u.ovf.toNat ++ List.replicate 48 0 ∧
        t.out = s.out ∧ t.msixDue = s.msixDue ++ [u.xvec] ∧ (t.queue q).xtail = u.xtail + 1 ∧ (t.queue q).xhead = u.xhead ∧
        { e with rseq := some u.xtail } ∈ t.faults ∧
        ∀ b, (b < a ∨ a + 64 ≤ b) → (b < u.xbase ∨ u.xbase + 64 ≤ b) → memGet t.mem b = memGet s.mem b) ∧
    (∀ (e : FaultEntry) (n : Nat) (ovf : BitVec 16), s.nextFault q = some e → e.clk < s.clk → u.xsize ≤ (u.xtail - u.xhead).toNat →
      n = (s.faults.filter (waitsUncounted s q)).length → ovf.toNat = Nat.min (u.ovf.toNat + n) 0xFFFF →
      (n = 0 → exec (.exceptionRecordWrite qid) s = .next s) ∧
      (n ≠ 0 → plainRange s u.xbase 64 → ∃ t, exec (.exceptionRecordWrite qid) s = .next t ∧ t.queue q = { u with ovf := ovf } ∧
        (∀ k, k ≠ q → t.queue k = s.queue k) ∧ stored s t u.xbase (leBytes 8 u.xtail.toNat ++ leBytes 8 ovf.toNat ++ List.replicate 48 0) ∧
        t.sint.getLsbD 0 = true ∧ (t.regRead (.qxst q)).getLsbD 0 = true ∧ (∀ f ∈ t.faults, waitsUncounted t q f = false) ∧
        t.faults.map (fun f => { f with counted := false }) = s.faults.map (fun f => { f with counted := false }) ∧
        t.launches = s.launches ∧ t.ctxs = s.ctxs)) ∧
    (∀ at_ : W64, u.coalAt = some at_ → at_.toNat ≤ s.now.toNat → s.msixMask = false → (s.msixCtl u.cvec).getLsbD 32 = false →
      ∃ t, exec (.coalescingTimer qid) s = .next t ∧ t.out = s.out ++ List.replicate u.coalPending (.msix u.cvec) ∧
        (t.queue q).coalPending = 0 ∧ (t.queue q).coalAt = none ∧ t.mem = s.mem) ∧
    (∀ v : Nat, s.msixDue = [v] → s.msixMask = false → (s.msixCtl v).getLsbD 32 = false →
      s.raiseDue = { s with msixDue := [], sintNow := 0, out := s.out ++ [.msix v] })

namespace Sys2Proof.Claims

/-! ## Launch records, images and lease lists (R19, R22 to R24, R29, R65, R68, R115, R116, R359) -/

/-- Bits `hi`:`lo` of dword `i` of a launch record (R22). -/
def lr (dw : List W64) (i hi lo : Nat) : Nat := bitsOf (dw.getD i 0).toNat hi lo
/-- S, the sum of the six field widths (R19). -/
def idBits (dw : List W64) : Nat := lr dw 0 29 24 + lr dw 0 35 30 + lr dw 0 41 36 + lr dw 0 47 42 + lr dw 0 53 48 + lr dw 0 59 54
/-- A reserved field or value of dword 0, or a sum of widths above 64 (R22, R23). -/
abbrev headBad (dw : List W64) : Prop := lr dw 0 63 60 ≠ 0 ∨ 64 < idBits dw ∨ 8 < lr dw 0 23 20 ∨ lr dw 0 18 16 = 7 ∨ lr dw 0 15 8 ≠ 1
/-- The address in dword `i` has a bit at or above 48, or is not aligned to `n`. -/
abbrev placeBad (dw : List W64) (i n : Nat) : Prop := lr dw i 63 48 ≠ 0 ∨ lr dw i 47 0 % n ≠ 0
/-- SIGNAL, LEASES (ignored with NLEASE 0) or GRAPH leaves its limits. -/
abbrev linksBad (dw : List W64) : Prop :=
  placeBad dw 5 32 ∨ lr dw 6 63 60 ≠ 0 ∨ (lr dw 6 59 48 ≠ 0 ∧ lr dw 6 47 0 % 16 ≠ 0) ∨ placeBad dw 8 64
/-- A launch record is malformed (R23, R359). -/
abbrev launchBad (dw : List W64) : Prop :=
  (lr dw 0 7 0 = 1 ∧ (headBad dw ∨ linksBad dw ∨ 2 ^ idBits dw ≤ lr dw 1 63 0 ∨ placeBad dw 2 4096 ∨ lr dw 3 63 16 ≠ 0 ∨ lr dw 4 31 27 ≠ 0 ∨
    ¬ (1 ≤ lr dw 4 8 0 ∧ lr dw 4 8 0 ≤ lr dw 4 17 9 ∧ lr dw 4 17 9 ≤ lr dw 4 26 18 ∧ lr dw 4 26 18 ≤ 256) ∨ lr dw 4 63 48 = 0 ∨
    placeBad dw 7 8 ∨ lr dw 10 63 8 ≠ 0 ∨ ∃ i < 16, 11 ≤ i ∧ lr dw i 63 0 ≠ 0)) ∨
  (lr dw 0 7 0 = 2 ∧ (headBad dw ∨ placeBad dw 5 32 ∨ placeBad dw 8 64 ∨ ∃ i < 16, 1 ≤ i ∧ i ≠ 5 ∧ i ≠ 8 ∧ i ≠ 9 ∧ lr dw i 63 0 ≠ 0)) ∨
  (lr dw 0 7 0 = 3 ∧ (lr dw 0 63 0 ≠ 0x0103 ∨ placeBad dw 2 4096 ∨ linksBad dw)) ∨ 3 < lr dw 0 7 0 ∨ lr dw 0 7 0 = 0

/-- Bits of dword `j` from address `a`. -/
def dwAt (m : Mem) (a j hi lo : Nat) : Nat := bitsOf (memNat m (a + 8 * j) 8) hi lo
/-- A range lies inside one mapped range of R59. -/
abbrev oneRange (a n : Nat) : Prop := n ≠ 0 ∧ addrFault a n = none
/-- Entry `i` of a lease list at `a` is malformed (R68). -/
abbrev leaseBad (m : Mem) (a i : Nat) : Prop :=
  let d := dwAt m (a + 16 * i)
  d 0 63 48 ≠ 0 ∨ d 1 63 34 ≠ 0 ∨ d 0 47 0 % 4096 ≠ 0 ∨ d 1 33 32 = 0 ∨ d 1 31 0 = 0 ∨ ¬ oneRange (d 0 47 0) (4096 * d 1 31 0)
/-- Directory entry `i` of an image at `g`: its type, first byte and length (R115). -/
def secTy (m : Mem) (g i : Nat) : Nat := dwAt m (g + 0x40 + 16 * i) 0 7 0
def secOff (m : Mem) (g i : Nat) : Nat := dwAt m (g + 0x40 + 16 * i) 1 63 0
def secLen (m : Mem) (g i : Nat) : Nat := dwAt m (g + 0x40 + 16 * i) 0 63 32
/-- An image header or directory breaks a rule of R115. -/
abbrev imageBad (m : Mem) (g : Nat) : Prop :=
  let n := dwAt m g 0 63 48
  let size := dwAt m g 1 63 0
  n < 2 ∨ 9 < n ∨ dwAt m g 0 47 40 ≠ 0 ∨ dwAt m g 0 39 32 ≠ 1 ∨ dwAt m g 0 31 0 ≠ 0x4E525041 ∨ size % 4096 ≠ 0 ∨ dwAt m g 2 63 16 ≠ 0 ∨
    dwAt m g 2 15 0 = 0 ∨ (∃ j < 8, 3 ≤ j ∧ dwAt m g j 63 0 ≠ 0) ∨
    (∃ i < n, dwAt m (g + 0x40 + 16 * i) 0 31 8 ≠ 0 ∨ secTy m g i = 0 ∨ 9 < secTy m g i ∨ secOff m g i % 64 ≠ 0 ∨ 2 ^ 48 ≤ secOff m g i ∨
      size < secOff m g i + secLen m g i) ∨
    (∃ j < n, ∃ i < j, secTy m g i = secTy m g j) ∨
    (∃ j < n, ∃ i < j, secOff m g i < secOff m g j + secLen m g j ∧ secOff m g j < secOff m g i + secLen m g i) ∨
    (∀ i < n, ¬ (secTy m g i = 8 ∧ secLen m g i = 64 * dwAt m g 2 15 0)) ∨ secTy m g (n - 1) ≠ 9
/-- The section of type `ty` of an image at `g` starts at `a` and has `len` bytes. -/
def sectionIs (m : Mem) (g ty a len : Nat) : Prop := ∃ i < dwAt m g 0 63 48, secTy m g i = ty ∧ a = g + secOff m g i ∧ len = secLen m g i
/-- A template range from `base`, `n` long, of words of `w` bytes leaves the section of type `ty` (R116). -/
def templatesBad (m : Mem) (g ty w base n : Nat) : Prop :=
  n ≠ 0 ∧ ∀ a len, sectionIs m g ty a len → len / w < base + n
/-- A kernel table entry at `k` breaks R116: a reserved bit, the alignment of its entry, or a range outside its section. -/
def entryBad (m : Mem) (g k : Nat) : Prop :=
  dwAt m k 0 63 33 ≠ 0 ∨ dwAt m k 0 1 0 ≠ 0 ∨ dwAt m k 1 63 48 ≠ 0 ∨ dwAt m k 2 63 59 ≠ 0 ∨ dwAt m k 4 63 32 ≠ 0 ∨
    (∃ j, 5 ≤ j ∧ j ≤ 7 ∧ dwAt m k j 63 0 ≠ 0) ∨
    (dwAt m k 1 47 32 ≠ 0 ∧ ∀ a len, sectionIs m g 2 a len → memNat m a 4 < dwAt m k 1 31 0 + dwAt m k 1 47 32) ∨
    templatesBad m g 3 32 (dwAt m k 3 15 0) (dwAt m k 3 31 16) ∨ templatesBad m g 4 32 (dwAt m k 3 47 32) (dwAt m k 3 63 48) ∨
    templatesBad m g 6 16 (dwAt m k 4 15 0) (dwAt m k 4 31 16)
/-- A view of kernel entry `k` lies at or above CV1·4096 (R65), or a count is above the largest of R153. -/
def viewsLeave (m : Mem) (k cv1 : Nat) : Prop :=
  let d := dwAt m k 2
  (d 23 12 ≠ 0 ∧ 4096 * cv1 < 256 * (d 11 0 + d 23 12)) ∨ (d 39 32 ≠ 0 ∧ cv1 < d 31 24 + d 39 32) ∨
    (d 58 49 ≠ 0 ∧ 4096 * cv1 < 2048 * (d 48 40 + d 58 49)) ∨ 128 < d 23 12 ∨ 255 < d 39 32 ∨ 512 < d 58 49

end Sys2Proof.Claims

/-- R19, R22, R23, R312, R334, R353, R358 to R360: a head record is admitted by its kind and its dependences, or freezes its queue when
malformed, field by field; a mill record is checked at the head whatever its dependences (log entry 50), and refused, applied, pending
or waiting. -/
def Sys2Proof.Claims.RecordsAdmit : Prop :=
  ∀ (s : State) (qid : QId) (q : Nat) (u : Queue) (dw : List W64), q = qid.val → u = s.queue q → u.en = true → u.frozen = false →
    u.tail ≠ u.head → (s.launches.filter fun l => l.q == q).length ≤ u.actm1 → s.pausedAt = none → s.phaseDev ≠ 3 →
    dw = (List.range 16).map (fun i => BitVec.ofNat 64 (memNat s.mem (u.base + 128 * (u.head.toNat % u.size) + 8 * i) 8)) →
    (launchBad dw → ∃ t, exec (.launchAdmit qid) s = .next t ∧ (t.queue q).frozen = true ∧ (t.queue q).head = u.head ∧
      schedRecorded s t q 0x0801 3 u.head 0 ∧ t.launches = s.launches ∧ t.mem = s.mem) ∧
    (¬ launchBad dw → recOp dw = 1 ∨ recOp dw = 2 → s.heldBack q dw = false → (∀ l ∈ s.launches, ¬ (l.q = q ∧ l.lseq = u.head)) →
      (recDw dw 8 = 0 ∨ s.graphOk (recDw dw 8) = true) →
      ∃ t, exec (.launchAdmit qid) s = .next t ∧ (t.queue q).head = u.head + 1 ∧ t.mem = s.mem ∧ (∃ l ∈ t.launches, l.q = q ∧ l.lseq = u.head) ∧
        launchIs t q u.head fun l => l.dw = dw ∧ l.items = [] ∧ l.prio = u.prio ∧
          (recDw dw 8 ≠ 0 → memNat s.mem (recDw dw 8) 4 ≠ 0 → l.st = .waiting) ∧
          (recDw dw 8 ≠ 0 → memNat s.mem (recDw dw 8) 4 = 0 → memNat s.mem (recDw dw 8 + 4) 4 ≠ 0 →
            l.st = .completing ∧ l.canc = true ∧ l.code = BitVec.ofNat 16 (memNat s.mem (recDw dw 8 + 4) 4)) ∧
          (recDw dw 8 = 0 ∨ (memNat s.mem (recDw dw 8) 4 = 0 ∧ memNat s.mem (recDw dw 8 + 4) 4 = 0) →
            l.st = if recOp dw = 1 then .preparing else .completing)) ∧
    (¬ launchBad dw → s.heldBack q dw = false → (∀ l ∈ s.launches, ¬ (l.q = q ∧ l.lseq = u.head)) → recDw dw 8 ≠ 0 →
      s.graphOk (recDw dw 8) = false → ∃ t, exec (.launchAdmit qid) s = .next t ∧ (t.queue q).head = u.head + 1 ∧
        (∃ l ∈ t.launches, l.q = q ∧ l.lseq = u.head) ∧ launchIs t q u.head fun l => l.st = .completing ∧ l.code = 0x080A) ∧
    (¬ launchBad dw → recOp dw = 3 → s.heldBack q dw = false → (∀ l ∈ s.launches, ¬ (l.q = q ∧ l.lseq = u.head)) →
      (recDw dw 8 = 0 ∨ s.graphOk (recDw dw 8) = true) → ∀ st, st = recStream dw →
      let passed (t : State) (p : Launch → Prop) : Prop := exec (.launchAdmit qid) s = .next t ∧ (t.queue q).head = u.head + 1 ∧
        (∃ l ∈ t.launches, l.q = q ∧ l.lseq = u.head) ∧ launchIs t q u.head fun l => l.dw = dw ∧ p l
      (∀ b, s.millCheck dw = .bad b → ∃ t e, exec (.launchAdmit qid) s = .next t ∧ t.faults = s.faults ++ [e] ∧ e.q = q ∧
        e.r.state = 3 ∧ e.r.code = 0x0601 ∧ e.r.lseq = u.head ∧ e.r.det0 = BitVec.ofNat 64 (b.idx * 2 ^ 32 + b.pos * 2 ^ 24 + b.reason) ∧
        (t.queue q).frozen = true ∧ (t.queue q).head = u.head ∧ t.streams = s.streams ∧ t.mem = s.mem) ∧
      (millReady s (recDw dw 8) → (s.stream st).pending = [] → ((s.stream st).cfg = none ∨ (s.stream st).frames = []) →
        (s.millCheck dw = .off → ∃ t, passed t (fun l => l.st = .completing ∧ l.tend = none) ∧ (t.stream st).cfg = none) ∧
        ∀ m g, s.millCheck dw = .on m g → ∃ t, passed t (fun l => l.st = .completing ∧ l.tend = none) ∧ (t.stream st).cfg = some m) ∧
      (millReady s (recDw dw 8) → (s.stream st).pending ≠ [] ∨ ((s.stream st).cfg ≠ none ∧ (s.stream st).frames ≠ []) →
        (∀ b, s.millCheck dw ≠ .bad b) →
        ∃ t, passed t (fun l => l.st = .ready) ∧ (t.stream st).pending = (s.stream st).pending ++ [(q, u.head, dw)] ∧
          (t.stream st).cfg = (s.stream st).cfg ∧ t.mem = s.mem) ∧
      (recDw dw 8 ≠ 0 → memNat s.mem (recDw dw 8) 4 ≠ 0 → (∀ b, s.millCheck dw ≠ .bad b) →
        ∃ t, passed t (fun l => l.st = .waiting) ∧ t.streams = s.streams ∧ t.mem = s.mem))

/-- R24, R27, R29, R65, R68, R115, R116: a lease list with a malformed entry is none, and its leases are else those of its entries; an
image that breaks R115, or an entry of whose kernel table breaks R116, does not verify, unless it is held verified. A section of length 0
strictly inside another overlaps it, and a list and an image lie in DRAM or the granary (log entries 96, 97). -/
def Sys2Proof.Claims.ImagesAndLeasesVerify : Prop :=
  (∀ (s : State) (d n a : Nat), n = bitsOf d 59 48 → a = bitsOf d 47 0 → rangeInDevice a (16 * n) = true →
    ((∃ i < n, leaseBad s.mem a i) → leaseList s.mem d = none) ∧
    ((∀ i < n, ¬ leaseBad s.mem a i) → ∃ ls, leaseList s.mem d = some ls ∧ ls.length = n ∧ ∀ i e, ls[i]? = some e →
      e.base = dwAt s.mem (a + 16 * i) 0 47 0 ∧ e.npage = dwAt s.mem (a + 16 * i) 1 31 0 ∧
      e.w = (dwAt s.mem (a + 16 * i) 1 33 33 == 1) ∧ e.rd = (dwAt s.mem (a + 16 * i) 1 32 32 == 1))) ∧
  (∀ (m : Mem) (d : Nat), bitsOf d 59 48 = 0 → leaseList m d = some []) ∧
  (∀ (s : State) (g : Nat), imageBad s.mem g → s.imageOf g = none) ∧
  (∀ (s : State) (g size : Nat), ¬ imageBad s.mem g → size = dwAt s.mem g 1 63 0 → rangeInDevice g size = true →
    (⟨g, size⟩ ∈ s.verified → ∃ i, s.imageOf g = some i ∧ i.base = g ∧ i.size = size ∧ i.nkern = dwAt s.mem g 2 15 0) ∧
    (⟨g, size⟩ ∉ s.verified → ∀ kt len, sectionIs s.mem g 8 kt len →
      (∃ k < dwAt s.mem g 2 15 0, entryBad s.mem g (kt + 64 * k)) → s.imageOf g = none))

/-- R24, R28, R29, R65, R69, R358, R363, R368: a launch that is prepared is ready, with its leases and its kernel and its image held
read-only, beside the tensors firmware marks (log entry 93); or it completes with the error found: lease, image, carve-out or region. -/
def Sys2Proof.Claims.LaunchesPrepare : Prop :=
  ∀ (s : State) (qid : QId) (lseq : W32) (ts : List (Addr × W32)) (l : Launch), s.launchOf qid.val lseq = some l → l.st = .preparing →
    let u := s.queue l.q
    let lim := bitsOf (s.part u.part).pclu.toNat 63 48
    let ro := s.ro.filter s.verified.contains ++ ts.map fun p => ⟨p.1.toNat, p.2.toNat⟩
    let fails (code : BitVec 16) : Prop := ∃ t, exec (.launchPrepared qid ⟨lseq, ts⟩) s = .next t ∧ t.mem = s.mem ∧ t.ro = ro ∧
      launchIs t qid.val lseq fun m => m.st = .completing ∧ m.code = code ∧ m.tend = some s.now
    (leaseList s.mem (lr l.dw 6 63 0) = none → fails 0x0803) ∧
    ∀ ls, leaseList s.mem (lr l.dw 6 63 0) = some ls →
      (s.imageOf (lr l.dw 2 63 0) = none → fails 0x0804) ∧
      ∀ g, s.imageOf (lr l.dw 2 63 0) = some g →
        (g.nkern ≤ lr l.dw 3 15 0 → fails 0x0804) ∧
        (lr l.dw 3 15 0 < g.nkern → ∀ kt len, g.sec 8 = ⟨kt, len⟩ →
          let k := kt + 64 * lr l.dw 3 15 0
          let bound : Prop := u.fg = false ∧ lim ≠ 0 ∧ lim < lr l.dw 4 63 48
          (viewsLeave s.mem k (lr l.dw 4 8 0) → fails 0x0805) ∧
          (¬ viewsLeave s.mem k (lr l.dw 4 8 0) → bound → fails 0x0806) ∧
          (¬ viewsLeave s.mem k (lr l.dw 4 8 0) → ¬ bound → ∃ t, exec (.launchPrepared qid ⟨lseq, ts⟩) s = .next t ∧ t.mem = s.mem ∧
            (∀ r, r ∈ t.ro ↔ r ∈ ro ∨ r = ⟨g.base, g.size⟩) ∧ ⟨g.base, g.size⟩ ∈ t.verified ∧
            launchIs t qid.val lseq fun m => m.st = .ready ∧ m.leases = ls ∧ ∃ n, m.kernel = some n ∧
              n.entry = (g.sec 1).base + dwAt s.mem k 0 31 0 ∧ n.wheel = (dwAt s.mem k 0 32 32 == 1) ∧ n.exBase = dwAt s.mem k 1 31 0 ∧
              n.exN = dwAt s.mem k 1 47 32 ∧ n.mxBase = dwAt s.mem k 3 15 0 ∧ n.mxN = dwAt s.mem k 3 31 16 ∧
              n.cpBase = dwAt s.mem k 3 47 32 ∧ n.cpN = dwAt s.mem k 3 63 48 ∧ n.alBase = dwAt s.mem k 4 15 0 ∧
              n.alN = dwAt s.mem k 4 31 16 ∧ n.vbase = dwAt s.mem k 2 11 0 ∧ n.vn = dwAt s.mem k 2 23 12 ∧ n.abase = dwAt s.mem k 2 31 24 ∧
              n.an = dwAt s.mem k 2 39 32 ∧ n.mbase = dwAt s.mem k 2 48 40 ∧ n.mn = dwAt s.mem k 2 58 49))

/-- R33, R312, R358 to R363: a launch whose work has ended writes its signal, with the code of its first STATE 2 record, counts down its
successors with the first error kept, and is done; one whose work has not ended does not complete. -/
def Sys2Proof.Claims.LaunchesComplete : Prop :=
  (∀ (s : State) (qid : QId) (lseq : W32) (l : Launch) (code : BitVec 16) (a : Nat), s.launchOf qid.val lseq = some l →
    (l.st = .completing ∧ l.tend ≠ none ∧ code = l.code ∨ l.st = .running ∧ l.finished = true ∧
      code = (match l.err with | some e => BitVec.ofNat 16 e | none => 0)) →
    a = recDw l.dw 5 → plainRange s a 32 →
    (recDw l.dw 8 = 0 → ∃ t, exec (.launchComplete qid lseq) s = .next t ∧ (∀ m ∈ t.launches, ¬ (m.q = qid.val ∧ m.lseq = lseq)) ∧
      stored s t a (leBytes 8 (l.dw.getD 9 0).toNat ++ leBytes 8 (l.tstart.getD (l.tend.getD s.now)).toNat ++
        leBytes 8 (l.tend.getD s.now).toNat ++ leBytes 8 (l.canc.toNat * 2 ^ 16 + code.toNat)) ∧
      (t.queue qid.val).coalPending = (s.queue qid.val).coalPending + 1) ∧
    (∀ (g n list : Nat) (succ : Nat → Nat), g = recDw l.dw 8 → g ≠ 0 → n = memNat s.mem (g + 8) 8 / 2 ^ 48 % 2 ^ 12 →
      list = memNat s.mem (g + 8) 8 % 2 ^ 48 → list % 8 = 0 → rangeInDevice list (8 * n) = true → disjoint a 32 (g + 8) 8 →
      disjoint a 32 list (8 * n) → (∀ i < n, succ i = memNat s.mem (list + 8 * i) 8 ∧ succ i % 64 = 0 ∧ plainRange s (succ i) 64 ∧
        disjoint a 32 (succ i) 8 ∧ disjoint (succ i) 8 list (8 * n) ∧ ∀ j < i, succ j ≠ succ i) →
      ∃ t, exec (.launchComplete qid lseq) s = .next t ∧ (∀ m ∈ t.launches, ¬ (m.q = qid.val ∧ m.lseq = lseq)) ∧
        ∀ i < n, memNat t.mem (succ i) 4 = memNat s.mem (succ i) 4 - 1 ∧
          memNat t.mem (succ i + 4) 4 = (if code ≠ 0 ∧ memNat s.mem (succ i + 4) 4 = 0 then code.toNat else memNat s.mem (succ i + 4) 4) ∧
          ∀ m ∈ s.launches, m.st = .waiting → m.d 8 = succ i → m.d 8 ≠ 0 → (∀ k ∈ s.launches, k.q = m.q → k.lseq = m.lseq → k = m) →
            memNat s.mem (succ i) 4 = 1 →
            (memNat t.mem (succ i + 4) 4 = 0 → recOp m.dw = 1 → launchIs t m.q m.lseq fun k => k.st = .preparing) ∧
            (memNat t.mem (succ i + 4) 4 ≠ 0 → launchIs t m.q m.lseq fun k => k.st = .completing ∧ k.canc = true ∧
              k.code = BitVec.ofNat 16 (memNat t.mem (succ i + 4) 4)))) ∧
  (∀ (s : State) (qid : QId) (lseq : W32) (l : Launch), s.launchOf qid.val lseq = some l →
    ((l.st = .completing ∧ l.tend = none) ∨ (l.st = .running ∧ l.finished = false) ∨ l.st = .waiting ∨ l.st = .preparing ∨ l.st = .ready →
      exec (.launchComplete qid lseq) s = .next s) ∧
    (l.st = .completing → l.tend = none → ∃ m ∈ s.noteLaunches.launches, m.q = qid.val ∧ m.lseq = lseq ∧ m.tend = some s.now))

/-- R19, R22 to R24, R29, R33, R65, R68, R115, R116, R312, R334, R353, R358 to R363: launch records, admitted or refused, prepared, or ended with the error found, and complete (log entries 50, 93, 96, 97). -/
def Obligations.LaunchesAdmitPrepareComplete : Prop :=
  Claims.RecordsAdmit ∧ Claims.ImagesAndLeasesVerify ∧ Claims.LaunchesPrepare ∧ Claims.LaunchesComplete

/-- R25, R26, R98, R356, R364, R366, R367, R369: a work item is dispatched to the context chosen, with the registers of R25; a discarded item
starts again from its mark; a launch that waits rises in priority; a slow swap asks its victim to give way, and then runs in its
place, the victim's pool copied to DRAM (log entry 31; the rise of a launch not yet ready: log entry 74); a request whose launch or victim
has gone its own way comes to nothing, and no item restarts outside its partition's clusters. -/
def Obligations.WorkItemsDispatchAndRestart : Prop :=
  (∀ (s : State) (l : Launch) (c : CtxId) (k : Kernel) (g : Nat) (w : List Nat), s.dispClk ≠ some s.clk → s.nextRestart = none →
    s.choice = some (l, c) → l.kernel = some k → l.nextGroup c.cluster = some g → s.wheelFor l = some w →
    (∀ m ∈ s.launches, s.mayDispatch m = true → (∃ d, s.eligible (s.launches.filter s.mayDispatch) m d = true) → m.prio ≤ l.prio) ∧
    s.eligible (s.launches.filter s.mayDispatch) l c = true ∧
    ∃ t, exec .workItemDispatch s = .next t ∧ (t.ctx c).run = .run ∧ (t.ctx c).pc = BitVec.ofNat 48 k.entry ∧
      (t.ctx c).raddr = BitVec.ofNat 48 k.entry ∧ (∀ r, (t.ctx c).reg r = if r = 1 then BitVec.ofNat 64 (l.d 7) else 0) ∧
      (t.ctx c).wheel = w ∧ (∃ j, (t.ctx c).job = some j ∧ j.q = l.q ∧ j.lseq = l.lseq ∧ j.k = k ∧ j.leases = l.leases ∧
        j.wid = l.itemWid g (l.begun g)) ∧
      launchIs t l.q l.lseq fun m => m.st = .running ∧ ∃ i ∈ m.items, i.wid = l.itemWid g (l.begun g) ∧
        ((∀ d j, d ≠ c → (s.ctx d).job = some j → ¬ (j.q = l.q ∧ j.lseq = l.lseq ∧ j.wid = i.wid)) →
          i.st = .dispatched ∧ i.ctx = c.val)) ∧
  (∀ (s : State) (c : CtxId) (x : Context) (w : List Nat), s.dispClk ≠ some s.clk → s.nextRestart = some c → s.waitsHere c = some x →
    s.restartWheel (s.launches.filter s.mayDispatch) c = some w →
    ∃ t, exec (.workItemRestart c) s = .next t ∧ (t.ctx c).run = .run ∧ (t.ctx c).pc = x.raddr ∧ (t.ctx c).x = x.shadow.x ∧
      (t.ctx c).tvec = x.shadow.tvec ∧ (t.ctx c).ie = x.shadow.ie ∧ (t.ctx c).sem = x.shadow.sem ∧ (t.ctx c).mb = x.shadow.mb ∧
      (t.ctx c).cmt = false ∧ (t.ctx c).pend = false ∧ (t.ctx c).inh = false ∧ (t.ctx c).wheel = w ∧ (t.ctx c).job = x.job) ∧
  (∀ (s : State) (qid : QId) (lseq : W32) (l : Launch), s.launchOf qid.val lseq = some l → recOp l.dw = 1 → l.st ≠ .completing →
    l.items.length < recTotal l.dw → (∀ i ∈ l.items, i.st ≠ .dispatched) → l.idleFrom.toNat + 10000000 ≤ s.now.toNat →
    ∃ t, exec (.priorityRise qid lseq) s = .next t ∧ t = { s with launches := t.launches } ∧
      (∃ m ∈ t.launches, m.q = qid.val ∧ m.lseq = lseq ∧ m.prio = if l.prio < (s.queue qid.val).ceil then l.prio + 1 else l.prio)) ∧
  (∀ (s : State) (qid : QId) (lseq : W32) (l : Launch) (v : CtxId), s.launchOf qid.val lseq = some l →
    ((v.val, qid.val, lseq) ∉ s.swapReq → s.mayswap l = true → s.victimOk l v = true → (∀ r ∈ s.swapReq, r.1 ≠ v.val ∧ r.2 ≠ (qid.val, lseq)) →
      s.pausedAt = none → ∃ t, exec (.slowSwap qid lseq v) s = .next t ∧ (v.val, qid.val, lseq) ∈ t.swapReq ∧ asked s t v) ∧
    (∀ g k w, (v.val, qid.val, lseq) ∈ s.swapReq → s.victimOk l v = true → (s.ctx v).run = .idle → s.dispClk ≠ some s.clk →
      s.nextRestart = none → s.mayDispatch l = true → s.inPlacement v.core = true → s.barredBy l v.core = false → s.fitsOn v l.cv3 = true →
      l.nextGroup v.cluster = some g → l.kernel = some k →
      s.wheelFor l = some w →
      ∃ t, exec (.slowSwap qid lseq v) s = .next t ∧ (t.ctx v).run = .run ∧ (t.ctx v).pc = BitVec.ofNat 48 k.entry ∧
        (∃ j, (t.ctx v).job = some j ∧ j.q = l.q ∧ j.lseq = l.lseq) ∧ tabFind t.swapped v.val = some (s.ctx v) ∧
        ∀ n, n = 4096 * (s.ctx v).heldCv3 → 0 < n → n ≤ 2 ^ 20 → ∃ a, a % 4096 = 0 ∧ a + n ≤ 0x2000000000 ∧
          (∀ b, (b < a ∨ a + n ≤ b) → memGet t.mem b = memGet s.mem b) ∧
          ((∀ r ∈ s.ro, disjoint a n r.base r.len) → memRead t.mem a n = memRead (s.ctx v).pool 0 n)) ∧
    (l.st ≠ .ready ∨ l.hasPending = false ∨ s.victimOk l v = false → ∀ r ∈ s.noteLaunches.swapReq, r ≠ (v.val, qid.val, lseq))) ∧
  (∀ (s : State) (c : CtxId) (live : List Launch) (x : Context) (l : Launch), s.waitsHere c = some x → s.launchFor x = some l →
    ((s.part (s.queue l.q).part).pclu.getLsbD c.cluster = false ∨ s.inPlacement c.core = false ∨ (∃ r ∈ s.swapReq, r.1 = c.val)) →
      s.restartWheel live c = none)

/-- R32, R33, R93, R104, R184, R260, R298, R351, R354, R372, R378: what resume, skip and abort do to the records of engines and, with STATE 3,
of queues: a malformed or refused record, a doorbell out of range and a reset that timed out; a resume is counted after a discard too,
for the item it belongs to, wherever that is (log entry 40; a 0x0601 record behind HEAD: log entry 50); an answer that no record accepts
is counted and changes nothing else. -/
def Obligations.AnswersAct : Prop :=
  ∀ (s : State) (qid : QId) (q : Nat) (rseq : W32), q = qid.val → s.phaseDev ≠ 3 →
    (∀ e, s.faults.find? (fun e => e.q == q && e.rseq == some rseq && !e.dead) = some e →
      let rest := s.faults.filter (· != e)
      (∀ c : CtxId, e.src = .ctx c.val → e.r.state = 0 →
        (e.r.eng = 0 → (s.ctx c).run = .halt → (s.ctx c).pend = false → (s.ctx c).seqLate = [] →
          (∃ t, exec (.answerResume qid rseq) s = .next t ∧ t.faults = rest ∧ (t.ctx c).run = .run ∧ (t.ctx c).pc = (s.ctx c).pc ∧
            (t.ctx c).rcnt = satInc (s.ctx c).rcnt ∧ (t.ctx c).x = (s.ctx c).x ∧ t.mem = s.mem) ∧
          (¬ (e.r.code = 0x0204 ∧ e.r.det0.getLsbD 31 = true) → ∀ w, w = e.r.loc.toNat % 2 ^ 48 →
            ∃ t, exec (.answerSkip qid rseq) s = .next t ∧ t.faults = rest ∧ (t.ctx c).run = .run ∧
              (t.ctx c).pc = BitVec.ofNat 48 (w + if (memGet s.mem w).getLsbD 0 then 8 else 4) ∧ (t.ctx c).x = (s.ctx c).x ∧ t.mem = s.mem)) ∧
        (e.r.eng = 1 → (∃ t, exec (.answerResume qid rseq) s = .next t ∧ (t.ctx c).ex.halted = false ∧ t.mem = s.mem) ∧
          (∃ t, exec (.answerSkip qid rseq) s = .next t ∧ (t.ctx c).ex.halted = false ∧ (t.ctx c).ex.block = none ∧
            (t.ctx c).exq = (s.ctx c).exq.tail ∧ t.mem = s.mem)) ∧
        (e.r.eng = 2 → (∃ t, exec (.answerResume qid rseq) s = .next t ∧ (t.ctx c).mx.halted = false ∧ (t.ctx c).mxq = (s.ctx c).mxq) ∧
          (∃ t, exec (.answerSkip qid rseq) s = .next t ∧ (t.ctx c).mx.halted = false ∧ ∀ u ∈ (t.ctx c).mxq, u.num ≠ e.num)) ∧
        (e.r.eng = 3 → (∀ r ∈ (s.ctx c).cp.runs, r.late = none) →
          (∃ t, exec (.answerResume qid rseq) s = .next t ∧ (t.ctx c).cp.halted = false ∧ (t.ctx c).cpq = (s.ctx c).cpq) ∧
          (∃ t, exec (.answerSkip qid rseq) s = .next t ∧ (t.ctx c).cp.halted = false ∧ ∀ u ∈ (t.ctx c).cpq, u.num ≠ e.num)) ∧
        (e.r.eng = 5 → (∃ t, exec (.answerResume qid rseq) s = .next t ∧ (t.ctx c).alHalted = false ∧ (t.ctx c).alq = (s.ctx c).alq) ∧
          (∃ t, exec (.answerSkip qid rseq) s = .next t ∧ (t.ctx c).alHalted = false ∧ (t.ctx c).alq = (s.ctx c).alq.tail))) ∧
      (∀ l, (e.r.state = 0 ∨ e.r.state = 1) → s.launchOf q e.r.lseq = some l → l.st ≠ .completing →
        ∃ t, exec (.answerAbort qid rseq) s = .next t ∧ killedIs t q e.r.lseq e.r.code s.now) ∧
      (∀ c : CtxId, e.src = .old c.val → e.r.state = 0 → ∃ t, exec (.answerResume qid rseq) s = .next t ∧ t.faults = rest ∧ t.mem = s.mem ∧
        (∀ d : CtxId, (holdsItem (s.ctx d) q e.r.lseq e.r.wid → t.ctx d = { s.ctx d with rcnt := satInc (s.ctx d).rcnt }) ∧
          (¬ holdsItem (s.ctx d) q e.r.lseq e.r.wid → t.ctx d = s.ctx d)) ∧
        ∀ p ∈ s.swapped, (p.1, if holdsItem p.2 q e.r.lseq e.r.wid then { p.2 with rcnt := satInc p.2.rcnt } else p.2) ∈ t.swapped) ∧
      (e.r.state = 3 →
        let u := s.queue q
        let runsOn (t : State) : Prop :=
          (t.queue q).frozen = true ↔ ∃ f ∈ t.faults, f.q = q ∧ f.r.state = 3
        let headDw := (List.range 16).map fun i => BitVec.ofNat 64 (memNat s.mem (u.base + 128 * (u.head.toNat % u.size) + 8 * i) 8)
        (e.r.code = 0x0801 ∨ e.r.code = 0x0601 → (∀ l ∈ s.launches, ¬ (l.q = q ∧ l.lseq = e.r.lseq)) →
          (∃ t, exec (.answerSkip qid rseq) s = .next t ∧ (t.queue q).head = u.head + 1 ∧ (t.queue q).tail = u.tail ∧ runsOn t ∧
            (t.queue q).coalPending = u.coalPending + 1 ∧
            (recDw headDw 8 % 2 ^ 48 = 0 → recDw headDw 5 % 2 ^ 48 % 32 = 0 → plainRange s (recDw headDw 5 % 2 ^ 48) 32 →
              stored s t (recDw headDw 5 % 2 ^ 48) (signalOf headDw s.now e.r.code)) ∧
            (recDw headDw 8 % 2 ^ 48 = 0 → recDw headDw 5 % 2 ^ 48 % 32 ≠ 0 → t.mem = s.mem)) ∧
          ∃ t, exec (.answerAbort qid rseq) s = .next t ∧ (t.queue q).head = u.tail ∧ (t.queue q).tail = u.tail ∧ runsOn t ∧
            (t.queue q).coalPending = u.coalPending + (u.tail - u.head).toNat) ∧
        (∀ l, e.r.code = 0x0601 → s.launchOf q e.r.lseq = some l →
          (∃ t, exec (.answerSkip qid rseq) s = .next t ∧ (t.queue q).head = u.head ∧ runsOn t ∧
            launchIs t q e.r.lseq fun m => m.st = .completing ∧ m.code = 0x0601 ∧ m.tend = some s.now) ∧
          ∃ t, exec (.answerAbort qid rseq) s = .next t ∧ (t.queue q).head = u.tail ∧ runsOn t) ∧
        (e.r.code = 0x0802 →
          (∃ t, exec (.answerSkip qid rseq) s = .next t ∧ (t.queue q).head = u.head ∧ (t.queue q).tail = u.tail ∧ runsOn t ∧ t.mem = s.mem) ∧
          ∃ t, exec (.answerAbort qid rseq) s = .next t ∧ (t.queue q).head = u.head ∧ (t.queue q).tail = u.head ∧ runsOn t ∧ t.mem = s.mem) ∧
        (e.r.code = 0x0809 →
          (∃ t, exec (.answerSkip qid rseq) s = .next t ∧ (t.queue q).head = u.head ∧ (t.queue q).tail = u.tail ∧ runsOn t ∧ t.mem = s.mem) ∧
          ∃ t, exec (.answerAbort qid rseq) s = .next t ∧ (t.queue q).head = u.tail ∧ (t.queue q).tail = u.tail ∧ runsOn t ∧ t.mem = s.mem))) ∧
    (∀ i a, (i, a) ∈ [(Instr.answerResume qid rseq, Ans.resume), (.answerSkip qid rseq, .skip), (.answerAbort qid rseq, .abort)] →
      (∀ e, s.faults.find? (fun e => e.q == q && e.rseq == some rseq && !e.dead) = some e → ansOk e.r.state a = false) →
      exec i s = .next (s.setQueue q { s.queue q with badans := satInc (s.queue q).badans }))

/-- R374 to R380: the watchdog's steps, QKILL, the reset of a partition and its timeout, and the self-test slots. The count and TIME of the
records follow log entry 59, LSEQ of 0x0809 log entry 58, one drain for each kill log entry 60, what is reset at completion log entry 68. -/
def Obligations.KillsResetsAndSelfTests : Prop :=
  (∀ (s : State) (qid : QId) (lseq : W32) (l : Launch) (t0 : W64), s.launchOf qid.val lseq = some l →
    (stepIsDue s l 0 (s.queue qid.val).t1 t0 → ∃ t, exec (.watchdogT1 qid lseq) s = .next t ∧ (launchIs t qid.val lseq fun m => m.fired = 1) ∧ t.mem = s.mem ∧
      ∀ i ∈ l.items, i.st = .dispatched → asked s t (ctxOf i.ctx)) ∧
    (stepIsDue s l 1 (s.queue qid.val).t2 t0 → ∃ t e, exec (.watchdogT2 qid lseq) s = .next t ∧
      killedIs t qid.val lseq 0x0807 (t0 + BitVec.ofNat 64 (1000 * (s.queue qid.val).t2)) ∧ e ∈ t.faults ∧ e.q = qid.val ∧
      e.r.code = 0x0807 ∧ e.r.state = 2 ∧ e.r.lseq = lseq ∧ e.r.det1 = t0 ∧ e.r.time = t0 + BitVec.ofNat 64 (1000 * (s.queue qid.val).t2) ∧
      ∃ n, e.r.det0 = BitVec.ofNat 64 ((recTotal l.dw - (l.items.filter fun i => i.st == .ended).length) * 2 ^ 32 + n)) ∧
    (s.phaseDev ≠ 3 → l.st = .running → l.finished = false → ∃ t e, exec (.qkill qid true lseq) s = .next t ∧ killedIs t qid.val lseq 0x0807 s.now ∧
      e ∈ t.faults ∧ e.r.code = 0x0807 ∧ e.r.lseq = lseq) ∧
    (s.phaseDev ≠ 3 → l.st ≠ .running → l.st ≠ .completing → l.finished = false → ∃ t, exec (.qkill qid true lseq) s = .next t ∧
      killedIs t qid.val lseq 0x0807 s.now) ∧
    exec (.qkill qid false lseq) s = .next s) ∧
  (∀ (s : State) (pid : PartId) (p : Nat) (u : Part), p = pid.val → u = s.part p →
    (∀ d, u.drains.find? (fun d => decide (d.due.toNat ≤ s.now.toNat)) = some d →
      ∃ t, exec (.partitionReset pid) s = .next t ∧ (∀ g ∈ d.cores, (t.core g).fenced = true) ∧
        (t.part p).drains = u.drains.erase d ∧ (t.part p).resetting = some (u.resetting.getD s.now) ∧
        (∀ l ∈ s.launches, l.st = .running → l.finished = false → (s.queue l.q).part = p → killedIs t l.q l.lseq 0x0808 d.due) ∧
        ∃ e ∈ t.faults, e.q = d.q ∧ e.r.code = 0x0808 ∧ e.r.state = 2 ∧ e.r.lseq = d.lseq ∧ e.r.time = d.due) ∧
    (∀ t0, u.resetting = some t0 → (∀ v ∈ s.pausedAt, t0.toNat < v.toNat) →
      ∃ t, exec (.partitionResetComplete pid) s = .next t ∧ (t.part p).resetting = none ∧ t.mem = s.mem ∧
        (∀ c : CtxId, u.pclu.getLsbD c.cluster = true → (t.ctx c).job = none ∧ (t.ctx c).pool = [] ∧ (t.ctx c).wheel = [] ∧
          (∀ n, semOf (t.ctx c) n = 0) ∧ (∀ b ∈ (t.ctx c).banks, b.sel.valid0 = 0 ∧ b.sel.valid1 = 0) ∧ ∀ b ∈ (t.ctx c).tables, b.valid = 0) ∧
        ∀ c : CtxId, u.pclu.getLsbD c.cluster = false → t.ctx c = s.ctx c) ∧
    (∀ t0, u.resetting = some t0 → u.timedOut = false → t0.toNat + 1000000 ≤ s.now.toNat →
      ∃ t, exec (.resetTimeout pid) s = .next t ∧ (t.part p).timedOut = true ∧
        (∀ q < 64, (s.queue q).part = p → (t.queue q).frozen = true ∧ schedRecorded s t q 0x0809 3 (s.queue q).head 0 ∧
          ∀ l ∈ s.launches, l.q = q → l.st ≠ .completing → killedIs t q l.lseq 0x0809 s.now))) ∧
  (∀ (s : State) (g : CoreId),
    (∀ f : BitVec 4, s.slotReady g.val = true →
      (f &&& (s.core g.val).slv = 0 → ∃ t, exec (.selfTestSlot g f) s = .next t ∧ t.core g.val = { s.core g.val with
        lastTest := s.now, stopped := false, testDue := false, pass := satInc (s.core g.val).pass, fenced := false }) ∧
      (f &&& (s.core g.val).slv ≠ 0 → ∃ t, exec (.selfTestSlot g f) s = .next t ∧ t.sint.getLsbD 6 = true ∧ t.core g.val = { s.core g.val with
        lastTest := s.now, stopped := false, testDue := false, fail := satInc (s.core g.val).fail,
        newSlv := some (((s.core g.val).newSlv.getD (s.core g.val).slv) &&& ~~~(f &&& (s.core g.val).slv)) })) ∧
    ((s.core g.val).lastTest.toNat + 90000000 ≤ s.now.toNat →
      exec (.selfTestDispatchStop g) s = .next (s.setCore g.val { s.core g.val with stopped := true })) ∧
    ((s.core g.val).lastTest.toNat + 100000000 ≤ s.now.toNat → (s.core g.val).testDue = false → (s.core g.val).retired = false →
      ∃ t, exec (.selfTestOverdue g) s = .next t ∧ (t.core g.val).testDue = true ∧ asked s t (ctxOf (2 * g.val)) ∧
        asked s t (ctxOf (2 * g.val + 1))))

namespace Sys2Proof.Claims

/-! ## Time, bring-up and service -/

/-- A unit of a core as its number and the place of its window count (R393). -/
def coreUnit (u : ErrUnit) : Option (CoreId × Nat) :=
  match u with
  | .slice g k => some (g, k.val)
  | .exCore g => some (g, 4)
  | .sequencer g => some (g, 5)
  | .pool g => some (g, 6)
  | .channel _ => none
  | .dualMatch => none
/-- The corrected errors of a unit of a core in (now − 1 s, now] (R393). -/
def windowOf (s : State) (g : CoreId) (i : Nat) : Nat :=
  ((s.core g.val).errs.filter fun e => e.1 == i && decide (s.now.toNat < e.2.toNat + 1000000000)).length
/-- A firmware copy passes the checks of R389: its signature, with the key of slot 0, which is not revoked (R387), and its version. -/
abbrev copyOk (s : State) (i : FwImage) : Prop :=
  (Config.fuseSlot 0).1 = sm3 i.key ∧ (Config.fuseSlot 0).2 = false ∧ sm2Verify i.key i.image i.sig = true ∧
    (s.minVer.getD Config.fuseMinVer).toNat ≤ i.ver.toNat
/-- A map of 2 MiB units as the host access map holds it (R384). -/
def mapIs (t : State) (map : List (Nat × BitVec 2)) : Prop :=
  (∀ n v, (n, v) ∈ map → (∀ w, (n, w) ∈ map → w = v) → tabGet 0 t.hostMap n = v) ∧
    ∀ n, (∀ v, (n, v) ∉ map) → tabGet 0 t.hostMap n = 0
/-- A lasting fault that cannot be corrected in place has ended the item of context `c` (R394). -/
def itemLost (t : State) (c : CtxId) : Prop :=
  (t.ctx c).run = .done ∧ ∃ e ∈ t.faults, e.src = .ctx c.val ∧ e.r.code = 0x0901 ∧ e.r.eng = 9 ∧ e.r.state = 2 ∧ e.r.core = c.core ∧
    e.r.ctx = c.bg
/-- The sections of a summary: type, entries and bytes; of section 5, which the spec gives no form, `v` (R383, log entry 44). -/
def sections (s : State) (v : Nat × List Byte) : List (Nat × Nat × List Byte) :=
  let queues := (List.range 64).flatMap fun q =>
    let u := s.queue q
    [u.qcfg.toNat, u.qring.toNat, u.head.toNat * 2 ^ 32 + u.tail.toNat, u.qwda.toNat, u.qwdb.toNat, u.qxring.toNat, u.xhead.toNat,
      (s.launches.filter fun l => l.q == q).length].flatMap (leBytes 8)
  let leases := s.launches.flatMap fun l => l.leases.map fun e =>
    [e.base, e.w.toNat * 2 ^ 33 + e.rd.toNat * 2 ^ 32 + e.npage, l.q, l.lseq.toNat].flatMap (leBytes 8)
  let units := ((List.range 192).filter fun g => (s.core g).retired).map (2 ^ 56 + ·) ++
    ((List.range 768).filter fun k => !(s.core (k / 4)).slv.getLsbD (k % 4)).map (2 ^ 57 + ·) ++
    ((List.range 16).filter fun c => (s.channel c).ret).map (3 * 2 ^ 56 + ·)
  let faults := s.faults.filterMap fun e => e.rseq.map fun r => faultBytes e.q e.r r
  [(1, 64, queues), (2, leases.length, leases.flatten), (3, units.length, units.flatMap (leBytes 8)), (4, faults.length, faults.flatten),
    (5, v.1, v.2)]
/-- Where section `k` lies: behind the header, the directory and the sections before it. -/
def sectionAt (l : List (Nat × Nat × List Byte)) (k : Nat) : Nat := 0x40 + 16 * l.length + ((l.take k).map fun e => e.2.2.length).sum
/-- The magnitude of an offset in units of 16 ns, at most 255 (R18). -/
def offsOf (o : Int) : BitVec 8 := BitVec.ofNat 8 (Nat.min (o.natAbs / 16) 255)

end Sys2Proof.Claims

/-- R15 to R18: the first lock steps device time forward or slows it; a Sync later steps it forward past 1 ms of lag and never back;
holdover keeps the rate; a 4-byte read of TBNOW latches the high half. -/
def Obligations.DeviceTimeFollowsGptp : Prop :=
  ∀ s : State,
    (∀ (port : BitVec 3) (v : W64) (o : Int), s.everLocked = false → o = (v.toNat : Int) - s.now.toNat →
      ∃ t, exec (.gptpFirstLock port v) s = .next t ∧ t.lock = true ∧ t.hold = false ∧ t.everLocked = true ∧ t.tbPort = port ∧
        t.offs = offsOf o ∧ t.mem = s.mem ∧ t.ctxs = s.ctxs ∧
        t.timeU = s.timeU ∧ (0 < o → t.timeStep = some v ∧ t.steps = satInc s.steps ∧ t.stepped = true) ∧
        (o ≤ 0 → t.timeStep = s.timeStep ∧ t.steps = s.steps ∧ t.stepped = s.stepped ∧ (o < -100 → t.ppm < 0))) ∧
    (∀ (port : BitVec 3) (v : W64) (ppm o : Int), s.everLocked = true → o = (v.toNat : Int) - s.now.toNat →
      ∃ t, exec (.gptpSync ⟨port, v⟩ ppm) s = .next t ∧ t.lock = true ∧ t.hold = false ∧ t.tbPort = port ∧ t.offs = offsOf o ∧
        t.mem = s.mem ∧ t.ctxs = s.ctxs ∧ t.timeU = s.timeU ∧
        (1000000 < o → t.timeStep = some v ∧ t.steps = satInc s.steps ∧ t.stepped = true) ∧
        (o ≤ 1000000 → t.timeStep = s.timeStep ∧ t.steps = s.steps ∧ t.stepped = s.stepped) ∧
        (o < -100 → t.ppm < 0) ∧ (-100 ≤ o → t.ppm = ppm)) ∧
    (∀ v : W64, s.timeStep = some v → v.toNat ≤ s.advanceClock.timeU / 6000000 ∧ s.timeU + s.timeGain ≤ s.advanceClock.timeU ∧
      (s.advanceClock.timeU = v.toNat * 6000000 ∨ s.advanceClock.timeU = s.timeU + s.timeGain) ∧ s.advanceClock.timeStep = none) ∧
    (s.timeStep = none → s.advanceClock.timeU = s.timeU + s.timeGain) ∧
    (s.lock = true → exec .holdoverEntry s = .next { s with lock := false, hold := true }) ∧
    (s.phaseDev = 3 → ∀ r, exec (.tbnowLowRead r) s = .next (s.send .unsupported)) ∧
    (∀ r : Nat, s.phaseDev ≠ 3 → ∃ t, exec (.tbnowLowRead r) s = .next t ∧ t.out = s.out ++ [.barData (leBytes 4 (s.now.toNat % 2 ^ 32))] ∧
      tabGet 0 t.latches r = s.now.extractLsb' 32 32 ∧ t = { s with latches := t.latches, out := t.out })

/-- R4, R387, R389, R392: a device reset gives every part its reset value, but none to the temperature and margins measured, and boots the
first firmware copy that passes, or stops in recovery; reduced and full service follow; the host access map comes with the firmware that
boots, and again at full service. Memory is empty after a reset (log entry 1), TJ, MARGIN and MIN stay and LIMIT is reset (log entries 5,
6), and the map is an operand (log entry 62). -/
def Obligations.ResetBootsAndBringsUp : Prop :=
  ∀ s : State,
    (∀ i j : FwImage, ∃ t, exec (.deviceReset i j) s = .next t ∧ t.mem = [] ∧ t.ctxs = [] ∧ t.timeU = 0 ∧ t.hold = true ∧ t.lock = false ∧
      t.queues = [] ∧ t.launches = [] ∧ t.faults = [] ∧ t.streams = [] ∧ t.rules = [] ∧ t.almanac = [] ∧ t.cores = [] ∧ t.links = [] ∧
      t.mxcap = 0xFF ∧ t.sint = 0 ∧ t.rsvw = 0 ∧ t.minVer = s.minVer ∧ t.tj = s.tj ∧
      (∀ cl, (∃ a, (cl, a) ∈ s.ages) → (t.age cl).margin = (s.age cl).margin ∧ (t.age cl).min = (s.age cl).min ∧ (t.age cl).limit = Age.reset.limit) ∧
      (copyOk s i → t.boot = 1 ∧ t.phaseDev = 0 ∧ t.imgver = i.ver ∧ t.tsver = i.tsver ∧ t.fwdig = sm3 i.image ∧ mapIs t i.map) ∧
      (¬ copyOk s i → copyOk s j → t.boot = 2 ∧ t.phaseDev = 0 ∧ t.imgver = j.ver ∧ t.tsver = j.tsver ∧ t.fwdig = sm3 j.image ∧ mapIs t j.map) ∧
      (¬ copyOk s i → ¬ copyOk s j → t.boot = 7 ∧ t.phaseDev = 3)) ∧
    (s.phaseDev = 0 → s.boot ≠ 7 → ∃ t, exec .reducedService s = .next t ∧ t.hostMap = s.hostMap ∧ t.phaseDev = 1 ∧ t.mxcapNow = 0 ∧ t.clkStep = 0 ∧ t.mem = s.mem ∧
      ∀ p < 8, (t.part p).clust = if p = 0 then 1 else 0) ∧
    (∀ (v : Byte) (map : List (Nat × BitVec 2)), s.phaseDev = 1 → ∃ t, exec (.fullService ⟨v, map⟩) s = .next t ∧ mapIs t map ∧ t.phaseDev = 2 ∧ t.mxcapNow = v ∧ t.mem = s.mem ∧ t.parts = s.parts)

/-- R71, R393 to R396: a corrected error is counted against its unit, a dual match in DUAL; the fourth in a second retires a slice at the
next command boundary, takes a core out of placement or remaps a channel, behind another's remap too; the items whose fault cannot be
corrected in place end with 0x0901; an evacuated item restarts in a free context of its class (log entry 66); a remap ends, with RET set
then (log entry 64). -/
def Obligations.LastingFaultsRetireUnits : Prop :=
  ∀ s : State,
    (∀ (u : ErrUnit) (g : CoreId) (i : Nat) (fits : Bool) (lost : List CtxId), coreUnit u = some (g, i) → (s.core g.val).winMax.getD i 0 < 4 →
      ∃ t, exec (.softErrorCorrected u ⟨fits, lost⟩) s = .next t ∧ (t.core g.val).total = satInc (s.core g.val).total ∧ t.mem = s.mem ∧
        (windowOf s g i < 3 → t = s.setCore g.val (t.core g.val) ∧ (t.core g.val).newSlv = (s.core g.val).newSlv ∧
          (t.core g.val).retired = (s.core g.val).retired ∧ windowOf t g i = windowOf s g i + 1) ∧
        (3 ≤ windowOf s g i → 4 ≤ (t.core g.val).winMax.getD i 0 ∧
          (∀ k, u = .slice g k → (t.core g.val).slv = (s.core g.val).slv ∧
            (t.core g.val).newSlv = some ((s.core g.val).newSlv.getD (s.core g.val).slv &&& ~~~(1#4 <<< k.val))) ∧
          (∀ c ∈ lost, c.core = g.val → (s.ctx c).holds = true → itemLost t c) ∧
          (4 ≤ i → (t.core g.val).retired = true ∧ t.sint.getLsbD 3 = true ∧
            ∀ c : CtxId, c.core = g.val → c ∉ lost → asked s t c))) ∧
    (∀ (ch : Fin 16) (fits : Bool) (lost : List CtxId), (s.channel ch.val).winMax < 4 →
      ∃ t, exec (.softErrorCorrected (.channel ch) ⟨fits, lost⟩) s = .next t ∧ (t.channel ch.val).total = satInc (s.channel ch.val).total ∧
        t.mem = s.mem ∧ ∀ n, n = ((s.channel ch.val).errs.filter fun v => decide (s.now.toNat < v.toNat + 1000000000)).length →
        (n < 3 → t.remap = s.remap ∧ t.sint = s.sint ∧ t.faults = s.faults) ∧
        (3 ≤ n → (∀ c ∈ lost, (s.ctx c).holds = true → itemLost t c) ∧
          ((s.remap = [] ∧ ∀ p ∈ s.channels, p.2.ret = false) ∨ fits = true → t.remap = s.remap ++ [ch.val]) ∧
          (s.remap ≠ [] ∨ (∃ p ∈ s.channels, p.2.ret = true) → fits = false → t.remap = s.remap ∧ t.sint.getLsbD 3 = true))) ∧
    (∀ fits lost, exec (.softErrorCorrected .dualMatch ⟨fits, lost⟩) s = .next { s with dual := satInc s.dual }) ∧
    (∀ (c d : CtxId) (x : Context), s.waitsHere c = some x → (s.core c.core).retired = true → s.freeCtx d = true →
      (∀ p ∈ s.swapped, p.1 ≠ d.val) → s.inPlacement d.core = true → c.cluster = d.cluster → c.bg = d.bg → s.fitsOn d x.heldCv3 = true →
      ∃ t, exec (.coreEvacuation c d) s = .next t ∧ t.ctx d = x ∧ (t.ctx c).holds = false ∧ t.mem = s.mem) ∧
    (∀ ch : Fin 16, ch.val ∈ s.remap → ∃ t, exec (.channelRemapDone ch) s = .next t ∧ t.remap = s.remap.filter (fun c => decide (c ≠ ch.val)) ∧ (t.channel ch.val).ret = true ∧
      t.sint.getLsbD 3 = true ∧ t.mem = s.mem)

/-- R396, R397: a measurement below 110 °C leaves the second below it to run, one from there to 120 °C ends it; at 120 °C relief lowers MXCAP from class 3 downward, one plane a step (the model's step, log entry 57), then the clock;
below 110 °C for 1 s it restores the clock, no further than the step written, before planes; a clock step takes effect at a peal
boundary; a margin that falls below LIMIT sets AGE, the first one too (log entry 88). -/
def Obligations.ThermalReliefAndAgeing : Prop :=
  ∀ s : State,
    (∀ tj : Byte, tj.toNat < 174 → exec (.thermalRelief tj) s = .next { s with tj := tj }) ∧
    (∀ tj : Byte, 174 ≤ tj.toNat → tj.toNat < 184 → exec (.thermalRelief tj) s = .next { s with tj := tj, coolFrom := none }) ∧
    (∀ tj : Byte, 184 ≤ tj.toNat → s.mxcapNow ≠ 0 →
      ∃ t i, exec (.thermalRelief tj) s = .next t ∧ t.tj = tj ∧ t.sint.getLsbD 4 = true ∧ t.relief = true ∧ t.clkStepNew = s.clkStepNew ∧
        i < 4 ∧ s.mxcapNow.toNat / 4 ^ i % 4 ≠ 0 ∧ (∀ j < 4, i < j → s.mxcapNow.toNat / 4 ^ j % 4 = 0) ∧
        t.mxcapNow.toNat + 4 ^ i = s.mxcapNow.toNat) ∧
    (∀ tj : Byte, 184 < tj.toNat → s.mxcapNow = 0 → s.clkStepNew.getD s.clkStep ≠ 3 →
      ∃ t, exec (.thermalRelief tj) s = .next t ∧ t.tj = tj ∧ t.sint.getLsbD 4 = true ∧ t.relief = true ∧ t.mxcapNow = 0 ∧
        t.clkStepNew = some (s.clkStepNew.getD s.clkStep + 1)) ∧
    (∀ tj : Byte, 174 ≤ tj.toNat → exec (.thermalRestore tj) s = .next { s with tj := tj, coolFrom := none }) ∧
    (∀ tj : Byte, tj.toNat < 174 → (s.relief = false ∨ s.now.toNat < (s.coolFrom.getD s.now).toNat + 1000000000) →
      exec (.thermalRestore tj) s = .next { s with tj := tj, coolFrom := some (s.coolFrom.getD s.now) }) ∧
    (∀ (tj : Byte) (v : W64), tj.toNat < 174 → s.coolFrom = some v → v.toNat + 1000000000 ≤ s.now.toNat → s.relief = true →
      (s.clkStepCfg.toNat < (s.clkStepNew.getD s.clkStep).toNat → ∃ t, exec (.thermalRestore tj) s = .next t ∧ t.sint.getLsbD 4 = true ∧
        t.clkStepNew = some (s.clkStepNew.getD s.clkStep - 1) ∧ t.mxcapNow = s.mxcapNow) ∧
      (∀ i < 4, (s.clkStepNew.getD s.clkStep).toNat ≤ s.clkStepCfg.toNat → s.mxcapNow.toNat / 4 ^ i % 4 < s.mxcapCfg.toNat / 4 ^ i % 4 →
        (∀ j < i, s.mxcapCfg.toNat / 4 ^ j % 4 ≤ s.mxcapNow.toNat / 4 ^ j % 4) →
        ∃ t, exec (.thermalRestore tj) s = .next t ∧ t.sint.getLsbD 4 = true ∧ t.mxcapNow.toNat = s.mxcapNow.toNat + 4 ^ i)) ∧
    (∀ v, s.clkStepNew = some v → exec .clockStepChange s =
      .next (if s.clk % 512 = 0 then { s with clkStep := v, clkStepNew := none } else s)) ∧
    (∀ (cl : Fin 12) (m : BitVec 16), ∃ t, exec (.ageLimit cl m) s = .next t ∧ (t.age cl.val).margin = m ∧ t.mem = s.mem ∧
      (t.age cl.val).fresh = false ∧ (t.age cl.val).limit = (s.age cl.val).limit ∧
      (t.age cl.val).min = (if (s.age cl.val).fresh = true ∨ m.toInt < (s.age cl.val).min.toInt then m else (s.age cl.val).min) ∧
      (m.toInt < (s.age cl.val).limit.toInt → (s.age cl.val).fresh = true ∨ (s.age cl.val).limit.toInt ≤ (s.age cl.val).margin.toInt →
        t.sint.getLsbD 5 = true) ∧
      ((s.age cl.val).limit.toInt ≤ m.toInt ∨ ((s.age cl.val).fresh = false ∧ (s.age cl.val).margin.toInt < (s.age cl.val).limit.toInt) →
        t.sint = s.sint))

/-- R381 to R383, R387, R389, R391: firmware's commands. A live update verifies (SBY after a failure: log entry 61), takes over and may
raise the fuse minimum; a resynchronisation writes its summary, every section with its bytes (log entry 44), or, where that does not fit,
its header only; a refused command only sets CMDST; in recovery neither responds; a report is signed over its fields and the digests of
the image and of sections 1 and 3 (SM2 and SM3: log entry 8). -/
def Obligations.FirmwareCommandsAct : Prop :=
  ∀ s : State,
    (∀ cmd : BitVec 3, s.phaseDev ≠ 3 → s.cmdst = 1 ∨ (cmd ≠ 1 ∧ cmd ≠ 2) → exec (.fwcmdRefused cmd) s = .next { s with cmdst := 3 }) ∧
    (s.phaseDev = 3 → exec .resynchronisation s = .next s ∧ ∀ cmd, exec (.fwcmdRefused cmd) s = .next s) ∧
    (∀ (img : FwImage) (can : Bool), (s.cmdst = 1 → s.sby = 1) →
      (copyOk s img ∧ can = true → exec (.liveUpdate img can) s = .next { s with cmdst := 1, sby := 2, newImg := some img }) ∧
      (¬ (copyOk s img ∧ can = true) → exec (.liveUpdate img can) s = .next { s with cmdst := 3, sby := 4 })) ∧
    (∀ img, s.newImg = some img → s.sby = 2 → exec .standbyTakeover s = .next { s with sby := 3, pausedAt := some s.now }) ∧
    (∀ img, s.newImg = some img → s.sby = 3 → s.fwQuiet = true → ∃ t, exec .standbyTakeover s = .next t ∧ t.act = !s.act ∧ t.sby = 0 ∧
      t.cmdst = 2 ∧ t.imgver = img.ver ∧ t.tsver = img.tsver ∧ t.fwdig = sm3 img.image ∧ t.pausedAt = none ∧ t.mem = s.mem ∧
      t.launches = s.launches ∧ (img.raiseMin = false → t.minVer = s.minVer) ∧
      (img.raiseMin = true → t.minVer.map BitVec.toNat = some (Nat.max (s.minVer.getD Config.fuseMinVer).toNat img.ver.toNat))) ∧
    (∀ a : Nat, s.phaseDev ≠ 3 → s.cmdst ≠ 1 → a = s.fwbufA.toNat → plainRange s a (4096 * s.fwbufN.toNat) → 1 ≤ s.fwbufN.toNat →
      ∃ t v, exec .resynchronisation s = .next t ∧
        let l := sections s v
        let len := sectionAt l 5
        memNat t.mem a 8 = (2 ^ 48 + 5 * 2 ^ 32 + len) % 2 ^ 64 ∧ memNat t.mem (a + 8) 8 = s.now.toNat ∧
        memNat t.mem (a + 16) 8 = s.imgver.toNat * 2 ^ 32 + s.tsver.toNat * 2 ^ 16 ∧ (∀ i < 40, memGet t.mem (a + 24 + i) = 0) ∧
        (4096 * s.fwbufN.toNat < len → t.cmdst = 3 ∧ ∀ b, (b < a ∨ a + 64 ≤ b) → memGet t.mem b = memGet s.mem b) ∧
        (len ≤ 4096 * s.fwbufN.toNat → t.cmdst = 2 ∧ (∀ b, (b < a ∨ a + len ≤ b) → memGet t.mem b = memGet s.mem b) ∧
          ∀ k < 5, ∀ e, l[k]? = some e → memNat t.mem (a + 0x40 + 16 * k) 8 = (e.1 * 2 ^ 56 + e.2.1 * 2 ^ 32 + sectionAt l k) % 2 ^ 64 ∧
            memNat t.mem (a + 0x48 + 16 * k) 8 = 0 ∧ memRead t.mem (a + sectionAt l k) e.2.2.length = e.2.2)) ∧
    (s.phaseDev ≠ 3 → s.cmdst = 1 → exec .resynchronisation s = .next { s with cmdst := 3 }) ∧
    (∀ nonce : List Byte, nonce.length = 32 → ∀ v,
      ∃ t r, exec (.attest nonce) s = .next t ∧ t.mem = s.mem ∧
        t.out = s.out ++ [.usb (r ++ sm2Sign Config.idPrivate (Config.signRandom s.free) r)] ∧
        r = leBytes 8 (2 ^ 40 + 1) ++ leBytes 8 Config.fuseDevId.toNat ++ sm2Public Config.idPrivate ++ leBytes 8 s.now.toNat ++
          leBytes 8 (s.tsver.toNat * 2 ^ 32 + s.imgver.toNat) ++ nonce ++ s.fwdig ++
          sm3 (((sections s v)[0]?.elim [] fun e => e.2.2) ++ ((sections s v)[2]?.elim [] fun e => e.2.2)))

namespace Sys2Proof.Claims

/-! ## Registers and the host -/

/-- Registers of BAR0 with what they read as, for a queue, a stream, a fuse rule, a link port, a core and a cluster (R18, R266, R277,
R333, R352, R355, R381, R386, R396). -/
def regRows (s : State) (q : QId) (i : Fin 128) (r : Fin 64) (p : Fin 2) (g : CoreId) (c : Fin 12) : List (Nat × Nat) :=
  let u := s.queue q.val
  let v := s.stream i.val
  let f := s.rule r.val
  let l := s.link p.val
  [(0x00000, s.now.toNat), (0x00008, s.lock.toNat + 2 * s.hold.toNat + 4 * s.stepped.toNat + 8 * s.tbPort.toNat +
      2 ^ 8 * s.offs.toNat + 2 ^ 16 * s.steps.toNat),
    (0x10000 + 0x100 * q.val, u.qcfg.toNat), (0x10018 + 0x100 * q.val, 2 ^ 32 * u.head.toNat + u.tail.toNat),
    (0x10038 + 0x100 * q.val, u.xhead.toNat), (0x10010 + 0x100 * q.val, 0), (0x10050 + 0x100 * q.val, u.qint.toNat),
    (0x15000, s.imgver.toNat + 2 ^ 32 * s.tsver.toNat + 2 ^ 48 * s.cmdst.toNat + 2 ^ 56 * s.sby.toNat + 2 ^ 63 * s.act.toNat),
    (0x20000, s.mxcapNow.toNat),
    (0x20100 + 8 * g.val, (s.core g.val).slv.toNat + 2 ^ 8 * (s.core g.val).crst.toNat + 2 ^ 40 * (s.core g.val).clamp.toNat),
    (0x30000 + 0x40 * i.val, v.sframe.toNat), (0x30008 + 0x40 * i.val, 2 ^ 32 * v.dropc.toNat + v.latec.toNat),
    (0x30018 + 0x40 * i.val, 2 ^ 32 * v.eccc.toNat + v.stray.toNat),
    (0x30028 + 0x40 * i.val, v.cfg.isSome.toNat + 2 * (!v.pending.isEmpty).toNat + 4 * v.openF.isSome.toNat),
    (0x40000, 2 ^ 32 * s.bdrop.toNat + s.bfail.toNat), (0x40108 + 0x20 * r.val, f.dl.toNat), (0x40110 + 0x20 * r.val, f.floor.toNat),
    (0x40118 + 0x20 * r.val, 2 ^ 32 * f.npart.toNat + f.ign.toNat),
    (0x41000 + 0x100 * i.val, (s.alm i.val 0).frame.toNat), (0x41048 + 0x100 * i.val, (s.alm i.val 1).tstart.toNat),
    (0x50000 + 0x100 * p.val, l.up.toNat + 4 * l.down.toNat + 2 ^ 8 * l.lanes.toNat),
    (0x50008 + 0x100 * p.val, 2 ^ 32 * l.retry.toNat + l.crce.toNat), (0x50018 + 0x100 * p.val, l.inj.toNat),
    (0x60000, s.phaseDev.toNat + 16 * s.boot.toNat + 128 * (!s.remap.isEmpty).toNat), (0x60008, 2 ^ 32 * s.rsvw.toNat + s.dual.toNat),
    (0x60010, s.sint.toNat), (0x60018, s.sien.toNat + 2 ^ 32 * s.svec.toNat), (0x60020, s.hwbase.toNat), (0x60028, s.href.toNat),
    (0x60030, s.stageA.toNat + 2 ^ 48 * s.stageN.toNat), (0x70000, (s.clkStepNew.getD s.clkStep).toNat + 2 ^ 16 * s.tj.toNat),
    (0x70900 + 8 * c.val, (s.age c.val).margin.toNat + 2 ^ 16 * (s.age c.val).min.toNat + 2 ^ 32 * (s.age c.val).limit.toNat),
    (0x90000, 0), (0x00010, 0)]
/-- The device address a BAR2 or BAR4 offset names (R384). -/
abbrev barNames (bar : Bar) (off a : Nat) : Prop :=
  bar = .bar2 ∧ off < 0x30000000 ∧ a = 0x10000000000 + off ∨ bar = .bar4 ∧ a = off
/-- The host access map grants a read (false) or a write (true) of every byte of a range (R384). -/
abbrev granted (s : State) (a n : Nat) (wr : Bool) : Prop := ∀ i < n, (tabGet (0 : BitVec 2) s.hostMap ((a + i) / 2 ^ 21)).getLsbD wr.toNat = true

end Sys2Proof.Claims

/-- R3, R5, R18, R353, R355, R384 to R386, R396: what registers read as, at their places in BAR0, by a host read of any requester and by READREG; RO
fields, reserved bits, writes of other than firmware and places no block defines change nothing, the last three counted; SINT keeps
the bits of this clock's events, LIMIT takes any writer's value, and the halves of NOW read as one value; a write of the upper half of QDB
counts where it is reserved; QWDB keeps 1 ≤ T3 and T2 ≤ T3, and with WDEN also 1 ≤ T1 ≤ T2 (the order of the two writes: log entry
45). The function mask is bit 14 of the MSI-X message control word (log entry 23). -/
def Obligations.RegistersReadAndWrite : Prop :=
  ∀ s : State, s.phaseDev ≠ 3 →
    (∀ q i r p g c who, ∀ row ∈ regRows s q i r p g c,
      exec (.hostBarRead .bar0 row.1 ⟨8, who⟩) s = .next (s.send (.barData (leBytes 8 row.2))) ∧
      exec (.readreg (BitVec.ofNat 32 row.1)) s = .next (s.send (.usb (leBytes 8 row.2)))) ∧
    (∀ (fw : Bool) (v : W64),
      exec (.registerWrite fw 0x00000 v) s = .next s ∧
      (v.toNat < 256 → exec (.registerWrite fw 0x60010 v) s =
        .next (if v = 0 then s else { s with sint := s.sint &&& ~~~(v.setWidth 8 &&& ~~~s.sintNow) })) ∧
      (v.toNat < 256 → ∃ t, exec (.registerWrite fw 0x60018 v) s = .next t ∧ t = { s with sien := v.setWidth 8, svec := 0 }) ∧
      (∃ t, exec (.registerWrite fw 0x60018 (v ||| 0x100)) s = .next t ∧ t.rsvw = satInc s.rsvw ∧ t.sien = v.setWidth 8 ∧
        t.svec = v.extractLsb' 32 11 ∧ t.sint = s.sint) ∧
      (v.toNat < 256 → ∃ t, exec (.registerWrite fw 0x20000 v) s = .next t ∧ t.mxcapNow = v.setWidth 8 ∧ t.mxcapCfg = v.setWidth 8 ∧
        t.rsvw = s.rsvw ∧ t.mem = s.mem) ∧
      exec (.registerWrite fw 0x90000 v) s = .next { s with rsvw := satInc s.rsvw } ∧
      (∀ q : QId, v.toNat < 2 ^ 32 → exec (.registerWrite fw (BitVec.ofNat 20 (0x10010 + 0x100 * q.val)) v) s =
        exec (.doorbell q (v.setWidth 32)) s) ∧
      (∀ q : QId, v.toNat < 2 ^ 32 → exec (.registerWrite fw (BitVec.ofNat 20 (0x10038 + 0x100 * q.val)) v) s =
        exec (.xheadWrite q (v.setWidth 32)) s)) ∧
    (∀ v : W64, exec (.registerWrite false 0x60030 v) s = .next s) ∧
    (∀ (fw : Bool) (c : Fin 12) (n : BitVec 16), ∃ t, exec (.registerWrite fw (BitVec.ofNat 20 (0x70900 + 8 * c.val)) (n.setWidth 64 <<< 32)) s = .next t ∧
      t = { s with ages := t.ages } ∧ t.age c.val = { s.age c.val with limit := n } ∧ ∀ d, d ≠ c.val → t.age d = s.age d) ∧
    (∀ who, ∃ t m, exec (.hostBarRead .bar0 0 ⟨4, who⟩) s = .next t ∧ t.out = s.out ++ [.barData (leBytes 4 (s.now.toNat % 2 ^ 32))] ∧
      t = { s with latches := t.latches, out := t.out } ∧
      exec (.hostBarRead .bar0 4 ⟨4, who⟩) t = .next m ∧ m.out = t.out ++ [.barData (leBytes 4 (s.now.toNat / 2 ^ 32))]) ∧
    (∀ who, ∃ t m, exec (.hostBarWrite .msixControl 1 [0x40]) s = .next t ∧ t.msixMask = true ∧ t = { s with msixMask := true } ∧
      exec (.hostBarWrite .msixControl 1 [0]) t = .next m ∧ m.msixMask = false ∧
      (∀ k, Out.msix k ∈ m.out.drop s.out.length ↔ k ∈ s.msixPend ∧ (s.msixCtl k).getLsbD 32 = false) ∧
      exec (.hostBarRead .msixControl 0 ⟨2, who⟩) t = .next (t.send (.barData [0, 0x40]))) ∧
    (∀ (q : QId) (v : W64), v ≠ 0 → v &&& 0x0FF000F8FFFFFF88 = 0 →
      exec (.registerWrite false (BitVec.ofNat 20 (0x10000 + 0x100 * q.val)) v) s = .next { s with rsvw := satInc s.rsvw } ∧
      (bitsOf v.toNat 47 40 ≤ 192 ∧ bitsOf v.toNat 2 0 ≤ bitsOf v.toNat 6 4 →
        exec (.registerWrite true (BitVec.ofNat 20 (0x10000 + 0x100 * q.val)) v) s = .next (s.setQueue q.val { s.queue q.val with qcfg := v })) ∧
      (192 < bitsOf v.toNat 47 40 ∨ bitsOf v.toNat 6 4 < bitsOf v.toNat 2 0 →
        exec (.registerWrite true (BitVec.ofNat 20 (0x10000 + 0x100 * q.val)) v) s = .next s)) ∧
    (∀ (q : QId) (v : W32), let i := Instr.hostBarWrite .bar0 (0x10014 + 0x100 * q.val) (leBytes 4 v.toNat)
      ((s.queue q.val).hostFed = false ∨ v ≠ 0 → exec i s = .next { s with rsvw := satInc s.rsvw }) ∧
      ((s.queue q.val).hostFed = true → v = 0 → exec i s = .next s)) ∧
    (∀ (q : QId) (v : W64), v.toNat < 2 ^ 33 →
      let t1 := bitsOf (s.queue q.val).qwda.toNat 31 0
      let t2 := bitsOf (s.queue q.val).qwda.toNat 63 32
      let t3 := bitsOf v.toNat 31 0
      let good : Prop := 1 ≤ t3 ∧ t2 ≤ t3 ∧ (v.getLsbD 32 = true → 1 ≤ t1 ∧ t1 ≤ t2)
      let i := Instr.registerWrite true (BitVec.ofNat 20 (0x10028 + 0x100 * q.val)) v
      (good → exec i s = .next (s.setQueue q.val { s.queue q.val with qwdb := v })) ∧ (¬ good → exec i s = .next s))

/-- R61, R353, R384, R390: host reads and writes of the granary and of DRAM where the access map grants them; refused ones count; AtomicOps
are not supported; what the USB port answers. -/
def Obligations.HostAndUsbAccess : Prop :=
  ∀ s : State, s.phaseDev ≠ 3 →
    (∀ (bar : Bar) (off a n who : Nat), barNames bar off a → (bar = .bar2 → off + n ≤ 0x30000000) → 0 < n →
      (granted s a n false → exec (.hostBarRead bar off ⟨n, who⟩) s = .next (s.send (.barData (memRead s.mem a n)))) ∧
      (¬ granted s a n false → ∃ t, exec (.hostBarRead bar off ⟨n, who⟩) s = .next t ∧ t.href = satInc s.href ∧ t.sint.getLsbD 7 = true ∧
        t.out.getLast? = some .unsupported ∧ t.mem = s.mem)) ∧
    (∀ (bar : Bar) (off a : Nat) (data : List Byte), barNames bar off a → (bar = .bar2 → off + data.length ≤ 0x30000000) → data ≠ [] →
      (granted s a data.length true → (∀ i < data.length, s.inSlot (a + i) = false ∧ s.inQueue (a + i) = false) →
        ∃ t, exec (.hostBarWrite bar off data) s = .next t ∧ stored s t a data ∧ t = { s with mem := t.mem }) ∧
      (¬ granted s a data.length true → ∃ t, exec (.hostBarWrite bar off data) s = .next t ∧ t.href = satInc s.href ∧
        t.sint.getLsbD 7 = true ∧ t.mem = s.mem)) ∧
    (∀ off n who, 0x30000000 ≤ off → exec (.hostBarRead .bar2 off ⟨n, who⟩) s = .next (s.send (.barData (List.replicate n 0xFF)))) ∧
    (∀ off data, 0x30000000 ≤ off → exec (.hostBarWrite .bar2 off data) s = .next s) ∧
    exec .hostAtomicop s = .next (s.send .unsupported) ∧
    (∀ (page : BitVec 16) (data : List Byte), data.length = 4096 →
      (s.stageN.toNat ≤ page.toNat → exec (.stage page data) s = .next (s.send .usbStall)) ∧
      (page.toNat < s.stageN.toNat → plainRange s (s.stageA.toNat + 4096 * page.toNat) 4096 →
        ∃ t, exec (.stage page data) s = .next t ∧ stored s t (s.stageA.toNat + 4096 * page.toNat) data ∧ t.staged = s.staged + 1)) ∧
    exec .stagestat s = .next (s.send (.usb (leBytes 8 s.staged))) ∧
    (∀ req : Byte, exec (.usbRequestStall req) s = .next (s.send .usbStall))

namespace Sys2Proof.Claims

/-! ## Encoding, steps and reset -/

/-- What the decoder of a stream reads from a word; alignment commands have a decoder of their own (R340). -/
noncomputable def decoded (u : EncUnit) (w : Nat) : Option Instr := if u = .al then decodeAl w else decode u w
/-- Words written out from the spec's encodings, and what they stand for. -/
def sampleWords : List (EncUnit × Nat × Instr) :=
  [(.sq32, 0x000A41C0, .add 3 4 5), (.sq32, 0x0516A4C0, .div 9 10 11), (.sq32, 0x0008318E, .shlImm 3 3 4),
    (.sq32, 0x12345114, .lup 2 0x12345), (.sq32, 0x000400AC, .jmp 1 0x40), (.sq32, 0xFFFA02A2, .brNe 5 0 (-3)),
    (.sq32, 0x00001036, .tret), (.sq32, 0x00002036, .region), (.sq32, 0x00003036, .done), (.sq32, 0x00070036, .trap 7),
    (.sq32, 0x014061B8, .semwait 3 6), (.sq32, 0x01D6A038, .launch 10 11),
    (.sq64, 0x12345678000004A1, .li 9 0x12345678), (.slotA, 0, .exNop), (.slotD, 0, .exNop), (.ln, 0, .lnNop)]
/-- The turn of the sequencer in focus is next in the default round, it may take it, and nothing comes before its instruction: no
region-length fault (R97) and no interrupt (R100) is due. -/
abbrev turnOpen (s : State) : Prop :=
  s.agenda = [] ∧ (s.phase = 0 ∧ s.sqPlace s.focus = 2 ∨ s.phase = 3) ∧ s.mayAct (.sq s.focus) (s.sqPlace s.focus) = true ∧
    s.serves s.focus = true ∧ (cur s).regionOver = false ∧ s.timerDue (cur s) = false ∧ s.feedbackDue (cur s) = false ∧
    ((cur s).run = .run ∨ (cur s).run = .stall)

/-- Device time runs within 500 ppm of its nominal rate (R16), and has not wrapped (R15). -/
abbrev timeSound (s : State) : Prop := -500 ≤ s.ppm ∧ s.ppm ≤ 500 ∧ s.timeU / 6000000 < 2 ^ 64

end Sys2Proof.Claims

/-- R105 to R113, R173 to R178, R234, R235, R268, R269, R319, R340: every well-formed instruction is what the decoder of its stream reads
from its encoding. -/
def Sys2Proof.Claims.DecodeOfEncodeIsTheInstruction : Prop :=
  ∀ (i : Instr) (u : EncUnit) (w : Nat), i.wf = true → encode i = some (u, w) → decoded u w = some i

/-- R105 to R113, R173, R319: words written out from the encodings decode to the instructions they stand for. -/
def Obligations.SampleWordsDecode : Prop := ∀ p ∈ sampleWords, decode p.1 p.2.1 = some p.2.2

/-- What a word of a stream decodes to is well formed and encodes to the word again: no bit of a word is ignored, so a reserved or unused
bit that is not zero is refused (R114, R179, R259, R296, R329, R350). -/
def Sys2Proof.Claims.DecodedWordsEncodeBack : Prop :=
  (∀ (u : EncUnit) (w : Nat) (i : Instr), u ≠ .al → decode u w = some i →
    i.wf = true ∧ (encode i = some (u, w) ∨ i = .exNop ∧ w = 0 ∧ (u = .slotB ∨ u = .slotC ∨ u = .slotD))) ∧
  ∀ (w : Nat) (i : Instr), w < 2 ^ 128 → decodeAl w = some i → i.wf = true ∧ encode i = some (.al, w)

/-- R105 to R113, R173 to R179, R234, R235, R268, R269, R319, R340: decoding and encoding agree in both directions. -/
def Obligations.DecodeAndEncodeAgree : Prop :=
  Claims.DecodeOfEncodeIsTheInstruction ∧ Claims.DecodedWordsEncodeBack

/-- The state in which the sequencer in focus runs its instruction: the round goes on behind it, and the turn is noted. -/
abbrev inTurn (s : State) : State := ({ s with phase := s.phase + 1 }).noteActed (.sq s.focus) (s.sqPlace s.focus)

/-- R89, R105, R119, R144: when the bytes at the pc of the context in focus decode to an instruction inside the sequencer section, and
nothing comes before it, a step runs it, and bytes that decode to none fault; an event of the agenda is run as it stands, or at its part's
place in the clock if the order of the clock lets it (log entry 3), where no wait on a semaphore goes before one that R144 grants first;
and the clock goes on by one. -/
def Obligations.StepRunsTheDecodedInstruction : Prop :=
  ∀ s : State,
    (∀ (i : Instr) (n : Nat), turnOpen s → (cur s).pc.toNat % 4 = 0 →
      decodeSeqBytes (memRead s.mem (cur s).pc.toNat 8) = some (i, n) → (cur s).inCode (cur s).pc.toNat n = true →
      step s = (inTurn s).onFocus s.focus (exec i)) ∧
    (∀ a k, s.acted = [] → s.outranked a = false → s.mayAct a k = true) ∧
    (∀ a k, (∀ c, a ≠ .sq c ∨ s.sqSem c = none) → (∀ c, a ≠ .ex c ∨ s.exSem c = none) → s.acted = [] → s.mayAct a k = true) ∧
    (∀ (c : CtxId) (n : BitVec 4), s.sqSem c = some n ∨ s.exSem c = some n →
      (∀ (e : MxEntry) (i : Instr) (t : State), s.serves c = true → (s.ctx c).mxHead = some e → decode .mx e.w.toNat = some i →
        exec i { s with focus := c } = .next t → semOf (t.ctx c) n < semOf (s.ctx c) n →
        (s.sqSem c = some n → ∀ k, s.mayAct (.sq c) k = false) ∧ (s.exSem c = some n → ∀ k, s.mayAct (.ex c) k = false)) ∧
      ∀ t, s.sqSem c = some n → s.exSem c = some n → (∀ b ∈ s.acted, b.1 ≠ .ex c) → { s with focus := c }.exTurn = .next t →
        semOf (t.ctx c) n < semOf (s.ctx c) n → ∀ k, s.mayAct (.sq c) k = false) ∧
    (∀ (i : Instr) (r : List Turn) (m : State), s.agenda = .ev i :: r → i.wf = true → encode i = none → m = { s with agenda := r } →
      (m.evActor i = none → step s = exec i m) ∧
      (∀ a k, m.evActor i = some (a, k) → step s = if m.mayAct a k then exec i (m.noteActed a k) else .next m)) ∧
    (s.agenda = [] → s.phase = 7 → step s = .next { s.tick with phase := 8 } ∧ s.tick.clk = s.clk + 1) ∧
    (∀ r, s.agenda = .clock :: r → step s = .next { s with agenda := r }.tick) ∧
    (turnOpen s → decodeSeqBytes (memRead s.mem (cur s).pc.toNat 8) = none → (cur s).pc.toNat % 4 = 0 →
      (cur s).inCode (cur s).pc.toNat 8 = true → ∃ t w, step s = .next t ∧ haltedBy s t 0x0201 0 w 0 ∧
        w = BitVec.ofNat 64 (if memNat s.mem (cur s).pc.toNat 4 % 2 = 1 then memNat s.mem (cur s).pc.toNat 8
          else memNat s.mem (cur s).pc.toNat 4))

/-- R141, R161, R166, R233, R278, R317, R340, R344: the instructions of a bundle, a copy command, a matrix command, a strip's instruction
and an alignment command run when their engine's turn comes to them; the alignment unit processes the first waiting event before it
takes a command, and takes the oldest head. -/
def Obligations.EnginesRunWhatTheyDecode : Prop :=
  ∀ s : State, s.serves s.focus = true →
    (s.mxTurn = exec (.mxCommandComplete s.focus) ((s.mxPending s.focus).mxStages s.focus) ∧
      ∀ (e : MxEntry) (i : Instr), (cur s).mxHead = some e → decode .mx e.w.toNat = some i → ∃ t, exec i s = .next t ∧ s.mxBegin = .next t) ∧
    (∀ (m : State) (e : CpEntry) (i : Instr), m = s.cpWork s.focus → (m.ctx s.focus).cpHead = some e → decode .cp e.w.toNat = some i →
      ∃ t, exec i m = .next t ∧ s.cpTurn = .next (t.cpComplete s.focus)) ∧
    (∀ (w : W64) (i : Instr), s.lnWord = some w → decode .ln w.toNat = some i →
      ∃ t m, exec i s = .next t ∧ execOutputRowComplete s.lnFocus t = .next m ∧ s.lnTurn = execStripStart s.lnFocus m) ∧
    ((cur s).ex.halted = false → ∀ m, exec (.blockFetch s.focus) s = .next m → ∃ t, exec (.blockStart s.focus) m = .next t ∧
      ∀ b, (t.ctx s.focus).ex.block = some b → b.draining = false → s.exTurn = .next (t.blockClock s.focus b)) ∧
    (∀ (c : CtxId) (i : Instr), s.alTake = true → (∀ e ∈ s.alEvents, evLess (s.clk, 2, 0) e = true) → s.alNext = some c →
      decodeAl (s.ctx c).alWord = some i → ∃ t, exec i { s with alTake := false, focus := c } = .next t ∧ s.alCommands = { t with focus := s.focus }) ∧
    (∀ (c d : CtxId) (e f : AlEntry), (∀ p ∈ s.ctxs, p.1 < 384 ∧ s.ctx (ctxOf p.1) = p.2) → s.alNext = some c →
      (s.ctx c).alq.head? = some e → (s.ctx d).alq.head? = some f → f.born < s.clk → (s.ctx d).alHalted = false → (s.ctx d).pushedAfter f = true →
      e.born < s.clk ∧ (e.born < f.born ∨ e.born = f.born ∧ c.val ≤ d.val)) ∧
    (s.alWrites = [] → (∀ e ∈ s.alEvents, s.alReady e = false) → s.alTurn = .next { s with alTake := decide (s.alFree ≤ s.clk) }) ∧
    (∀ (b : RunBlock) (i0 i1 i2 i3 : Instr), bundleInstrs b.bundle = [some i0, some i1, some i2, some i3] →
      (∀ i ∈ [i0, i1, i2, i3], ∃ t, exec i s = .next t ∧ t.faults = s.faults) → s.exFreezes s.focus i3 = false →
      ∃ t0 t1 t2 t3, exec i0 s = .next t0 ∧ exec i1 t0 = .next t1 ∧ exec i2 t1 = .next t2 ∧ exec i3 t2 = .next t3 ∧
        s.blockClock s.focus b = Answer.stateOr s (execBlockComplete s.focus (Answer.stateOr s (execOperationRetire s.focus
          ((t3.modBlock s.focus RunBlock.endBundle).modCtx s.focus Context.pipeAdvance)))))

/-- The model's memory keeps its canonical form, addresses rising and no zero byte listed, in every step (log entry 1). -/
def Obligations.StepsKeepMemoryCanonical : Prop :=
  ∀ s t : State, Memory.wf s.mem = true → step s = .next t → Memory.wf t.mem = true

/-- R15, R18, R91, R232, R266, R277, R333, R339, R355, R381, R386: what reset leaves. Memory reads 0 (log entry 1); the registers are 0
where the spec gives no value at reset, and pattern slots and TCMP have their values of dispatch (R88, R232; log entry 6). -/
def Obligations.ResetLeavesTheSpecsValues : Prop :=
  timeSound State.reset ∧
  Memory.wf State.reset.mem = true ∧ State.reset.now = 0 ∧ State.reset.clk = 0 ∧ State.reset.hold = true ∧ State.reset.lock = false ∧
    State.reset.tbstat = 2 ∧ State.reset.mxcap = 0xFF ∧ State.reset.sint = 0 ∧ State.reset.rsvw = 0 ∧ State.reset.href = 0 ∧
    State.reset.act = false ∧ State.reset.cmdst = 0 ∧ State.reset.fwst.toNat / 2 ^ 48 = 0 ∧ State.reset.launches = [] ∧
    (∀ q < 64, (State.reset.queue q).head = 0 ∧ (State.reset.queue q).tail = 0 ∧ (State.reset.queue q).qint.toNat % 1024 = 50 ∧ State.reset.qxst q = 0) ∧
    (∀ c : CtxId, (State.reset.ctx c).run = .idle ∧ (State.reset.ctx c).tcmp = BitVec.allOnes 64 ∧ (State.reset.ctx c).ie = 0 ∧
      (State.reset.ctx c).inh = false ∧ (∀ n, (State.reset.ctx c).reg n = 0) ∧ ∀ p ∈ (State.reset.ctx c).cp.pats, p = ⟨1, 1, 1, 1, 0, 0, 0⟩) ∧
    (∀ i < 128, (State.reset.stream i).cfg = none ∧ (State.reset.stream i).dropc = 0) ∧ (∀ r < 64, (State.reset.rule r).st = 0) ∧
    ∀ p < 2, (State.reset.link p).up = false ∧ (State.reset.link p).inj = 0

/-- R15, R16: a step that is no device reset never takes device time back, keeps its rate within 500 ppm, and in a later clock device time
reads strictly more. -/
def Obligations.DeviceTimeNeverGoesBack : Prop :=
  ∀ s t : State, timeSound s → (∀ i j, s.agenda.head? ≠ some (.ev (.deviceReset i j))) → step s = .next t →
    s.timeU ≤ t.timeU ∧ -500 ≤ t.ppm ∧ t.ppm ≤ 500 ∧ (s.clk < t.clk → s.timeU / 6000000 < t.timeU / 6000000)

/-- R73 to R87: executions whose events perform one after the other, each read returning the last write before it, are executions that
R86 allows, at every scope and path: so what the machine does by performing each access as it issues (log entry 4) is among
what the spec allows. -/
def Sys2Proof.Claims.SequentialRunsAreAllowed : Prop :=
  ∀ evs : List Consistency.Ev, Consistency.forward evs = true → (Consistency.sequential evs).allowed = true

namespace Sys2Proof.Claims

/-- A sequencer's access of 4 bytes, a write or a read. -/
def access (c : CtxId) (k : Consistency.Kind) (wr : Bool) (a : Nat) : Consistency.Ev :=
  ⟨.eng c 0, k, !wr, wr, a, 4, [], none, none, none, false, 0⟩
/-- A write or a read of the whole plane block of `w` bytes at `a` by an agent. -/
def blockAccess (g : Consistency.Agent) (wr : Bool) (a w : Nat) : Consistency.Ev :=
  ⟨g, .other, !wr, wr, a, w, [], none, none, none, false, w⟩

end Sys2Proof.Claims

/-- R43, R67, R74, R80, R85, R86: what no execution does that R86 allows. No agent reads a byte older than it has read it; what happens before
a read is not missed by it, nor does it return what it happens before; a `.sc` load misses no write that a `.sc` access of an earlier
clock made or has read; a release and the acquire that reads it pass the data on; `.sc` accesses of two contexts do not both miss the
other's store; a whole plane block is not torn. -/
def Sys2Proof.Claims.RuledOutExecutions : Prop :=
  (∀ (x : Consistency.Execution), x.allowed = true →
    (∀ i j b, x.po i j = true → b ∈ (x.ev i).reads → b ∈ (x.ev j).reads → i < x.evs.length → j < x.evs.length →
      x.before b (x.src j b) (x.src i b) = false) ∧
    (∀ v r b w, b ∈ (x.ev r).reads → x.src r b = some w → v ≠ r → v < x.evs.length → r < x.evs.length →
      x.hb [(x.ev r).agent, (x.ev v).agent, (x.ev w).agent] v r = true → x.before b (some w) (some v) = false) ∧
    (∀ r b w, b ∈ (x.ev r).reads → r < x.evs.length → x.src r b = some w → x.hb [(x.ev r).agent, (x.ev w).agent] r w = false) ∧
    (∀ i j b c d, (x.ev i).kind = .wheel c → (x.ev j).kind = .wheel d → c < d → b ∈ (x.ev j).reads →
      (b ∈ (x.ev i).reads → x.before b (x.src j b) (x.src i b) = false) ∧
      (b ∈ (x.ev i).writes → (∀ k < x.evs.length, (x.ev k).agent ≠ .outside) → x.before b (x.src j b) (some i) = false))) ∧
  (∀ (x : Consistency.Execution) (a b : CtxId) (s : Scope) (c d : BitVec 4) (m n : BitVec 16) (p q : Nat),
    Consistency.inScope s (.eng a 0) (.eng b 0) = true → m.getLsbD c.toNat = true → n.getLsbD d.toNat = true →
    x.evs = [access a (.plain c) true p, access a (.release s m) true q, access b (.acquire s n) false q, access b (.plain d) false p] →
    x.src 2 q = some 1 → x.src 3 p = none → x.allowed = false) ∧
  (∀ (x : Consistency.Execution) (a b : CtxId) (c1 c2 c3 c4 p q : Nat), c1 < c2 → c3 < c4 →
    x.evs = [access a (.wheel c1) true p, access a (.wheel c2) false q, access b (.wheel c3) true q, access b (.wheel c4) false p] →
    x.src 1 q = none → x.src 3 p = none → x.allowed = false) ∧
  ∀ (x : Consistency.Execution) (g h : Consistency.Agent) (k w i j : Nat), w ∈ [16, 32, 64] →
    x.evs = [blockAccess g true (w * k) w, blockAccess h false (w * k) w] → i < w → j < w →
    x.src 1 (w * k + i) = some 0 → x.src 1 (w * k + j) = none → x.allowed = false

/-- R43, R67, R73 to R87: executions whose events perform one after the other are among those that R86 allows, and what no allowed execution does. -/
def Obligations.SequentialExecutionsAreAllowed : Prop :=
  Claims.SequentialRunsAreAllowed ∧ Claims.RuledOutExecutions
end

