-- ==== Sys2Proof/Laws/Encode.lean ====
section
/-! SUPPORT. Words as lists of fields: splitting what was joined gives the fields again, and a word fits its fields' widths. -/

namespace Sys2Proof

/-- The width of a word of a stream. -/
def EncUnit.width : EncUnit → Nat
  | .sq32 => 32
  | .sq64 => 64
  | .slotA => 32
  | .slotB => 32
  | .slotC => 32
  | .slotD => 32
  | .mx => 256
  | .cp => 256
  | .al => 128
  | .ln => 64

/-- A joined word fits the sum of its fields' widths. -/
theorem packF_lt (l : List (Nat × Nat)) : packF l < 2 ^ (l.map Prod.fst).sum := by
  induction l with
  | nil => simp [packF]
  | cons p r ih =>
    obtain ⟨n, v⟩ := p
    have h : v % 2 ^ n < 2 ^ n := Nat.mod_lt _ (Nat.two_pow_pos n)
    simp only [packF, List.map_cons, List.sum_cons, Nat.pow_add]
    calc v % 2 ^ n + 2 ^ n * packF r < 2 ^ n + 2 ^ n * packF r := by omega
      _ = 2 ^ n * (packF r + 1) := by rw [Nat.mul_add, Nat.mul_one, Nat.add_comm]
      _ ≤ 2 ^ n * 2 ^ (r.map Prod.fst).sum := Nat.mul_le_mul_left _ ih

/-- The same for a word of known width. -/
theorem packF_fits {l : List (Nat × Nat)} {n : Nat} (h : (l.map Prod.fst).sum = n) : packF l < 2 ^ n := h ▸ packF_lt l

/-- Splitting a word joined from fields that fit gives the fields. -/
theorem unpackF_packF (l : List (Nat × Nat)) :
    (∀ p ∈ l, p.2 < 2 ^ p.1) → unpackF (l.map Prod.fst) (packF l) = l.map Prod.snd := by
  induction l with
  | nil => intro _; rfl
  | cons p r ih =>
    intro h
    obtain ⟨n, v⟩ := p
    have hv : v < 2 ^ n := h (n, v) (by simp)
    have hr := ih fun q hq => h q (by simp [hq])
    have hp : 0 < 2 ^ n := Nat.two_pow_pos n
    simp only [List.map_cons, packF, unpackF]
    rw [Nat.mod_eq_of_lt hv, Nat.add_mul_mod_self_left, Nat.mod_eq_of_lt hv, Nat.add_mul_div_left _ _ hp,
      Nat.div_eq_of_lt hv, Nat.zero_add, hr]

/-- The opcode field of a sequencer word joined from fields. -/
theorem packF_opcode (v : Nat) (r : List (Nat × Nat)) (h : v < 128) : packF ((7, v) :: r) / 2 % 64 = v / 2 := by
  have : v % 2 ^ 7 = v := Nat.mod_eq_of_lt h
  simp only [packF]
  omega

/-- What `decode` accepts is well formed, and its own encoding is the word, but for the all-zero slots (R173, R319). -/
theorem decode_eq_some {u : EncUnit} {w : Nat} {i : Instr} (h : decode u w = some i) (hw : w ≠ 0) :
    i.wf = true ∧ encode i = some (u, w) := by
  simp only [decode, hw, false_and, if_false] at h
  split at h
  · split at h
    · rename_i hc
      cases h
      simpa using hc
    · cases h
  · cases h

/-- A word whose candidate is well formed and encodes to it again decodes to the candidate. -/
theorem decode_of_candidate {u : EncUnit} {w : Nat} {i : Instr} (hw : w ≠ 0) (hc : candidate u w = some i) (hf : i.wf = true)
    (he : encode i = some (u, w)) : decode u w = some i := by
  simp [decode, hw, hc, hf, he]

end Sys2Proof
end

