-- ==== Sys2Proof/Laws/State.lean ====
section
/-! SUPPORT. What each update of the device and of a context leaves in each field: true by unfolding, so that no later proof unfolds
a record update. -/

namespace Sys2Proof.Machine

/-! ## setCtx -/

@[simp] theorem State.setCtx_agenda (s : State) (c : CtxId) (x : Context) : (s.setCtx c x).agenda = s.agenda := rfl
@[simp] theorem State.setCtx_phase (s : State) (c : CtxId) (x : Context) : (s.setCtx c x).phase = s.phase := rfl
@[simp] theorem State.setCtx_focus (s : State) (c : CtxId) (x : Context) : (s.setCtx c x).focus = s.focus := rfl
@[simp] theorem State.setCtx_lnFocus (s : State) (c : CtxId) (x : Context) : (s.setCtx c x).lnFocus = s.lnFocus := rfl
@[simp] theorem State.setCtx_free (s : State) (c : CtxId) (x : Context) : (s.setCtx c x).free = s.free := rfl
@[simp] theorem State.setCtx_out (s : State) (c : CtxId) (x : Context) : (s.setCtx c x).out = s.out := rfl
@[simp] theorem State.setCtx_acted (s : State) (c : CtxId) (x : Context) : (s.setCtx c x).acted = s.acted := rfl
@[simp] theorem State.setCtx_clk (s : State) (c : CtxId) (x : Context) : (s.setCtx c x).clk = s.clk := rfl
@[simp] theorem State.setCtx_timeU (s : State) (c : CtxId) (x : Context) : (s.setCtx c x).timeU = s.timeU := rfl
@[simp] theorem State.setCtx_timeStep (s : State) (c : CtxId) (x : Context) : (s.setCtx c x).timeStep = s.timeStep := rfl
@[simp] theorem State.setCtx_timeLog (s : State) (c : CtxId) (x : Context) : (s.setCtx c x).timeLog = s.timeLog := rfl
@[simp] theorem State.setCtx_ppm (s : State) (c : CtxId) (x : Context) : (s.setCtx c x).ppm = s.ppm := rfl
@[simp] theorem State.setCtx_lock (s : State) (c : CtxId) (x : Context) : (s.setCtx c x).lock = s.lock := rfl
@[simp] theorem State.setCtx_hold (s : State) (c : CtxId) (x : Context) : (s.setCtx c x).hold = s.hold := rfl
@[simp] theorem State.setCtx_stepped (s : State) (c : CtxId) (x : Context) : (s.setCtx c x).stepped = s.stepped := rfl
@[simp] theorem State.setCtx_tbPort (s : State) (c : CtxId) (x : Context) : (s.setCtx c x).tbPort = s.tbPort := rfl
@[simp] theorem State.setCtx_offs (s : State) (c : CtxId) (x : Context) : (s.setCtx c x).offs = s.offs := rfl
@[simp] theorem State.setCtx_steps (s : State) (c : CtxId) (x : Context) : (s.setCtx c x).steps = s.steps := rfl
@[simp] theorem State.setCtx_everLocked (s : State) (c : CtxId) (x : Context) : (s.setCtx c x).everLocked = s.everLocked := rfl
@[simp] theorem State.setCtx_latches (s : State) (c : CtxId) (x : Context) : (s.setCtx c x).latches = s.latches := rfl
@[simp] theorem State.setCtx_mem (s : State) (c : CtxId) (x : Context) : (s.setCtx c x).mem = s.mem := rfl
@[simp] theorem State.setCtx_ro (s : State) (c : CtxId) (x : Context) : (s.setCtx c x).ro = s.ro := rfl
@[simp] theorem State.setCtx_verified (s : State) (c : CtxId) (x : Context) : (s.setCtx c x).verified = s.verified := rfl
@[simp] theorem State.setCtx_ctxs (s : State) (c : CtxId) (x : Context) : (s.setCtx c x).ctxs = tabSet s.ctxs c.val x := rfl
@[simp] theorem State.setCtx_cores (s : State) (c : CtxId) (x : Context) : (s.setCtx c x).cores = s.cores := rfl
@[simp] theorem State.setCtx_mxcap (s : State) (c : CtxId) (x : Context) : (s.setCtx c x).mxcap = s.mxcap := rfl
@[simp] theorem State.setCtx_mxcapNew (s : State) (c : CtxId) (x : Context) : (s.setCtx c x).mxcapNew = s.mxcapNew := rfl
@[simp] theorem State.setCtx_mxcapCfg (s : State) (c : CtxId) (x : Context) : (s.setCtx c x).mxcapCfg = s.mxcapCfg := rfl
@[simp] theorem State.setCtx_streams (s : State) (c : CtxId) (x : Context) : (s.setCtx c x).streams = s.streams := rfl
@[simp] theorem State.setCtx_procs (s : State) (c : CtxId) (x : Context) : (s.setCtx c x).procs = s.procs := rfl
@[simp] theorem State.setCtx_almanac (s : State) (c : CtxId) (x : Context) : (s.setCtx c x).almanac = s.almanac := rfl
@[simp] theorem State.setCtx_rules (s : State) (c : CtxId) (x : Context) : (s.setCtx c x).rules = s.rules := rfl
@[simp] theorem State.setCtx_alFree (s : State) (c : CtxId) (x : Context) : (s.setCtx c x).alFree = s.alFree := rfl
@[simp] theorem State.setCtx_alTake (s : State) (c : CtxId) (x : Context) : (s.setCtx c x).alTake = s.alTake := rfl
@[simp] theorem State.setCtx_alWrites (s : State) (c : CtxId) (x : Context) : (s.setCtx c x).alWrites = s.alWrites := rfl
@[simp] theorem State.setCtx_bdrop (s : State) (c : CtxId) (x : Context) : (s.setCtx c x).bdrop = s.bdrop := rfl
@[simp] theorem State.setCtx_bfail (s : State) (c : CtxId) (x : Context) : (s.setCtx c x).bfail = s.bfail := rfl
@[simp] theorem State.setCtx_links (s : State) (c : CtxId) (x : Context) : (s.setCtx c x).links = s.links := rfl
@[simp] theorem State.setCtx_queues (s : State) (c : CtxId) (x : Context) : (s.setCtx c x).queues = s.queues := rfl
@[simp] theorem State.setCtx_parts (s : State) (c : CtxId) (x : Context) : (s.setCtx c x).parts = s.parts := rfl
@[simp] theorem State.setCtx_launches (s : State) (c : CtxId) (x : Context) : (s.setCtx c x).launches = s.launches := rfl
@[simp] theorem State.setCtx_faults (s : State) (c : CtxId) (x : Context) : (s.setCtx c x).faults = s.faults := rfl
@[simp] theorem State.setCtx_zeroed (s : State) (c : CtxId) (x : Context) : (s.setCtx c x).zeroed = s.zeroed := rfl
@[simp] theorem State.setCtx_swapReq (s : State) (c : CtxId) (x : Context) : (s.setCtx c x).swapReq = s.swapReq := rfl
@[simp] theorem State.setCtx_swapped (s : State) (c : CtxId) (x : Context) : (s.setCtx c x).swapped = s.swapped := rfl
@[simp] theorem State.setCtx_dispClk (s : State) (c : CtxId) (x : Context) : (s.setCtx c x).dispClk = s.dispClk := rfl
@[simp] theorem State.setCtx_act (s : State) (c : CtxId) (x : Context) : (s.setCtx c x).act = s.act := rfl
@[simp] theorem State.setCtx_sby (s : State) (c : CtxId) (x : Context) : (s.setCtx c x).sby = s.sby := rfl
@[simp] theorem State.setCtx_cmdst (s : State) (c : CtxId) (x : Context) : (s.setCtx c x).cmdst = s.cmdst := rfl
@[simp] theorem State.setCtx_tsver (s : State) (c : CtxId) (x : Context) : (s.setCtx c x).tsver = s.tsver := rfl
@[simp] theorem State.setCtx_imgver (s : State) (c : CtxId) (x : Context) : (s.setCtx c x).imgver = s.imgver := rfl
@[simp] theorem State.setCtx_fwdig (s : State) (c : CtxId) (x : Context) : (s.setCtx c x).fwdig = s.fwdig := rfl
@[simp] theorem State.setCtx_newImg (s : State) (c : CtxId) (x : Context) : (s.setCtx c x).newImg = s.newImg := rfl
@[simp] theorem State.setCtx_fwimg (s : State) (c : CtxId) (x : Context) : (s.setCtx c x).fwimg = s.fwimg := rfl
@[simp] theorem State.setCtx_fwbufN (s : State) (c : CtxId) (x : Context) : (s.setCtx c x).fwbufN = s.fwbufN := rfl
@[simp] theorem State.setCtx_fwbufA (s : State) (c : CtxId) (x : Context) : (s.setCtx c x).fwbufA = s.fwbufA := rfl
@[simp] theorem State.setCtx_pausedAt (s : State) (c : CtxId) (x : Context) : (s.setCtx c x).pausedAt = s.pausedAt := rfl
@[simp] theorem State.setCtx_remap (s : State) (c : CtxId) (x : Context) : (s.setCtx c x).remap = s.remap := rfl
@[simp] theorem State.setCtx_boot (s : State) (c : CtxId) (x : Context) : (s.setCtx c x).boot = s.boot := rfl
@[simp] theorem State.setCtx_phaseDev (s : State) (c : CtxId) (x : Context) : (s.setCtx c x).phaseDev = s.phaseDev := rfl
@[simp] theorem State.setCtx_rsvw (s : State) (c : CtxId) (x : Context) : (s.setCtx c x).rsvw = s.rsvw := rfl
@[simp] theorem State.setCtx_dual (s : State) (c : CtxId) (x : Context) : (s.setCtx c x).dual = s.dual := rfl
@[simp] theorem State.setCtx_sint (s : State) (c : CtxId) (x : Context) : (s.setCtx c x).sint = s.sint := rfl
@[simp] theorem State.setCtx_sintNow (s : State) (c : CtxId) (x : Context) : (s.setCtx c x).sintNow = s.sintNow := rfl
@[simp] theorem State.setCtx_svec (s : State) (c : CtxId) (x : Context) : (s.setCtx c x).svec = s.svec := rfl
@[simp] theorem State.setCtx_sien (s : State) (c : CtxId) (x : Context) : (s.setCtx c x).sien = s.sien := rfl
@[simp] theorem State.setCtx_hwbase (s : State) (c : CtxId) (x : Context) : (s.setCtx c x).hwbase = s.hwbase := rfl
@[simp] theorem State.setCtx_href (s : State) (c : CtxId) (x : Context) : (s.setCtx c x).href = s.href := rfl
@[simp] theorem State.setCtx_stageN (s : State) (c : CtxId) (x : Context) : (s.setCtx c x).stageN = s.stageN := rfl
@[simp] theorem State.setCtx_stageA (s : State) (c : CtxId) (x : Context) : (s.setCtx c x).stageA = s.stageA := rfl
@[simp] theorem State.setCtx_staged (s : State) (c : CtxId) (x : Context) : (s.setCtx c x).staged = s.staged := rfl
@[simp] theorem State.setCtx_minVer (s : State) (c : CtxId) (x : Context) : (s.setCtx c x).minVer = s.minVer := rfl
@[simp] theorem State.setCtx_hostMap (s : State) (c : CtxId) (x : Context) : (s.setCtx c x).hostMap = s.hostMap := rfl
@[simp] theorem State.setCtx_msix (s : State) (c : CtxId) (x : Context) : (s.setCtx c x).msix = s.msix := rfl
@[simp] theorem State.setCtx_msixPend (s : State) (c : CtxId) (x : Context) : (s.setCtx c x).msixPend = s.msixPend := rfl
@[simp] theorem State.setCtx_msixMask (s : State) (c : CtxId) (x : Context) : (s.setCtx c x).msixMask = s.msixMask := rfl
@[simp] theorem State.setCtx_msixDue (s : State) (c : CtxId) (x : Context) : (s.setCtx c x).msixDue = s.msixDue := rfl
@[simp] theorem State.setCtx_clkStep (s : State) (c : CtxId) (x : Context) : (s.setCtx c x).clkStep = s.clkStep := rfl
@[simp] theorem State.setCtx_clkStepNew (s : State) (c : CtxId) (x : Context) : (s.setCtx c x).clkStepNew = s.clkStepNew := rfl
@[simp] theorem State.setCtx_clkStepCfg (s : State) (c : CtxId) (x : Context) : (s.setCtx c x).clkStepCfg = s.clkStepCfg := rfl
@[simp] theorem State.setCtx_tj (s : State) (c : CtxId) (x : Context) : (s.setCtx c x).tj = s.tj := rfl
@[simp] theorem State.setCtx_coolFrom (s : State) (c : CtxId) (x : Context) : (s.setCtx c x).coolFrom = s.coolFrom := rfl
@[simp] theorem State.setCtx_relief (s : State) (c : CtxId) (x : Context) : (s.setCtx c x).relief = s.relief := rfl
@[simp] theorem State.setCtx_channels (s : State) (c : CtxId) (x : Context) : (s.setCtx c x).channels = s.channels := rfl
@[simp] theorem State.setCtx_ages (s : State) (c : CtxId) (x : Context) : (s.setCtx c x).ages = s.ages := rfl

/-! ## setCore -/

@[simp] theorem State.setCore_agenda (s : State) (i : Nat) (x : Core) : (s.setCore i x).agenda = s.agenda := rfl
@[simp] theorem State.setCore_phase (s : State) (i : Nat) (x : Core) : (s.setCore i x).phase = s.phase := rfl
@[simp] theorem State.setCore_focus (s : State) (i : Nat) (x : Core) : (s.setCore i x).focus = s.focus := rfl
@[simp] theorem State.setCore_lnFocus (s : State) (i : Nat) (x : Core) : (s.setCore i x).lnFocus = s.lnFocus := rfl
@[simp] theorem State.setCore_free (s : State) (i : Nat) (x : Core) : (s.setCore i x).free = s.free := rfl
@[simp] theorem State.setCore_out (s : State) (i : Nat) (x : Core) : (s.setCore i x).out = s.out := rfl
@[simp] theorem State.setCore_acted (s : State) (i : Nat) (x : Core) : (s.setCore i x).acted = s.acted := rfl
@[simp] theorem State.setCore_clk (s : State) (i : Nat) (x : Core) : (s.setCore i x).clk = s.clk := rfl
@[simp] theorem State.setCore_timeU (s : State) (i : Nat) (x : Core) : (s.setCore i x).timeU = s.timeU := rfl
@[simp] theorem State.setCore_timeStep (s : State) (i : Nat) (x : Core) : (s.setCore i x).timeStep = s.timeStep := rfl
@[simp] theorem State.setCore_timeLog (s : State) (i : Nat) (x : Core) : (s.setCore i x).timeLog = s.timeLog := rfl
@[simp] theorem State.setCore_ppm (s : State) (i : Nat) (x : Core) : (s.setCore i x).ppm = s.ppm := rfl
@[simp] theorem State.setCore_lock (s : State) (i : Nat) (x : Core) : (s.setCore i x).lock = s.lock := rfl
@[simp] theorem State.setCore_hold (s : State) (i : Nat) (x : Core) : (s.setCore i x).hold = s.hold := rfl
@[simp] theorem State.setCore_stepped (s : State) (i : Nat) (x : Core) : (s.setCore i x).stepped = s.stepped := rfl
@[simp] theorem State.setCore_tbPort (s : State) (i : Nat) (x : Core) : (s.setCore i x).tbPort = s.tbPort := rfl
@[simp] theorem State.setCore_offs (s : State) (i : Nat) (x : Core) : (s.setCore i x).offs = s.offs := rfl
@[simp] theorem State.setCore_steps (s : State) (i : Nat) (x : Core) : (s.setCore i x).steps = s.steps := rfl
@[simp] theorem State.setCore_everLocked (s : State) (i : Nat) (x : Core) : (s.setCore i x).everLocked = s.everLocked := rfl
@[simp] theorem State.setCore_latches (s : State) (i : Nat) (x : Core) : (s.setCore i x).latches = s.latches := rfl
@[simp] theorem State.setCore_mem (s : State) (i : Nat) (x : Core) : (s.setCore i x).mem = s.mem := rfl
@[simp] theorem State.setCore_ro (s : State) (i : Nat) (x : Core) : (s.setCore i x).ro = s.ro := rfl
@[simp] theorem State.setCore_verified (s : State) (i : Nat) (x : Core) : (s.setCore i x).verified = s.verified := rfl
@[simp] theorem State.setCore_ctxs (s : State) (i : Nat) (x : Core) : (s.setCore i x).ctxs = s.ctxs := rfl
@[simp] theorem State.setCore_cores (s : State) (i : Nat) (x : Core) : (s.setCore i x).cores = tabSet s.cores i x := rfl
@[simp] theorem State.setCore_mxcap (s : State) (i : Nat) (x : Core) : (s.setCore i x).mxcap = s.mxcap := rfl
@[simp] theorem State.setCore_mxcapNew (s : State) (i : Nat) (x : Core) : (s.setCore i x).mxcapNew = s.mxcapNew := rfl
@[simp] theorem State.setCore_mxcapCfg (s : State) (i : Nat) (x : Core) : (s.setCore i x).mxcapCfg = s.mxcapCfg := rfl
@[simp] theorem State.setCore_streams (s : State) (i : Nat) (x : Core) : (s.setCore i x).streams = s.streams := rfl
@[simp] theorem State.setCore_procs (s : State) (i : Nat) (x : Core) : (s.setCore i x).procs = s.procs := rfl
@[simp] theorem State.setCore_almanac (s : State) (i : Nat) (x : Core) : (s.setCore i x).almanac = s.almanac := rfl
@[simp] theorem State.setCore_rules (s : State) (i : Nat) (x : Core) : (s.setCore i x).rules = s.rules := rfl
@[simp] theorem State.setCore_alFree (s : State) (i : Nat) (x : Core) : (s.setCore i x).alFree = s.alFree := rfl
@[simp] theorem State.setCore_alTake (s : State) (i : Nat) (x : Core) : (s.setCore i x).alTake = s.alTake := rfl
@[simp] theorem State.setCore_alWrites (s : State) (i : Nat) (x : Core) : (s.setCore i x).alWrites = s.alWrites := rfl
@[simp] theorem State.setCore_bdrop (s : State) (i : Nat) (x : Core) : (s.setCore i x).bdrop = s.bdrop := rfl
@[simp] theorem State.setCore_bfail (s : State) (i : Nat) (x : Core) : (s.setCore i x).bfail = s.bfail := rfl
@[simp] theorem State.setCore_links (s : State) (i : Nat) (x : Core) : (s.setCore i x).links = s.links := rfl
@[simp] theorem State.setCore_queues (s : State) (i : Nat) (x : Core) : (s.setCore i x).queues = s.queues := rfl
@[simp] theorem State.setCore_parts (s : State) (i : Nat) (x : Core) : (s.setCore i x).parts = s.parts := rfl
@[simp] theorem State.setCore_launches (s : State) (i : Nat) (x : Core) : (s.setCore i x).launches = s.launches := rfl
@[simp] theorem State.setCore_faults (s : State) (i : Nat) (x : Core) : (s.setCore i x).faults = s.faults := rfl
@[simp] theorem State.setCore_zeroed (s : State) (i : Nat) (x : Core) : (s.setCore i x).zeroed = s.zeroed := rfl
@[simp] theorem State.setCore_swapReq (s : State) (i : Nat) (x : Core) : (s.setCore i x).swapReq = s.swapReq := rfl
@[simp] theorem State.setCore_swapped (s : State) (i : Nat) (x : Core) : (s.setCore i x).swapped = s.swapped := rfl
@[simp] theorem State.setCore_dispClk (s : State) (i : Nat) (x : Core) : (s.setCore i x).dispClk = s.dispClk := rfl
@[simp] theorem State.setCore_act (s : State) (i : Nat) (x : Core) : (s.setCore i x).act = s.act := rfl
@[simp] theorem State.setCore_sby (s : State) (i : Nat) (x : Core) : (s.setCore i x).sby = s.sby := rfl
@[simp] theorem State.setCore_cmdst (s : State) (i : Nat) (x : Core) : (s.setCore i x).cmdst = s.cmdst := rfl
@[simp] theorem State.setCore_tsver (s : State) (i : Nat) (x : Core) : (s.setCore i x).tsver = s.tsver := rfl
@[simp] theorem State.setCore_imgver (s : State) (i : Nat) (x : Core) : (s.setCore i x).imgver = s.imgver := rfl
@[simp] theorem State.setCore_fwdig (s : State) (i : Nat) (x : Core) : (s.setCore i x).fwdig = s.fwdig := rfl
@[simp] theorem State.setCore_newImg (s : State) (i : Nat) (x : Core) : (s.setCore i x).newImg = s.newImg := rfl
@[simp] theorem State.setCore_fwimg (s : State) (i : Nat) (x : Core) : (s.setCore i x).fwimg = s.fwimg := rfl
@[simp] theorem State.setCore_fwbufN (s : State) (i : Nat) (x : Core) : (s.setCore i x).fwbufN = s.fwbufN := rfl
@[simp] theorem State.setCore_fwbufA (s : State) (i : Nat) (x : Core) : (s.setCore i x).fwbufA = s.fwbufA := rfl
@[simp] theorem State.setCore_pausedAt (s : State) (i : Nat) (x : Core) : (s.setCore i x).pausedAt = s.pausedAt := rfl
@[simp] theorem State.setCore_remap (s : State) (i : Nat) (x : Core) : (s.setCore i x).remap = s.remap := rfl
@[simp] theorem State.setCore_boot (s : State) (i : Nat) (x : Core) : (s.setCore i x).boot = s.boot := rfl
@[simp] theorem State.setCore_phaseDev (s : State) (i : Nat) (x : Core) : (s.setCore i x).phaseDev = s.phaseDev := rfl
@[simp] theorem State.setCore_rsvw (s : State) (i : Nat) (x : Core) : (s.setCore i x).rsvw = s.rsvw := rfl
@[simp] theorem State.setCore_dual (s : State) (i : Nat) (x : Core) : (s.setCore i x).dual = s.dual := rfl
@[simp] theorem State.setCore_sint (s : State) (i : Nat) (x : Core) : (s.setCore i x).sint = s.sint := rfl
@[simp] theorem State.setCore_sintNow (s : State) (i : Nat) (x : Core) : (s.setCore i x).sintNow = s.sintNow := rfl
@[simp] theorem State.setCore_svec (s : State) (i : Nat) (x : Core) : (s.setCore i x).svec = s.svec := rfl
@[simp] theorem State.setCore_sien (s : State) (i : Nat) (x : Core) : (s.setCore i x).sien = s.sien := rfl
@[simp] theorem State.setCore_hwbase (s : State) (i : Nat) (x : Core) : (s.setCore i x).hwbase = s.hwbase := rfl
@[simp] theorem State.setCore_href (s : State) (i : Nat) (x : Core) : (s.setCore i x).href = s.href := rfl
@[simp] theorem State.setCore_stageN (s : State) (i : Nat) (x : Core) : (s.setCore i x).stageN = s.stageN := rfl
@[simp] theorem State.setCore_stageA (s : State) (i : Nat) (x : Core) : (s.setCore i x).stageA = s.stageA := rfl
@[simp] theorem State.setCore_staged (s : State) (i : Nat) (x : Core) : (s.setCore i x).staged = s.staged := rfl
@[simp] theorem State.setCore_minVer (s : State) (i : Nat) (x : Core) : (s.setCore i x).minVer = s.minVer := rfl
@[simp] theorem State.setCore_hostMap (s : State) (i : Nat) (x : Core) : (s.setCore i x).hostMap = s.hostMap := rfl
@[simp] theorem State.setCore_msix (s : State) (i : Nat) (x : Core) : (s.setCore i x).msix = s.msix := rfl
@[simp] theorem State.setCore_msixPend (s : State) (i : Nat) (x : Core) : (s.setCore i x).msixPend = s.msixPend := rfl
@[simp] theorem State.setCore_msixMask (s : State) (i : Nat) (x : Core) : (s.setCore i x).msixMask = s.msixMask := rfl
@[simp] theorem State.setCore_msixDue (s : State) (i : Nat) (x : Core) : (s.setCore i x).msixDue = s.msixDue := rfl
@[simp] theorem State.setCore_clkStep (s : State) (i : Nat) (x : Core) : (s.setCore i x).clkStep = s.clkStep := rfl
@[simp] theorem State.setCore_clkStepNew (s : State) (i : Nat) (x : Core) : (s.setCore i x).clkStepNew = s.clkStepNew := rfl
@[simp] theorem State.setCore_clkStepCfg (s : State) (i : Nat) (x : Core) : (s.setCore i x).clkStepCfg = s.clkStepCfg := rfl
@[simp] theorem State.setCore_tj (s : State) (i : Nat) (x : Core) : (s.setCore i x).tj = s.tj := rfl
@[simp] theorem State.setCore_coolFrom (s : State) (i : Nat) (x : Core) : (s.setCore i x).coolFrom = s.coolFrom := rfl
@[simp] theorem State.setCore_relief (s : State) (i : Nat) (x : Core) : (s.setCore i x).relief = s.relief := rfl
@[simp] theorem State.setCore_channels (s : State) (i : Nat) (x : Core) : (s.setCore i x).channels = s.channels := rfl
@[simp] theorem State.setCore_ages (s : State) (i : Nat) (x : Core) : (s.setCore i x).ages = s.ages := rfl

/-! ## setStream -/

@[simp] theorem State.setStream_agenda (s : State) (i : Nat) (x : Stream) : (s.setStream i x).agenda = s.agenda := rfl
@[simp] theorem State.setStream_phase (s : State) (i : Nat) (x : Stream) : (s.setStream i x).phase = s.phase := rfl
@[simp] theorem State.setStream_focus (s : State) (i : Nat) (x : Stream) : (s.setStream i x).focus = s.focus := rfl
@[simp] theorem State.setStream_lnFocus (s : State) (i : Nat) (x : Stream) : (s.setStream i x).lnFocus = s.lnFocus := rfl
@[simp] theorem State.setStream_free (s : State) (i : Nat) (x : Stream) : (s.setStream i x).free = s.free := rfl
@[simp] theorem State.setStream_out (s : State) (i : Nat) (x : Stream) : (s.setStream i x).out = s.out := rfl
@[simp] theorem State.setStream_acted (s : State) (i : Nat) (x : Stream) : (s.setStream i x).acted = s.acted := rfl
@[simp] theorem State.setStream_clk (s : State) (i : Nat) (x : Stream) : (s.setStream i x).clk = s.clk := rfl
@[simp] theorem State.setStream_timeU (s : State) (i : Nat) (x : Stream) : (s.setStream i x).timeU = s.timeU := rfl
@[simp] theorem State.setStream_timeStep (s : State) (i : Nat) (x : Stream) : (s.setStream i x).timeStep = s.timeStep := rfl
@[simp] theorem State.setStream_timeLog (s : State) (i : Nat) (x : Stream) : (s.setStream i x).timeLog = s.timeLog := rfl
@[simp] theorem State.setStream_ppm (s : State) (i : Nat) (x : Stream) : (s.setStream i x).ppm = s.ppm := rfl
@[simp] theorem State.setStream_lock (s : State) (i : Nat) (x : Stream) : (s.setStream i x).lock = s.lock := rfl
@[simp] theorem State.setStream_hold (s : State) (i : Nat) (x : Stream) : (s.setStream i x).hold = s.hold := rfl
@[simp] theorem State.setStream_stepped (s : State) (i : Nat) (x : Stream) : (s.setStream i x).stepped = s.stepped := rfl
@[simp] theorem State.setStream_tbPort (s : State) (i : Nat) (x : Stream) : (s.setStream i x).tbPort = s.tbPort := rfl
@[simp] theorem State.setStream_offs (s : State) (i : Nat) (x : Stream) : (s.setStream i x).offs = s.offs := rfl
@[simp] theorem State.setStream_steps (s : State) (i : Nat) (x : Stream) : (s.setStream i x).steps = s.steps := rfl
@[simp] theorem State.setStream_everLocked (s : State) (i : Nat) (x : Stream) : (s.setStream i x).everLocked = s.everLocked := rfl
@[simp] theorem State.setStream_latches (s : State) (i : Nat) (x : Stream) : (s.setStream i x).latches = s.latches := rfl
@[simp] theorem State.setStream_mem (s : State) (i : Nat) (x : Stream) : (s.setStream i x).mem = s.mem := rfl
@[simp] theorem State.setStream_ro (s : State) (i : Nat) (x : Stream) : (s.setStream i x).ro = s.ro := rfl
@[simp] theorem State.setStream_verified (s : State) (i : Nat) (x : Stream) : (s.setStream i x).verified = s.verified := rfl
@[simp] theorem State.setStream_ctxs (s : State) (i : Nat) (x : Stream) : (s.setStream i x).ctxs = s.ctxs := rfl
@[simp] theorem State.setStream_cores (s : State) (i : Nat) (x : Stream) : (s.setStream i x).cores = s.cores := rfl
@[simp] theorem State.setStream_mxcap (s : State) (i : Nat) (x : Stream) : (s.setStream i x).mxcap = s.mxcap := rfl
@[simp] theorem State.setStream_mxcapNew (s : State) (i : Nat) (x : Stream) : (s.setStream i x).mxcapNew = s.mxcapNew := rfl
@[simp] theorem State.setStream_mxcapCfg (s : State) (i : Nat) (x : Stream) : (s.setStream i x).mxcapCfg = s.mxcapCfg := rfl
@[simp] theorem State.setStream_streams (s : State) (i : Nat) (x : Stream) : (s.setStream i x).streams = tabSet s.streams i x := rfl
@[simp] theorem State.setStream_procs (s : State) (i : Nat) (x : Stream) : (s.setStream i x).procs = s.procs := rfl
@[simp] theorem State.setStream_almanac (s : State) (i : Nat) (x : Stream) : (s.setStream i x).almanac = s.almanac := rfl
@[simp] theorem State.setStream_rules (s : State) (i : Nat) (x : Stream) : (s.setStream i x).rules = s.rules := rfl
@[simp] theorem State.setStream_alFree (s : State) (i : Nat) (x : Stream) : (s.setStream i x).alFree = s.alFree := rfl
@[simp] theorem State.setStream_alTake (s : State) (i : Nat) (x : Stream) : (s.setStream i x).alTake = s.alTake := rfl
@[simp] theorem State.setStream_alWrites (s : State) (i : Nat) (x : Stream) : (s.setStream i x).alWrites = s.alWrites := rfl
@[simp] theorem State.setStream_bdrop (s : State) (i : Nat) (x : Stream) : (s.setStream i x).bdrop = s.bdrop := rfl
@[simp] theorem State.setStream_bfail (s : State) (i : Nat) (x : Stream) : (s.setStream i x).bfail = s.bfail := rfl
@[simp] theorem State.setStream_links (s : State) (i : Nat) (x : Stream) : (s.setStream i x).links = s.links := rfl
@[simp] theorem State.setStream_queues (s : State) (i : Nat) (x : Stream) : (s.setStream i x).queues = s.queues := rfl
@[simp] theorem State.setStream_parts (s : State) (i : Nat) (x : Stream) : (s.setStream i x).parts = s.parts := rfl
@[simp] theorem State.setStream_launches (s : State) (i : Nat) (x : Stream) : (s.setStream i x).launches = s.launches := rfl
@[simp] theorem State.setStream_faults (s : State) (i : Nat) (x : Stream) : (s.setStream i x).faults = s.faults := rfl
@[simp] theorem State.setStream_zeroed (s : State) (i : Nat) (x : Stream) : (s.setStream i x).zeroed = s.zeroed := rfl
@[simp] theorem State.setStream_swapReq (s : State) (i : Nat) (x : Stream) : (s.setStream i x).swapReq = s.swapReq := rfl
@[simp] theorem State.setStream_swapped (s : State) (i : Nat) (x : Stream) : (s.setStream i x).swapped = s.swapped := rfl
@[simp] theorem State.setStream_dispClk (s : State) (i : Nat) (x : Stream) : (s.setStream i x).dispClk = s.dispClk := rfl
@[simp] theorem State.setStream_act (s : State) (i : Nat) (x : Stream) : (s.setStream i x).act = s.act := rfl
@[simp] theorem State.setStream_sby (s : State) (i : Nat) (x : Stream) : (s.setStream i x).sby = s.sby := rfl
@[simp] theorem State.setStream_cmdst (s : State) (i : Nat) (x : Stream) : (s.setStream i x).cmdst = s.cmdst := rfl
@[simp] theorem State.setStream_tsver (s : State) (i : Nat) (x : Stream) : (s.setStream i x).tsver = s.tsver := rfl
@[simp] theorem State.setStream_imgver (s : State) (i : Nat) (x : Stream) : (s.setStream i x).imgver = s.imgver := rfl
@[simp] theorem State.setStream_fwdig (s : State) (i : Nat) (x : Stream) : (s.setStream i x).fwdig = s.fwdig := rfl
@[simp] theorem State.setStream_newImg (s : State) (i : Nat) (x : Stream) : (s.setStream i x).newImg = s.newImg := rfl
@[simp] theorem State.setStream_fwimg (s : State) (i : Nat) (x : Stream) : (s.setStream i x).fwimg = s.fwimg := rfl
@[simp] theorem State.setStream_fwbufN (s : State) (i : Nat) (x : Stream) : (s.setStream i x).fwbufN = s.fwbufN := rfl
@[simp] theorem State.setStream_fwbufA (s : State) (i : Nat) (x : Stream) : (s.setStream i x).fwbufA = s.fwbufA := rfl
@[simp] theorem State.setStream_pausedAt (s : State) (i : Nat) (x : Stream) : (s.setStream i x).pausedAt = s.pausedAt := rfl
@[simp] theorem State.setStream_remap (s : State) (i : Nat) (x : Stream) : (s.setStream i x).remap = s.remap := rfl
@[simp] theorem State.setStream_boot (s : State) (i : Nat) (x : Stream) : (s.setStream i x).boot = s.boot := rfl
@[simp] theorem State.setStream_phaseDev (s : State) (i : Nat) (x : Stream) : (s.setStream i x).phaseDev = s.phaseDev := rfl
@[simp] theorem State.setStream_rsvw (s : State) (i : Nat) (x : Stream) : (s.setStream i x).rsvw = s.rsvw := rfl
@[simp] theorem State.setStream_dual (s : State) (i : Nat) (x : Stream) : (s.setStream i x).dual = s.dual := rfl
@[simp] theorem State.setStream_sint (s : State) (i : Nat) (x : Stream) : (s.setStream i x).sint = s.sint := rfl
@[simp] theorem State.setStream_sintNow (s : State) (i : Nat) (x : Stream) : (s.setStream i x).sintNow = s.sintNow := rfl
@[simp] theorem State.setStream_svec (s : State) (i : Nat) (x : Stream) : (s.setStream i x).svec = s.svec := rfl
@[simp] theorem State.setStream_sien (s : State) (i : Nat) (x : Stream) : (s.setStream i x).sien = s.sien := rfl
@[simp] theorem State.setStream_hwbase (s : State) (i : Nat) (x : Stream) : (s.setStream i x).hwbase = s.hwbase := rfl
@[simp] theorem State.setStream_href (s : State) (i : Nat) (x : Stream) : (s.setStream i x).href = s.href := rfl
@[simp] theorem State.setStream_stageN (s : State) (i : Nat) (x : Stream) : (s.setStream i x).stageN = s.stageN := rfl
@[simp] theorem State.setStream_stageA (s : State) (i : Nat) (x : Stream) : (s.setStream i x).stageA = s.stageA := rfl
@[simp] theorem State.setStream_staged (s : State) (i : Nat) (x : Stream) : (s.setStream i x).staged = s.staged := rfl
@[simp] theorem State.setStream_minVer (s : State) (i : Nat) (x : Stream) : (s.setStream i x).minVer = s.minVer := rfl
@[simp] theorem State.setStream_hostMap (s : State) (i : Nat) (x : Stream) : (s.setStream i x).hostMap = s.hostMap := rfl
@[simp] theorem State.setStream_msix (s : State) (i : Nat) (x : Stream) : (s.setStream i x).msix = s.msix := rfl
@[simp] theorem State.setStream_msixPend (s : State) (i : Nat) (x : Stream) : (s.setStream i x).msixPend = s.msixPend := rfl
@[simp] theorem State.setStream_msixMask (s : State) (i : Nat) (x : Stream) : (s.setStream i x).msixMask = s.msixMask := rfl
@[simp] theorem State.setStream_msixDue (s : State) (i : Nat) (x : Stream) : (s.setStream i x).msixDue = s.msixDue := rfl
@[simp] theorem State.setStream_clkStep (s : State) (i : Nat) (x : Stream) : (s.setStream i x).clkStep = s.clkStep := rfl
@[simp] theorem State.setStream_clkStepNew (s : State) (i : Nat) (x : Stream) : (s.setStream i x).clkStepNew = s.clkStepNew := rfl
@[simp] theorem State.setStream_clkStepCfg (s : State) (i : Nat) (x : Stream) : (s.setStream i x).clkStepCfg = s.clkStepCfg := rfl
@[simp] theorem State.setStream_tj (s : State) (i : Nat) (x : Stream) : (s.setStream i x).tj = s.tj := rfl
@[simp] theorem State.setStream_coolFrom (s : State) (i : Nat) (x : Stream) : (s.setStream i x).coolFrom = s.coolFrom := rfl
@[simp] theorem State.setStream_relief (s : State) (i : Nat) (x : Stream) : (s.setStream i x).relief = s.relief := rfl
@[simp] theorem State.setStream_channels (s : State) (i : Nat) (x : Stream) : (s.setStream i x).channels = s.channels := rfl
@[simp] theorem State.setStream_ages (s : State) (i : Nat) (x : Stream) : (s.setStream i x).ages = s.ages := rfl

/-! ## setProc -/

@[simp] theorem State.setProc_agenda (s : State) (i : Nat) (x : Proc) : (s.setProc i x).agenda = s.agenda := rfl
@[simp] theorem State.setProc_phase (s : State) (i : Nat) (x : Proc) : (s.setProc i x).phase = s.phase := rfl
@[simp] theorem State.setProc_focus (s : State) (i : Nat) (x : Proc) : (s.setProc i x).focus = s.focus := rfl
@[simp] theorem State.setProc_lnFocus (s : State) (i : Nat) (x : Proc) : (s.setProc i x).lnFocus = s.lnFocus := rfl
@[simp] theorem State.setProc_free (s : State) (i : Nat) (x : Proc) : (s.setProc i x).free = s.free := rfl
@[simp] theorem State.setProc_out (s : State) (i : Nat) (x : Proc) : (s.setProc i x).out = s.out := rfl
@[simp] theorem State.setProc_acted (s : State) (i : Nat) (x : Proc) : (s.setProc i x).acted = s.acted := rfl
@[simp] theorem State.setProc_clk (s : State) (i : Nat) (x : Proc) : (s.setProc i x).clk = s.clk := rfl
@[simp] theorem State.setProc_timeU (s : State) (i : Nat) (x : Proc) : (s.setProc i x).timeU = s.timeU := rfl
@[simp] theorem State.setProc_timeStep (s : State) (i : Nat) (x : Proc) : (s.setProc i x).timeStep = s.timeStep := rfl
@[simp] theorem State.setProc_timeLog (s : State) (i : Nat) (x : Proc) : (s.setProc i x).timeLog = s.timeLog := rfl
@[simp] theorem State.setProc_ppm (s : State) (i : Nat) (x : Proc) : (s.setProc i x).ppm = s.ppm := rfl
@[simp] theorem State.setProc_lock (s : State) (i : Nat) (x : Proc) : (s.setProc i x).lock = s.lock := rfl
@[simp] theorem State.setProc_hold (s : State) (i : Nat) (x : Proc) : (s.setProc i x).hold = s.hold := rfl
@[simp] theorem State.setProc_stepped (s : State) (i : Nat) (x : Proc) : (s.setProc i x).stepped = s.stepped := rfl
@[simp] theorem State.setProc_tbPort (s : State) (i : Nat) (x : Proc) : (s.setProc i x).tbPort = s.tbPort := rfl
@[simp] theorem State.setProc_offs (s : State) (i : Nat) (x : Proc) : (s.setProc i x).offs = s.offs := rfl
@[simp] theorem State.setProc_steps (s : State) (i : Nat) (x : Proc) : (s.setProc i x).steps = s.steps := rfl
@[simp] theorem State.setProc_everLocked (s : State) (i : Nat) (x : Proc) : (s.setProc i x).everLocked = s.everLocked := rfl
@[simp] theorem State.setProc_latches (s : State) (i : Nat) (x : Proc) : (s.setProc i x).latches = s.latches := rfl
@[simp] theorem State.setProc_mem (s : State) (i : Nat) (x : Proc) : (s.setProc i x).mem = s.mem := rfl
@[simp] theorem State.setProc_ro (s : State) (i : Nat) (x : Proc) : (s.setProc i x).ro = s.ro := rfl
@[simp] theorem State.setProc_verified (s : State) (i : Nat) (x : Proc) : (s.setProc i x).verified = s.verified := rfl
@[simp] theorem State.setProc_ctxs (s : State) (i : Nat) (x : Proc) : (s.setProc i x).ctxs = s.ctxs := rfl
@[simp] theorem State.setProc_cores (s : State) (i : Nat) (x : Proc) : (s.setProc i x).cores = s.cores := rfl
@[simp] theorem State.setProc_mxcap (s : State) (i : Nat) (x : Proc) : (s.setProc i x).mxcap = s.mxcap := rfl
@[simp] theorem State.setProc_mxcapNew (s : State) (i : Nat) (x : Proc) : (s.setProc i x).mxcapNew = s.mxcapNew := rfl
@[simp] theorem State.setProc_mxcapCfg (s : State) (i : Nat) (x : Proc) : (s.setProc i x).mxcapCfg = s.mxcapCfg := rfl
@[simp] theorem State.setProc_streams (s : State) (i : Nat) (x : Proc) : (s.setProc i x).streams = s.streams := rfl
@[simp] theorem State.setProc_procs (s : State) (i : Nat) (x : Proc) : (s.setProc i x).procs = tabSet s.procs i x := rfl
@[simp] theorem State.setProc_almanac (s : State) (i : Nat) (x : Proc) : (s.setProc i x).almanac = s.almanac := rfl
@[simp] theorem State.setProc_rules (s : State) (i : Nat) (x : Proc) : (s.setProc i x).rules = s.rules := rfl
@[simp] theorem State.setProc_alFree (s : State) (i : Nat) (x : Proc) : (s.setProc i x).alFree = s.alFree := rfl
@[simp] theorem State.setProc_alTake (s : State) (i : Nat) (x : Proc) : (s.setProc i x).alTake = s.alTake := rfl
@[simp] theorem State.setProc_alWrites (s : State) (i : Nat) (x : Proc) : (s.setProc i x).alWrites = s.alWrites := rfl
@[simp] theorem State.setProc_bdrop (s : State) (i : Nat) (x : Proc) : (s.setProc i x).bdrop = s.bdrop := rfl
@[simp] theorem State.setProc_bfail (s : State) (i : Nat) (x : Proc) : (s.setProc i x).bfail = s.bfail := rfl
@[simp] theorem State.setProc_links (s : State) (i : Nat) (x : Proc) : (s.setProc i x).links = s.links := rfl
@[simp] theorem State.setProc_queues (s : State) (i : Nat) (x : Proc) : (s.setProc i x).queues = s.queues := rfl
@[simp] theorem State.setProc_parts (s : State) (i : Nat) (x : Proc) : (s.setProc i x).parts = s.parts := rfl
@[simp] theorem State.setProc_launches (s : State) (i : Nat) (x : Proc) : (s.setProc i x).launches = s.launches := rfl
@[simp] theorem State.setProc_faults (s : State) (i : Nat) (x : Proc) : (s.setProc i x).faults = s.faults := rfl
@[simp] theorem State.setProc_zeroed (s : State) (i : Nat) (x : Proc) : (s.setProc i x).zeroed = s.zeroed := rfl
@[simp] theorem State.setProc_swapReq (s : State) (i : Nat) (x : Proc) : (s.setProc i x).swapReq = s.swapReq := rfl
@[simp] theorem State.setProc_swapped (s : State) (i : Nat) (x : Proc) : (s.setProc i x).swapped = s.swapped := rfl
@[simp] theorem State.setProc_dispClk (s : State) (i : Nat) (x : Proc) : (s.setProc i x).dispClk = s.dispClk := rfl
@[simp] theorem State.setProc_act (s : State) (i : Nat) (x : Proc) : (s.setProc i x).act = s.act := rfl
@[simp] theorem State.setProc_sby (s : State) (i : Nat) (x : Proc) : (s.setProc i x).sby = s.sby := rfl
@[simp] theorem State.setProc_cmdst (s : State) (i : Nat) (x : Proc) : (s.setProc i x).cmdst = s.cmdst := rfl
@[simp] theorem State.setProc_tsver (s : State) (i : Nat) (x : Proc) : (s.setProc i x).tsver = s.tsver := rfl
@[simp] theorem State.setProc_imgver (s : State) (i : Nat) (x : Proc) : (s.setProc i x).imgver = s.imgver := rfl
@[simp] theorem State.setProc_fwdig (s : State) (i : Nat) (x : Proc) : (s.setProc i x).fwdig = s.fwdig := rfl
@[simp] theorem State.setProc_newImg (s : State) (i : Nat) (x : Proc) : (s.setProc i x).newImg = s.newImg := rfl
@[simp] theorem State.setProc_fwimg (s : State) (i : Nat) (x : Proc) : (s.setProc i x).fwimg = s.fwimg := rfl
@[simp] theorem State.setProc_fwbufN (s : State) (i : Nat) (x : Proc) : (s.setProc i x).fwbufN = s.fwbufN := rfl
@[simp] theorem State.setProc_fwbufA (s : State) (i : Nat) (x : Proc) : (s.setProc i x).fwbufA = s.fwbufA := rfl
@[simp] theorem State.setProc_pausedAt (s : State) (i : Nat) (x : Proc) : (s.setProc i x).pausedAt = s.pausedAt := rfl
@[simp] theorem State.setProc_remap (s : State) (i : Nat) (x : Proc) : (s.setProc i x).remap = s.remap := rfl
@[simp] theorem State.setProc_boot (s : State) (i : Nat) (x : Proc) : (s.setProc i x).boot = s.boot := rfl
@[simp] theorem State.setProc_phaseDev (s : State) (i : Nat) (x : Proc) : (s.setProc i x).phaseDev = s.phaseDev := rfl
@[simp] theorem State.setProc_rsvw (s : State) (i : Nat) (x : Proc) : (s.setProc i x).rsvw = s.rsvw := rfl
@[simp] theorem State.setProc_dual (s : State) (i : Nat) (x : Proc) : (s.setProc i x).dual = s.dual := rfl
@[simp] theorem State.setProc_sint (s : State) (i : Nat) (x : Proc) : (s.setProc i x).sint = s.sint := rfl
@[simp] theorem State.setProc_sintNow (s : State) (i : Nat) (x : Proc) : (s.setProc i x).sintNow = s.sintNow := rfl
@[simp] theorem State.setProc_svec (s : State) (i : Nat) (x : Proc) : (s.setProc i x).svec = s.svec := rfl
@[simp] theorem State.setProc_sien (s : State) (i : Nat) (x : Proc) : (s.setProc i x).sien = s.sien := rfl
@[simp] theorem State.setProc_hwbase (s : State) (i : Nat) (x : Proc) : (s.setProc i x).hwbase = s.hwbase := rfl
@[simp] theorem State.setProc_href (s : State) (i : Nat) (x : Proc) : (s.setProc i x).href = s.href := rfl
@[simp] theorem State.setProc_stageN (s : State) (i : Nat) (x : Proc) : (s.setProc i x).stageN = s.stageN := rfl
@[simp] theorem State.setProc_stageA (s : State) (i : Nat) (x : Proc) : (s.setProc i x).stageA = s.stageA := rfl
@[simp] theorem State.setProc_staged (s : State) (i : Nat) (x : Proc) : (s.setProc i x).staged = s.staged := rfl
@[simp] theorem State.setProc_minVer (s : State) (i : Nat) (x : Proc) : (s.setProc i x).minVer = s.minVer := rfl
@[simp] theorem State.setProc_hostMap (s : State) (i : Nat) (x : Proc) : (s.setProc i x).hostMap = s.hostMap := rfl
@[simp] theorem State.setProc_msix (s : State) (i : Nat) (x : Proc) : (s.setProc i x).msix = s.msix := rfl
@[simp] theorem State.setProc_msixPend (s : State) (i : Nat) (x : Proc) : (s.setProc i x).msixPend = s.msixPend := rfl
@[simp] theorem State.setProc_msixMask (s : State) (i : Nat) (x : Proc) : (s.setProc i x).msixMask = s.msixMask := rfl
@[simp] theorem State.setProc_msixDue (s : State) (i : Nat) (x : Proc) : (s.setProc i x).msixDue = s.msixDue := rfl
@[simp] theorem State.setProc_clkStep (s : State) (i : Nat) (x : Proc) : (s.setProc i x).clkStep = s.clkStep := rfl
@[simp] theorem State.setProc_clkStepNew (s : State) (i : Nat) (x : Proc) : (s.setProc i x).clkStepNew = s.clkStepNew := rfl
@[simp] theorem State.setProc_clkStepCfg (s : State) (i : Nat) (x : Proc) : (s.setProc i x).clkStepCfg = s.clkStepCfg := rfl
@[simp] theorem State.setProc_tj (s : State) (i : Nat) (x : Proc) : (s.setProc i x).tj = s.tj := rfl
@[simp] theorem State.setProc_coolFrom (s : State) (i : Nat) (x : Proc) : (s.setProc i x).coolFrom = s.coolFrom := rfl
@[simp] theorem State.setProc_relief (s : State) (i : Nat) (x : Proc) : (s.setProc i x).relief = s.relief := rfl
@[simp] theorem State.setProc_channels (s : State) (i : Nat) (x : Proc) : (s.setProc i x).channels = s.channels := rfl
@[simp] theorem State.setProc_ages (s : State) (i : Nat) (x : Proc) : (s.setProc i x).ages = s.ages := rfl

/-! ## setRule -/

@[simp] theorem State.setRule_agenda (s : State) (i : Nat) (x : Rule) : (s.setRule i x).agenda = s.agenda := rfl
@[simp] theorem State.setRule_phase (s : State) (i : Nat) (x : Rule) : (s.setRule i x).phase = s.phase := rfl
@[simp] theorem State.setRule_focus (s : State) (i : Nat) (x : Rule) : (s.setRule i x).focus = s.focus := rfl
@[simp] theorem State.setRule_lnFocus (s : State) (i : Nat) (x : Rule) : (s.setRule i x).lnFocus = s.lnFocus := rfl
@[simp] theorem State.setRule_free (s : State) (i : Nat) (x : Rule) : (s.setRule i x).free = s.free := rfl
@[simp] theorem State.setRule_out (s : State) (i : Nat) (x : Rule) : (s.setRule i x).out = s.out := rfl
@[simp] theorem State.setRule_acted (s : State) (i : Nat) (x : Rule) : (s.setRule i x).acted = s.acted := rfl
@[simp] theorem State.setRule_clk (s : State) (i : Nat) (x : Rule) : (s.setRule i x).clk = s.clk := rfl
@[simp] theorem State.setRule_timeU (s : State) (i : Nat) (x : Rule) : (s.setRule i x).timeU = s.timeU := rfl
@[simp] theorem State.setRule_timeStep (s : State) (i : Nat) (x : Rule) : (s.setRule i x).timeStep = s.timeStep := rfl
@[simp] theorem State.setRule_timeLog (s : State) (i : Nat) (x : Rule) : (s.setRule i x).timeLog = s.timeLog := rfl
@[simp] theorem State.setRule_ppm (s : State) (i : Nat) (x : Rule) : (s.setRule i x).ppm = s.ppm := rfl
@[simp] theorem State.setRule_lock (s : State) (i : Nat) (x : Rule) : (s.setRule i x).lock = s.lock := rfl
@[simp] theorem State.setRule_hold (s : State) (i : Nat) (x : Rule) : (s.setRule i x).hold = s.hold := rfl
@[simp] theorem State.setRule_stepped (s : State) (i : Nat) (x : Rule) : (s.setRule i x).stepped = s.stepped := rfl
@[simp] theorem State.setRule_tbPort (s : State) (i : Nat) (x : Rule) : (s.setRule i x).tbPort = s.tbPort := rfl
@[simp] theorem State.setRule_offs (s : State) (i : Nat) (x : Rule) : (s.setRule i x).offs = s.offs := rfl
@[simp] theorem State.setRule_steps (s : State) (i : Nat) (x : Rule) : (s.setRule i x).steps = s.steps := rfl
@[simp] theorem State.setRule_everLocked (s : State) (i : Nat) (x : Rule) : (s.setRule i x).everLocked = s.everLocked := rfl
@[simp] theorem State.setRule_latches (s : State) (i : Nat) (x : Rule) : (s.setRule i x).latches = s.latches := rfl
@[simp] theorem State.setRule_mem (s : State) (i : Nat) (x : Rule) : (s.setRule i x).mem = s.mem := rfl
@[simp] theorem State.setRule_ro (s : State) (i : Nat) (x : Rule) : (s.setRule i x).ro = s.ro := rfl
@[simp] theorem State.setRule_verified (s : State) (i : Nat) (x : Rule) : (s.setRule i x).verified = s.verified := rfl
@[simp] theorem State.setRule_ctxs (s : State) (i : Nat) (x : Rule) : (s.setRule i x).ctxs = s.ctxs := rfl
@[simp] theorem State.setRule_cores (s : State) (i : Nat) (x : Rule) : (s.setRule i x).cores = s.cores := rfl
@[simp] theorem State.setRule_mxcap (s : State) (i : Nat) (x : Rule) : (s.setRule i x).mxcap = s.mxcap := rfl
@[simp] theorem State.setRule_mxcapNew (s : State) (i : Nat) (x : Rule) : (s.setRule i x).mxcapNew = s.mxcapNew := rfl
@[simp] theorem State.setRule_mxcapCfg (s : State) (i : Nat) (x : Rule) : (s.setRule i x).mxcapCfg = s.mxcapCfg := rfl
@[simp] theorem State.setRule_streams (s : State) (i : Nat) (x : Rule) : (s.setRule i x).streams = s.streams := rfl
@[simp] theorem State.setRule_procs (s : State) (i : Nat) (x : Rule) : (s.setRule i x).procs = s.procs := rfl
@[simp] theorem State.setRule_almanac (s : State) (i : Nat) (x : Rule) : (s.setRule i x).almanac = s.almanac := rfl
@[simp] theorem State.setRule_rules (s : State) (i : Nat) (x : Rule) : (s.setRule i x).rules = tabSet s.rules i x := rfl
@[simp] theorem State.setRule_alFree (s : State) (i : Nat) (x : Rule) : (s.setRule i x).alFree = s.alFree := rfl
@[simp] theorem State.setRule_alTake (s : State) (i : Nat) (x : Rule) : (s.setRule i x).alTake = s.alTake := rfl
@[simp] theorem State.setRule_alWrites (s : State) (i : Nat) (x : Rule) : (s.setRule i x).alWrites = s.alWrites := rfl
@[simp] theorem State.setRule_bdrop (s : State) (i : Nat) (x : Rule) : (s.setRule i x).bdrop = s.bdrop := rfl
@[simp] theorem State.setRule_bfail (s : State) (i : Nat) (x : Rule) : (s.setRule i x).bfail = s.bfail := rfl
@[simp] theorem State.setRule_links (s : State) (i : Nat) (x : Rule) : (s.setRule i x).links = s.links := rfl
@[simp] theorem State.setRule_queues (s : State) (i : Nat) (x : Rule) : (s.setRule i x).queues = s.queues := rfl
@[simp] theorem State.setRule_parts (s : State) (i : Nat) (x : Rule) : (s.setRule i x).parts = s.parts := rfl
@[simp] theorem State.setRule_launches (s : State) (i : Nat) (x : Rule) : (s.setRule i x).launches = s.launches := rfl
@[simp] theorem State.setRule_faults (s : State) (i : Nat) (x : Rule) : (s.setRule i x).faults = s.faults := rfl
@[simp] theorem State.setRule_zeroed (s : State) (i : Nat) (x : Rule) : (s.setRule i x).zeroed = s.zeroed := rfl
@[simp] theorem State.setRule_swapReq (s : State) (i : Nat) (x : Rule) : (s.setRule i x).swapReq = s.swapReq := rfl
@[simp] theorem State.setRule_swapped (s : State) (i : Nat) (x : Rule) : (s.setRule i x).swapped = s.swapped := rfl
@[simp] theorem State.setRule_dispClk (s : State) (i : Nat) (x : Rule) : (s.setRule i x).dispClk = s.dispClk := rfl
@[simp] theorem State.setRule_act (s : State) (i : Nat) (x : Rule) : (s.setRule i x).act = s.act := rfl
@[simp] theorem State.setRule_sby (s : State) (i : Nat) (x : Rule) : (s.setRule i x).sby = s.sby := rfl
@[simp] theorem State.setRule_cmdst (s : State) (i : Nat) (x : Rule) : (s.setRule i x).cmdst = s.cmdst := rfl
@[simp] theorem State.setRule_tsver (s : State) (i : Nat) (x : Rule) : (s.setRule i x).tsver = s.tsver := rfl
@[simp] theorem State.setRule_imgver (s : State) (i : Nat) (x : Rule) : (s.setRule i x).imgver = s.imgver := rfl
@[simp] theorem State.setRule_fwdig (s : State) (i : Nat) (x : Rule) : (s.setRule i x).fwdig = s.fwdig := rfl
@[simp] theorem State.setRule_newImg (s : State) (i : Nat) (x : Rule) : (s.setRule i x).newImg = s.newImg := rfl
@[simp] theorem State.setRule_fwimg (s : State) (i : Nat) (x : Rule) : (s.setRule i x).fwimg = s.fwimg := rfl
@[simp] theorem State.setRule_fwbufN (s : State) (i : Nat) (x : Rule) : (s.setRule i x).fwbufN = s.fwbufN := rfl
@[simp] theorem State.setRule_fwbufA (s : State) (i : Nat) (x : Rule) : (s.setRule i x).fwbufA = s.fwbufA := rfl
@[simp] theorem State.setRule_pausedAt (s : State) (i : Nat) (x : Rule) : (s.setRule i x).pausedAt = s.pausedAt := rfl
@[simp] theorem State.setRule_remap (s : State) (i : Nat) (x : Rule) : (s.setRule i x).remap = s.remap := rfl
@[simp] theorem State.setRule_boot (s : State) (i : Nat) (x : Rule) : (s.setRule i x).boot = s.boot := rfl
@[simp] theorem State.setRule_phaseDev (s : State) (i : Nat) (x : Rule) : (s.setRule i x).phaseDev = s.phaseDev := rfl
@[simp] theorem State.setRule_rsvw (s : State) (i : Nat) (x : Rule) : (s.setRule i x).rsvw = s.rsvw := rfl
@[simp] theorem State.setRule_dual (s : State) (i : Nat) (x : Rule) : (s.setRule i x).dual = s.dual := rfl
@[simp] theorem State.setRule_sint (s : State) (i : Nat) (x : Rule) : (s.setRule i x).sint = s.sint := rfl
@[simp] theorem State.setRule_sintNow (s : State) (i : Nat) (x : Rule) : (s.setRule i x).sintNow = s.sintNow := rfl
@[simp] theorem State.setRule_svec (s : State) (i : Nat) (x : Rule) : (s.setRule i x).svec = s.svec := rfl
@[simp] theorem State.setRule_sien (s : State) (i : Nat) (x : Rule) : (s.setRule i x).sien = s.sien := rfl
@[simp] theorem State.setRule_hwbase (s : State) (i : Nat) (x : Rule) : (s.setRule i x).hwbase = s.hwbase := rfl
@[simp] theorem State.setRule_href (s : State) (i : Nat) (x : Rule) : (s.setRule i x).href = s.href := rfl
@[simp] theorem State.setRule_stageN (s : State) (i : Nat) (x : Rule) : (s.setRule i x).stageN = s.stageN := rfl
@[simp] theorem State.setRule_stageA (s : State) (i : Nat) (x : Rule) : (s.setRule i x).stageA = s.stageA := rfl
@[simp] theorem State.setRule_staged (s : State) (i : Nat) (x : Rule) : (s.setRule i x).staged = s.staged := rfl
@[simp] theorem State.setRule_minVer (s : State) (i : Nat) (x : Rule) : (s.setRule i x).minVer = s.minVer := rfl
@[simp] theorem State.setRule_hostMap (s : State) (i : Nat) (x : Rule) : (s.setRule i x).hostMap = s.hostMap := rfl
@[simp] theorem State.setRule_msix (s : State) (i : Nat) (x : Rule) : (s.setRule i x).msix = s.msix := rfl
@[simp] theorem State.setRule_msixPend (s : State) (i : Nat) (x : Rule) : (s.setRule i x).msixPend = s.msixPend := rfl
@[simp] theorem State.setRule_msixMask (s : State) (i : Nat) (x : Rule) : (s.setRule i x).msixMask = s.msixMask := rfl
@[simp] theorem State.setRule_msixDue (s : State) (i : Nat) (x : Rule) : (s.setRule i x).msixDue = s.msixDue := rfl
@[simp] theorem State.setRule_clkStep (s : State) (i : Nat) (x : Rule) : (s.setRule i x).clkStep = s.clkStep := rfl
@[simp] theorem State.setRule_clkStepNew (s : State) (i : Nat) (x : Rule) : (s.setRule i x).clkStepNew = s.clkStepNew := rfl
@[simp] theorem State.setRule_clkStepCfg (s : State) (i : Nat) (x : Rule) : (s.setRule i x).clkStepCfg = s.clkStepCfg := rfl
@[simp] theorem State.setRule_tj (s : State) (i : Nat) (x : Rule) : (s.setRule i x).tj = s.tj := rfl
@[simp] theorem State.setRule_coolFrom (s : State) (i : Nat) (x : Rule) : (s.setRule i x).coolFrom = s.coolFrom := rfl
@[simp] theorem State.setRule_relief (s : State) (i : Nat) (x : Rule) : (s.setRule i x).relief = s.relief := rfl
@[simp] theorem State.setRule_channels (s : State) (i : Nat) (x : Rule) : (s.setRule i x).channels = s.channels := rfl
@[simp] theorem State.setRule_ages (s : State) (i : Nat) (x : Rule) : (s.setRule i x).ages = s.ages := rfl

/-! ## setLink -/

@[simp] theorem State.setLink_agenda (s : State) (i : Nat) (x : Link) : (s.setLink i x).agenda = s.agenda := rfl
@[simp] theorem State.setLink_phase (s : State) (i : Nat) (x : Link) : (s.setLink i x).phase = s.phase := rfl
@[simp] theorem State.setLink_focus (s : State) (i : Nat) (x : Link) : (s.setLink i x).focus = s.focus := rfl
@[simp] theorem State.setLink_lnFocus (s : State) (i : Nat) (x : Link) : (s.setLink i x).lnFocus = s.lnFocus := rfl
@[simp] theorem State.setLink_free (s : State) (i : Nat) (x : Link) : (s.setLink i x).free = s.free := rfl
@[simp] theorem State.setLink_out (s : State) (i : Nat) (x : Link) : (s.setLink i x).out = s.out := rfl
@[simp] theorem State.setLink_acted (s : State) (i : Nat) (x : Link) : (s.setLink i x).acted = s.acted := rfl
@[simp] theorem State.setLink_clk (s : State) (i : Nat) (x : Link) : (s.setLink i x).clk = s.clk := rfl
@[simp] theorem State.setLink_timeU (s : State) (i : Nat) (x : Link) : (s.setLink i x).timeU = s.timeU := rfl
@[simp] theorem State.setLink_timeStep (s : State) (i : Nat) (x : Link) : (s.setLink i x).timeStep = s.timeStep := rfl
@[simp] theorem State.setLink_timeLog (s : State) (i : Nat) (x : Link) : (s.setLink i x).timeLog = s.timeLog := rfl
@[simp] theorem State.setLink_ppm (s : State) (i : Nat) (x : Link) : (s.setLink i x).ppm = s.ppm := rfl
@[simp] theorem State.setLink_lock (s : State) (i : Nat) (x : Link) : (s.setLink i x).lock = s.lock := rfl
@[simp] theorem State.setLink_hold (s : State) (i : Nat) (x : Link) : (s.setLink i x).hold = s.hold := rfl
@[simp] theorem State.setLink_stepped (s : State) (i : Nat) (x : Link) : (s.setLink i x).stepped = s.stepped := rfl
@[simp] theorem State.setLink_tbPort (s : State) (i : Nat) (x : Link) : (s.setLink i x).tbPort = s.tbPort := rfl
@[simp] theorem State.setLink_offs (s : State) (i : Nat) (x : Link) : (s.setLink i x).offs = s.offs := rfl
@[simp] theorem State.setLink_steps (s : State) (i : Nat) (x : Link) : (s.setLink i x).steps = s.steps := rfl
@[simp] theorem State.setLink_everLocked (s : State) (i : Nat) (x : Link) : (s.setLink i x).everLocked = s.everLocked := rfl
@[simp] theorem State.setLink_latches (s : State) (i : Nat) (x : Link) : (s.setLink i x).latches = s.latches := rfl
@[simp] theorem State.setLink_mem (s : State) (i : Nat) (x : Link) : (s.setLink i x).mem = s.mem := rfl
@[simp] theorem State.setLink_ro (s : State) (i : Nat) (x : Link) : (s.setLink i x).ro = s.ro := rfl
@[simp] theorem State.setLink_verified (s : State) (i : Nat) (x : Link) : (s.setLink i x).verified = s.verified := rfl
@[simp] theorem State.setLink_ctxs (s : State) (i : Nat) (x : Link) : (s.setLink i x).ctxs = s.ctxs := rfl
@[simp] theorem State.setLink_cores (s : State) (i : Nat) (x : Link) : (s.setLink i x).cores = s.cores := rfl
@[simp] theorem State.setLink_mxcap (s : State) (i : Nat) (x : Link) : (s.setLink i x).mxcap = s.mxcap := rfl
@[simp] theorem State.setLink_mxcapNew (s : State) (i : Nat) (x : Link) : (s.setLink i x).mxcapNew = s.mxcapNew := rfl
@[simp] theorem State.setLink_mxcapCfg (s : State) (i : Nat) (x : Link) : (s.setLink i x).mxcapCfg = s.mxcapCfg := rfl
@[simp] theorem State.setLink_streams (s : State) (i : Nat) (x : Link) : (s.setLink i x).streams = s.streams := rfl
@[simp] theorem State.setLink_procs (s : State) (i : Nat) (x : Link) : (s.setLink i x).procs = s.procs := rfl
@[simp] theorem State.setLink_almanac (s : State) (i : Nat) (x : Link) : (s.setLink i x).almanac = s.almanac := rfl
@[simp] theorem State.setLink_rules (s : State) (i : Nat) (x : Link) : (s.setLink i x).rules = s.rules := rfl
@[simp] theorem State.setLink_alFree (s : State) (i : Nat) (x : Link) : (s.setLink i x).alFree = s.alFree := rfl
@[simp] theorem State.setLink_alTake (s : State) (i : Nat) (x : Link) : (s.setLink i x).alTake = s.alTake := rfl
@[simp] theorem State.setLink_alWrites (s : State) (i : Nat) (x : Link) : (s.setLink i x).alWrites = s.alWrites := rfl
@[simp] theorem State.setLink_bdrop (s : State) (i : Nat) (x : Link) : (s.setLink i x).bdrop = s.bdrop := rfl
@[simp] theorem State.setLink_bfail (s : State) (i : Nat) (x : Link) : (s.setLink i x).bfail = s.bfail := rfl
@[simp] theorem State.setLink_links (s : State) (i : Nat) (x : Link) : (s.setLink i x).links = tabSet s.links i x := rfl
@[simp] theorem State.setLink_queues (s : State) (i : Nat) (x : Link) : (s.setLink i x).queues = s.queues := rfl
@[simp] theorem State.setLink_parts (s : State) (i : Nat) (x : Link) : (s.setLink i x).parts = s.parts := rfl
@[simp] theorem State.setLink_launches (s : State) (i : Nat) (x : Link) : (s.setLink i x).launches = s.launches := rfl
@[simp] theorem State.setLink_faults (s : State) (i : Nat) (x : Link) : (s.setLink i x).faults = s.faults := rfl
@[simp] theorem State.setLink_zeroed (s : State) (i : Nat) (x : Link) : (s.setLink i x).zeroed = s.zeroed := rfl
@[simp] theorem State.setLink_swapReq (s : State) (i : Nat) (x : Link) : (s.setLink i x).swapReq = s.swapReq := rfl
@[simp] theorem State.setLink_swapped (s : State) (i : Nat) (x : Link) : (s.setLink i x).swapped = s.swapped := rfl
@[simp] theorem State.setLink_dispClk (s : State) (i : Nat) (x : Link) : (s.setLink i x).dispClk = s.dispClk := rfl
@[simp] theorem State.setLink_act (s : State) (i : Nat) (x : Link) : (s.setLink i x).act = s.act := rfl
@[simp] theorem State.setLink_sby (s : State) (i : Nat) (x : Link) : (s.setLink i x).sby = s.sby := rfl
@[simp] theorem State.setLink_cmdst (s : State) (i : Nat) (x : Link) : (s.setLink i x).cmdst = s.cmdst := rfl
@[simp] theorem State.setLink_tsver (s : State) (i : Nat) (x : Link) : (s.setLink i x).tsver = s.tsver := rfl
@[simp] theorem State.setLink_imgver (s : State) (i : Nat) (x : Link) : (s.setLink i x).imgver = s.imgver := rfl
@[simp] theorem State.setLink_fwdig (s : State) (i : Nat) (x : Link) : (s.setLink i x).fwdig = s.fwdig := rfl
@[simp] theorem State.setLink_newImg (s : State) (i : Nat) (x : Link) : (s.setLink i x).newImg = s.newImg := rfl
@[simp] theorem State.setLink_fwimg (s : State) (i : Nat) (x : Link) : (s.setLink i x).fwimg = s.fwimg := rfl
@[simp] theorem State.setLink_fwbufN (s : State) (i : Nat) (x : Link) : (s.setLink i x).fwbufN = s.fwbufN := rfl
@[simp] theorem State.setLink_fwbufA (s : State) (i : Nat) (x : Link) : (s.setLink i x).fwbufA = s.fwbufA := rfl
@[simp] theorem State.setLink_pausedAt (s : State) (i : Nat) (x : Link) : (s.setLink i x).pausedAt = s.pausedAt := rfl
@[simp] theorem State.setLink_remap (s : State) (i : Nat) (x : Link) : (s.setLink i x).remap = s.remap := rfl
@[simp] theorem State.setLink_boot (s : State) (i : Nat) (x : Link) : (s.setLink i x).boot = s.boot := rfl
@[simp] theorem State.setLink_phaseDev (s : State) (i : Nat) (x : Link) : (s.setLink i x).phaseDev = s.phaseDev := rfl
@[simp] theorem State.setLink_rsvw (s : State) (i : Nat) (x : Link) : (s.setLink i x).rsvw = s.rsvw := rfl
@[simp] theorem State.setLink_dual (s : State) (i : Nat) (x : Link) : (s.setLink i x).dual = s.dual := rfl
@[simp] theorem State.setLink_sint (s : State) (i : Nat) (x : Link) : (s.setLink i x).sint = s.sint := rfl
@[simp] theorem State.setLink_sintNow (s : State) (i : Nat) (x : Link) : (s.setLink i x).sintNow = s.sintNow := rfl
@[simp] theorem State.setLink_svec (s : State) (i : Nat) (x : Link) : (s.setLink i x).svec = s.svec := rfl
@[simp] theorem State.setLink_sien (s : State) (i : Nat) (x : Link) : (s.setLink i x).sien = s.sien := rfl
@[simp] theorem State.setLink_hwbase (s : State) (i : Nat) (x : Link) : (s.setLink i x).hwbase = s.hwbase := rfl
@[simp] theorem State.setLink_href (s : State) (i : Nat) (x : Link) : (s.setLink i x).href = s.href := rfl
@[simp] theorem State.setLink_stageN (s : State) (i : Nat) (x : Link) : (s.setLink i x).stageN = s.stageN := rfl
@[simp] theorem State.setLink_stageA (s : State) (i : Nat) (x : Link) : (s.setLink i x).stageA = s.stageA := rfl
@[simp] theorem State.setLink_staged (s : State) (i : Nat) (x : Link) : (s.setLink i x).staged = s.staged := rfl
@[simp] theorem State.setLink_minVer (s : State) (i : Nat) (x : Link) : (s.setLink i x).minVer = s.minVer := rfl
@[simp] theorem State.setLink_hostMap (s : State) (i : Nat) (x : Link) : (s.setLink i x).hostMap = s.hostMap := rfl
@[simp] theorem State.setLink_msix (s : State) (i : Nat) (x : Link) : (s.setLink i x).msix = s.msix := rfl
@[simp] theorem State.setLink_msixPend (s : State) (i : Nat) (x : Link) : (s.setLink i x).msixPend = s.msixPend := rfl
@[simp] theorem State.setLink_msixMask (s : State) (i : Nat) (x : Link) : (s.setLink i x).msixMask = s.msixMask := rfl
@[simp] theorem State.setLink_msixDue (s : State) (i : Nat) (x : Link) : (s.setLink i x).msixDue = s.msixDue := rfl
@[simp] theorem State.setLink_clkStep (s : State) (i : Nat) (x : Link) : (s.setLink i x).clkStep = s.clkStep := rfl
@[simp] theorem State.setLink_clkStepNew (s : State) (i : Nat) (x : Link) : (s.setLink i x).clkStepNew = s.clkStepNew := rfl
@[simp] theorem State.setLink_clkStepCfg (s : State) (i : Nat) (x : Link) : (s.setLink i x).clkStepCfg = s.clkStepCfg := rfl
@[simp] theorem State.setLink_tj (s : State) (i : Nat) (x : Link) : (s.setLink i x).tj = s.tj := rfl
@[simp] theorem State.setLink_coolFrom (s : State) (i : Nat) (x : Link) : (s.setLink i x).coolFrom = s.coolFrom := rfl
@[simp] theorem State.setLink_relief (s : State) (i : Nat) (x : Link) : (s.setLink i x).relief = s.relief := rfl
@[simp] theorem State.setLink_channels (s : State) (i : Nat) (x : Link) : (s.setLink i x).channels = s.channels := rfl
@[simp] theorem State.setLink_ages (s : State) (i : Nat) (x : Link) : (s.setLink i x).ages = s.ages := rfl

/-! ## setQueue -/

@[simp] theorem State.setQueue_agenda (s : State) (i : Nat) (x : Queue) : (s.setQueue i x).agenda = s.agenda := rfl
@[simp] theorem State.setQueue_phase (s : State) (i : Nat) (x : Queue) : (s.setQueue i x).phase = s.phase := rfl
@[simp] theorem State.setQueue_focus (s : State) (i : Nat) (x : Queue) : (s.setQueue i x).focus = s.focus := rfl
@[simp] theorem State.setQueue_lnFocus (s : State) (i : Nat) (x : Queue) : (s.setQueue i x).lnFocus = s.lnFocus := rfl
@[simp] theorem State.setQueue_free (s : State) (i : Nat) (x : Queue) : (s.setQueue i x).free = s.free := rfl
@[simp] theorem State.setQueue_out (s : State) (i : Nat) (x : Queue) : (s.setQueue i x).out = s.out := rfl
@[simp] theorem State.setQueue_acted (s : State) (i : Nat) (x : Queue) : (s.setQueue i x).acted = s.acted := rfl
@[simp] theorem State.setQueue_clk (s : State) (i : Nat) (x : Queue) : (s.setQueue i x).clk = s.clk := rfl
@[simp] theorem State.setQueue_timeU (s : State) (i : Nat) (x : Queue) : (s.setQueue i x).timeU = s.timeU := rfl
@[simp] theorem State.setQueue_timeStep (s : State) (i : Nat) (x : Queue) : (s.setQueue i x).timeStep = s.timeStep := rfl
@[simp] theorem State.setQueue_timeLog (s : State) (i : Nat) (x : Queue) : (s.setQueue i x).timeLog = s.timeLog := rfl
@[simp] theorem State.setQueue_ppm (s : State) (i : Nat) (x : Queue) : (s.setQueue i x).ppm = s.ppm := rfl
@[simp] theorem State.setQueue_lock (s : State) (i : Nat) (x : Queue) : (s.setQueue i x).lock = s.lock := rfl
@[simp] theorem State.setQueue_hold (s : State) (i : Nat) (x : Queue) : (s.setQueue i x).hold = s.hold := rfl
@[simp] theorem State.setQueue_stepped (s : State) (i : Nat) (x : Queue) : (s.setQueue i x).stepped = s.stepped := rfl
@[simp] theorem State.setQueue_tbPort (s : State) (i : Nat) (x : Queue) : (s.setQueue i x).tbPort = s.tbPort := rfl
@[simp] theorem State.setQueue_offs (s : State) (i : Nat) (x : Queue) : (s.setQueue i x).offs = s.offs := rfl
@[simp] theorem State.setQueue_steps (s : State) (i : Nat) (x : Queue) : (s.setQueue i x).steps = s.steps := rfl
@[simp] theorem State.setQueue_everLocked (s : State) (i : Nat) (x : Queue) : (s.setQueue i x).everLocked = s.everLocked := rfl
@[simp] theorem State.setQueue_latches (s : State) (i : Nat) (x : Queue) : (s.setQueue i x).latches = s.latches := rfl
@[simp] theorem State.setQueue_mem (s : State) (i : Nat) (x : Queue) : (s.setQueue i x).mem = s.mem := rfl
@[simp] theorem State.setQueue_ro (s : State) (i : Nat) (x : Queue) : (s.setQueue i x).ro = s.ro := rfl
@[simp] theorem State.setQueue_verified (s : State) (i : Nat) (x : Queue) : (s.setQueue i x).verified = s.verified := rfl
@[simp] theorem State.setQueue_ctxs (s : State) (i : Nat) (x : Queue) : (s.setQueue i x).ctxs = s.ctxs := rfl
@[simp] theorem State.setQueue_cores (s : State) (i : Nat) (x : Queue) : (s.setQueue i x).cores = s.cores := rfl
@[simp] theorem State.setQueue_mxcap (s : State) (i : Nat) (x : Queue) : (s.setQueue i x).mxcap = s.mxcap := rfl
@[simp] theorem State.setQueue_mxcapNew (s : State) (i : Nat) (x : Queue) : (s.setQueue i x).mxcapNew = s.mxcapNew := rfl
@[simp] theorem State.setQueue_mxcapCfg (s : State) (i : Nat) (x : Queue) : (s.setQueue i x).mxcapCfg = s.mxcapCfg := rfl
@[simp] theorem State.setQueue_streams (s : State) (i : Nat) (x : Queue) : (s.setQueue i x).streams = s.streams := rfl
@[simp] theorem State.setQueue_procs (s : State) (i : Nat) (x : Queue) : (s.setQueue i x).procs = s.procs := rfl
@[simp] theorem State.setQueue_almanac (s : State) (i : Nat) (x : Queue) : (s.setQueue i x).almanac = s.almanac := rfl
@[simp] theorem State.setQueue_rules (s : State) (i : Nat) (x : Queue) : (s.setQueue i x).rules = s.rules := rfl
@[simp] theorem State.setQueue_alFree (s : State) (i : Nat) (x : Queue) : (s.setQueue i x).alFree = s.alFree := rfl
@[simp] theorem State.setQueue_alTake (s : State) (i : Nat) (x : Queue) : (s.setQueue i x).alTake = s.alTake := rfl
@[simp] theorem State.setQueue_alWrites (s : State) (i : Nat) (x : Queue) : (s.setQueue i x).alWrites = s.alWrites := rfl
@[simp] theorem State.setQueue_bdrop (s : State) (i : Nat) (x : Queue) : (s.setQueue i x).bdrop = s.bdrop := rfl
@[simp] theorem State.setQueue_bfail (s : State) (i : Nat) (x : Queue) : (s.setQueue i x).bfail = s.bfail := rfl
@[simp] theorem State.setQueue_links (s : State) (i : Nat) (x : Queue) : (s.setQueue i x).links = s.links := rfl
@[simp] theorem State.setQueue_queues (s : State) (i : Nat) (x : Queue) : (s.setQueue i x).queues = tabSet s.queues i x := rfl
@[simp] theorem State.setQueue_parts (s : State) (i : Nat) (x : Queue) : (s.setQueue i x).parts = s.parts := rfl
@[simp] theorem State.setQueue_launches (s : State) (i : Nat) (x : Queue) : (s.setQueue i x).launches = s.launches := rfl
@[simp] theorem State.setQueue_faults (s : State) (i : Nat) (x : Queue) : (s.setQueue i x).faults = s.faults := rfl
@[simp] theorem State.setQueue_zeroed (s : State) (i : Nat) (x : Queue) : (s.setQueue i x).zeroed = s.zeroed := rfl
@[simp] theorem State.setQueue_swapReq (s : State) (i : Nat) (x : Queue) : (s.setQueue i x).swapReq = s.swapReq := rfl
@[simp] theorem State.setQueue_swapped (s : State) (i : Nat) (x : Queue) : (s.setQueue i x).swapped = s.swapped := rfl
@[simp] theorem State.setQueue_dispClk (s : State) (i : Nat) (x : Queue) : (s.setQueue i x).dispClk = s.dispClk := rfl
@[simp] theorem State.setQueue_act (s : State) (i : Nat) (x : Queue) : (s.setQueue i x).act = s.act := rfl
@[simp] theorem State.setQueue_sby (s : State) (i : Nat) (x : Queue) : (s.setQueue i x).sby = s.sby := rfl
@[simp] theorem State.setQueue_cmdst (s : State) (i : Nat) (x : Queue) : (s.setQueue i x).cmdst = s.cmdst := rfl
@[simp] theorem State.setQueue_tsver (s : State) (i : Nat) (x : Queue) : (s.setQueue i x).tsver = s.tsver := rfl
@[simp] theorem State.setQueue_imgver (s : State) (i : Nat) (x : Queue) : (s.setQueue i x).imgver = s.imgver := rfl
@[simp] theorem State.setQueue_fwdig (s : State) (i : Nat) (x : Queue) : (s.setQueue i x).fwdig = s.fwdig := rfl
@[simp] theorem State.setQueue_newImg (s : State) (i : Nat) (x : Queue) : (s.setQueue i x).newImg = s.newImg := rfl
@[simp] theorem State.setQueue_fwimg (s : State) (i : Nat) (x : Queue) : (s.setQueue i x).fwimg = s.fwimg := rfl
@[simp] theorem State.setQueue_fwbufN (s : State) (i : Nat) (x : Queue) : (s.setQueue i x).fwbufN = s.fwbufN := rfl
@[simp] theorem State.setQueue_fwbufA (s : State) (i : Nat) (x : Queue) : (s.setQueue i x).fwbufA = s.fwbufA := rfl
@[simp] theorem State.setQueue_pausedAt (s : State) (i : Nat) (x : Queue) : (s.setQueue i x).pausedAt = s.pausedAt := rfl
@[simp] theorem State.setQueue_remap (s : State) (i : Nat) (x : Queue) : (s.setQueue i x).remap = s.remap := rfl
@[simp] theorem State.setQueue_boot (s : State) (i : Nat) (x : Queue) : (s.setQueue i x).boot = s.boot := rfl
@[simp] theorem State.setQueue_phaseDev (s : State) (i : Nat) (x : Queue) : (s.setQueue i x).phaseDev = s.phaseDev := rfl
@[simp] theorem State.setQueue_rsvw (s : State) (i : Nat) (x : Queue) : (s.setQueue i x).rsvw = s.rsvw := rfl
@[simp] theorem State.setQueue_dual (s : State) (i : Nat) (x : Queue) : (s.setQueue i x).dual = s.dual := rfl
@[simp] theorem State.setQueue_sint (s : State) (i : Nat) (x : Queue) : (s.setQueue i x).sint = s.sint := rfl
@[simp] theorem State.setQueue_sintNow (s : State) (i : Nat) (x : Queue) : (s.setQueue i x).sintNow = s.sintNow := rfl
@[simp] theorem State.setQueue_svec (s : State) (i : Nat) (x : Queue) : (s.setQueue i x).svec = s.svec := rfl
@[simp] theorem State.setQueue_sien (s : State) (i : Nat) (x : Queue) : (s.setQueue i x).sien = s.sien := rfl
@[simp] theorem State.setQueue_hwbase (s : State) (i : Nat) (x : Queue) : (s.setQueue i x).hwbase = s.hwbase := rfl
@[simp] theorem State.setQueue_href (s : State) (i : Nat) (x : Queue) : (s.setQueue i x).href = s.href := rfl
@[simp] theorem State.setQueue_stageN (s : State) (i : Nat) (x : Queue) : (s.setQueue i x).stageN = s.stageN := rfl
@[simp] theorem State.setQueue_stageA (s : State) (i : Nat) (x : Queue) : (s.setQueue i x).stageA = s.stageA := rfl
@[simp] theorem State.setQueue_staged (s : State) (i : Nat) (x : Queue) : (s.setQueue i x).staged = s.staged := rfl
@[simp] theorem State.setQueue_minVer (s : State) (i : Nat) (x : Queue) : (s.setQueue i x).minVer = s.minVer := rfl
@[simp] theorem State.setQueue_hostMap (s : State) (i : Nat) (x : Queue) : (s.setQueue i x).hostMap = s.hostMap := rfl
@[simp] theorem State.setQueue_msix (s : State) (i : Nat) (x : Queue) : (s.setQueue i x).msix = s.msix := rfl
@[simp] theorem State.setQueue_msixPend (s : State) (i : Nat) (x : Queue) : (s.setQueue i x).msixPend = s.msixPend := rfl
@[simp] theorem State.setQueue_msixMask (s : State) (i : Nat) (x : Queue) : (s.setQueue i x).msixMask = s.msixMask := rfl
@[simp] theorem State.setQueue_msixDue (s : State) (i : Nat) (x : Queue) : (s.setQueue i x).msixDue = s.msixDue := rfl
@[simp] theorem State.setQueue_clkStep (s : State) (i : Nat) (x : Queue) : (s.setQueue i x).clkStep = s.clkStep := rfl
@[simp] theorem State.setQueue_clkStepNew (s : State) (i : Nat) (x : Queue) : (s.setQueue i x).clkStepNew = s.clkStepNew := rfl
@[simp] theorem State.setQueue_clkStepCfg (s : State) (i : Nat) (x : Queue) : (s.setQueue i x).clkStepCfg = s.clkStepCfg := rfl
@[simp] theorem State.setQueue_tj (s : State) (i : Nat) (x : Queue) : (s.setQueue i x).tj = s.tj := rfl
@[simp] theorem State.setQueue_coolFrom (s : State) (i : Nat) (x : Queue) : (s.setQueue i x).coolFrom = s.coolFrom := rfl
@[simp] theorem State.setQueue_relief (s : State) (i : Nat) (x : Queue) : (s.setQueue i x).relief = s.relief := rfl
@[simp] theorem State.setQueue_channels (s : State) (i : Nat) (x : Queue) : (s.setQueue i x).channels = s.channels := rfl
@[simp] theorem State.setQueue_ages (s : State) (i : Nat) (x : Queue) : (s.setQueue i x).ages = s.ages := rfl

/-! ## setPart -/

@[simp] theorem State.setPart_agenda (s : State) (i : Nat) (x : Part) : (s.setPart i x).agenda = s.agenda := rfl
@[simp] theorem State.setPart_phase (s : State) (i : Nat) (x : Part) : (s.setPart i x).phase = s.phase := rfl
@[simp] theorem State.setPart_focus (s : State) (i : Nat) (x : Part) : (s.setPart i x).focus = s.focus := rfl
@[simp] theorem State.setPart_lnFocus (s : State) (i : Nat) (x : Part) : (s.setPart i x).lnFocus = s.lnFocus := rfl
@[simp] theorem State.setPart_free (s : State) (i : Nat) (x : Part) : (s.setPart i x).free = s.free := rfl
@[simp] theorem State.setPart_out (s : State) (i : Nat) (x : Part) : (s.setPart i x).out = s.out := rfl
@[simp] theorem State.setPart_acted (s : State) (i : Nat) (x : Part) : (s.setPart i x).acted = s.acted := rfl
@[simp] theorem State.setPart_clk (s : State) (i : Nat) (x : Part) : (s.setPart i x).clk = s.clk := rfl
@[simp] theorem State.setPart_timeU (s : State) (i : Nat) (x : Part) : (s.setPart i x).timeU = s.timeU := rfl
@[simp] theorem State.setPart_timeStep (s : State) (i : Nat) (x : Part) : (s.setPart i x).timeStep = s.timeStep := rfl
@[simp] theorem State.setPart_timeLog (s : State) (i : Nat) (x : Part) : (s.setPart i x).timeLog = s.timeLog := rfl
@[simp] theorem State.setPart_ppm (s : State) (i : Nat) (x : Part) : (s.setPart i x).ppm = s.ppm := rfl
@[simp] theorem State.setPart_lock (s : State) (i : Nat) (x : Part) : (s.setPart i x).lock = s.lock := rfl
@[simp] theorem State.setPart_hold (s : State) (i : Nat) (x : Part) : (s.setPart i x).hold = s.hold := rfl
@[simp] theorem State.setPart_stepped (s : State) (i : Nat) (x : Part) : (s.setPart i x).stepped = s.stepped := rfl
@[simp] theorem State.setPart_tbPort (s : State) (i : Nat) (x : Part) : (s.setPart i x).tbPort = s.tbPort := rfl
@[simp] theorem State.setPart_offs (s : State) (i : Nat) (x : Part) : (s.setPart i x).offs = s.offs := rfl
@[simp] theorem State.setPart_steps (s : State) (i : Nat) (x : Part) : (s.setPart i x).steps = s.steps := rfl
@[simp] theorem State.setPart_everLocked (s : State) (i : Nat) (x : Part) : (s.setPart i x).everLocked = s.everLocked := rfl
@[simp] theorem State.setPart_latches (s : State) (i : Nat) (x : Part) : (s.setPart i x).latches = s.latches := rfl
@[simp] theorem State.setPart_mem (s : State) (i : Nat) (x : Part) : (s.setPart i x).mem = s.mem := rfl
@[simp] theorem State.setPart_ro (s : State) (i : Nat) (x : Part) : (s.setPart i x).ro = s.ro := rfl
@[simp] theorem State.setPart_verified (s : State) (i : Nat) (x : Part) : (s.setPart i x).verified = s.verified := rfl
@[simp] theorem State.setPart_ctxs (s : State) (i : Nat) (x : Part) : (s.setPart i x).ctxs = s.ctxs := rfl
@[simp] theorem State.setPart_cores (s : State) (i : Nat) (x : Part) : (s.setPart i x).cores = s.cores := rfl
@[simp] theorem State.setPart_mxcap (s : State) (i : Nat) (x : Part) : (s.setPart i x).mxcap = s.mxcap := rfl
@[simp] theorem State.setPart_mxcapNew (s : State) (i : Nat) (x : Part) : (s.setPart i x).mxcapNew = s.mxcapNew := rfl
@[simp] theorem State.setPart_mxcapCfg (s : State) (i : Nat) (x : Part) : (s.setPart i x).mxcapCfg = s.mxcapCfg := rfl
@[simp] theorem State.setPart_streams (s : State) (i : Nat) (x : Part) : (s.setPart i x).streams = s.streams := rfl
@[simp] theorem State.setPart_procs (s : State) (i : Nat) (x : Part) : (s.setPart i x).procs = s.procs := rfl
@[simp] theorem State.setPart_almanac (s : State) (i : Nat) (x : Part) : (s.setPart i x).almanac = s.almanac := rfl
@[simp] theorem State.setPart_rules (s : State) (i : Nat) (x : Part) : (s.setPart i x).rules = s.rules := rfl
@[simp] theorem State.setPart_alFree (s : State) (i : Nat) (x : Part) : (s.setPart i x).alFree = s.alFree := rfl
@[simp] theorem State.setPart_alTake (s : State) (i : Nat) (x : Part) : (s.setPart i x).alTake = s.alTake := rfl
@[simp] theorem State.setPart_alWrites (s : State) (i : Nat) (x : Part) : (s.setPart i x).alWrites = s.alWrites := rfl
@[simp] theorem State.setPart_bdrop (s : State) (i : Nat) (x : Part) : (s.setPart i x).bdrop = s.bdrop := rfl
@[simp] theorem State.setPart_bfail (s : State) (i : Nat) (x : Part) : (s.setPart i x).bfail = s.bfail := rfl
@[simp] theorem State.setPart_links (s : State) (i : Nat) (x : Part) : (s.setPart i x).links = s.links := rfl
@[simp] theorem State.setPart_queues (s : State) (i : Nat) (x : Part) : (s.setPart i x).queues = s.queues := rfl
@[simp] theorem State.setPart_parts (s : State) (i : Nat) (x : Part) : (s.setPart i x).parts = tabSet s.parts i x := rfl
@[simp] theorem State.setPart_launches (s : State) (i : Nat) (x : Part) : (s.setPart i x).launches = s.launches := rfl
@[simp] theorem State.setPart_faults (s : State) (i : Nat) (x : Part) : (s.setPart i x).faults = s.faults := rfl
@[simp] theorem State.setPart_zeroed (s : State) (i : Nat) (x : Part) : (s.setPart i x).zeroed = s.zeroed := rfl
@[simp] theorem State.setPart_swapReq (s : State) (i : Nat) (x : Part) : (s.setPart i x).swapReq = s.swapReq := rfl
@[simp] theorem State.setPart_swapped (s : State) (i : Nat) (x : Part) : (s.setPart i x).swapped = s.swapped := rfl
@[simp] theorem State.setPart_dispClk (s : State) (i : Nat) (x : Part) : (s.setPart i x).dispClk = s.dispClk := rfl
@[simp] theorem State.setPart_act (s : State) (i : Nat) (x : Part) : (s.setPart i x).act = s.act := rfl
@[simp] theorem State.setPart_sby (s : State) (i : Nat) (x : Part) : (s.setPart i x).sby = s.sby := rfl
@[simp] theorem State.setPart_cmdst (s : State) (i : Nat) (x : Part) : (s.setPart i x).cmdst = s.cmdst := rfl
@[simp] theorem State.setPart_tsver (s : State) (i : Nat) (x : Part) : (s.setPart i x).tsver = s.tsver := rfl
@[simp] theorem State.setPart_imgver (s : State) (i : Nat) (x : Part) : (s.setPart i x).imgver = s.imgver := rfl
@[simp] theorem State.setPart_fwdig (s : State) (i : Nat) (x : Part) : (s.setPart i x).fwdig = s.fwdig := rfl
@[simp] theorem State.setPart_newImg (s : State) (i : Nat) (x : Part) : (s.setPart i x).newImg = s.newImg := rfl
@[simp] theorem State.setPart_fwimg (s : State) (i : Nat) (x : Part) : (s.setPart i x).fwimg = s.fwimg := rfl
@[simp] theorem State.setPart_fwbufN (s : State) (i : Nat) (x : Part) : (s.setPart i x).fwbufN = s.fwbufN := rfl
@[simp] theorem State.setPart_fwbufA (s : State) (i : Nat) (x : Part) : (s.setPart i x).fwbufA = s.fwbufA := rfl
@[simp] theorem State.setPart_pausedAt (s : State) (i : Nat) (x : Part) : (s.setPart i x).pausedAt = s.pausedAt := rfl
@[simp] theorem State.setPart_remap (s : State) (i : Nat) (x : Part) : (s.setPart i x).remap = s.remap := rfl
@[simp] theorem State.setPart_boot (s : State) (i : Nat) (x : Part) : (s.setPart i x).boot = s.boot := rfl
@[simp] theorem State.setPart_phaseDev (s : State) (i : Nat) (x : Part) : (s.setPart i x).phaseDev = s.phaseDev := rfl
@[simp] theorem State.setPart_rsvw (s : State) (i : Nat) (x : Part) : (s.setPart i x).rsvw = s.rsvw := rfl
@[simp] theorem State.setPart_dual (s : State) (i : Nat) (x : Part) : (s.setPart i x).dual = s.dual := rfl
@[simp] theorem State.setPart_sint (s : State) (i : Nat) (x : Part) : (s.setPart i x).sint = s.sint := rfl
@[simp] theorem State.setPart_sintNow (s : State) (i : Nat) (x : Part) : (s.setPart i x).sintNow = s.sintNow := rfl
@[simp] theorem State.setPart_svec (s : State) (i : Nat) (x : Part) : (s.setPart i x).svec = s.svec := rfl
@[simp] theorem State.setPart_sien (s : State) (i : Nat) (x : Part) : (s.setPart i x).sien = s.sien := rfl
@[simp] theorem State.setPart_hwbase (s : State) (i : Nat) (x : Part) : (s.setPart i x).hwbase = s.hwbase := rfl
@[simp] theorem State.setPart_href (s : State) (i : Nat) (x : Part) : (s.setPart i x).href = s.href := rfl
@[simp] theorem State.setPart_stageN (s : State) (i : Nat) (x : Part) : (s.setPart i x).stageN = s.stageN := rfl
@[simp] theorem State.setPart_stageA (s : State) (i : Nat) (x : Part) : (s.setPart i x).stageA = s.stageA := rfl
@[simp] theorem State.setPart_staged (s : State) (i : Nat) (x : Part) : (s.setPart i x).staged = s.staged := rfl
@[simp] theorem State.setPart_minVer (s : State) (i : Nat) (x : Part) : (s.setPart i x).minVer = s.minVer := rfl
@[simp] theorem State.setPart_hostMap (s : State) (i : Nat) (x : Part) : (s.setPart i x).hostMap = s.hostMap := rfl
@[simp] theorem State.setPart_msix (s : State) (i : Nat) (x : Part) : (s.setPart i x).msix = s.msix := rfl
@[simp] theorem State.setPart_msixPend (s : State) (i : Nat) (x : Part) : (s.setPart i x).msixPend = s.msixPend := rfl
@[simp] theorem State.setPart_msixMask (s : State) (i : Nat) (x : Part) : (s.setPart i x).msixMask = s.msixMask := rfl
@[simp] theorem State.setPart_msixDue (s : State) (i : Nat) (x : Part) : (s.setPart i x).msixDue = s.msixDue := rfl
@[simp] theorem State.setPart_clkStep (s : State) (i : Nat) (x : Part) : (s.setPart i x).clkStep = s.clkStep := rfl
@[simp] theorem State.setPart_clkStepNew (s : State) (i : Nat) (x : Part) : (s.setPart i x).clkStepNew = s.clkStepNew := rfl
@[simp] theorem State.setPart_clkStepCfg (s : State) (i : Nat) (x : Part) : (s.setPart i x).clkStepCfg = s.clkStepCfg := rfl
@[simp] theorem State.setPart_tj (s : State) (i : Nat) (x : Part) : (s.setPart i x).tj = s.tj := rfl
@[simp] theorem State.setPart_coolFrom (s : State) (i : Nat) (x : Part) : (s.setPart i x).coolFrom = s.coolFrom := rfl
@[simp] theorem State.setPart_relief (s : State) (i : Nat) (x : Part) : (s.setPart i x).relief = s.relief := rfl
@[simp] theorem State.setPart_channels (s : State) (i : Nat) (x : Part) : (s.setPart i x).channels = s.channels := rfl
@[simp] theorem State.setPart_ages (s : State) (i : Nat) (x : Part) : (s.setPart i x).ages = s.ages := rfl

/-! ## send -/

@[simp] theorem State.send_agenda (s : State) (o : Out) : (s.send o).agenda = s.agenda := rfl
@[simp] theorem State.send_phase (s : State) (o : Out) : (s.send o).phase = s.phase := rfl
@[simp] theorem State.send_focus (s : State) (o : Out) : (s.send o).focus = s.focus := rfl
@[simp] theorem State.send_lnFocus (s : State) (o : Out) : (s.send o).lnFocus = s.lnFocus := rfl
@[simp] theorem State.send_free (s : State) (o : Out) : (s.send o).free = s.free := rfl
@[simp] theorem State.send_out (s : State) (o : Out) : (s.send o).out = s.out ++ [o] := rfl
@[simp] theorem State.send_acted (s : State) (o : Out) : (s.send o).acted = s.acted := rfl
@[simp] theorem State.send_clk (s : State) (o : Out) : (s.send o).clk = s.clk := rfl
@[simp] theorem State.send_timeU (s : State) (o : Out) : (s.send o).timeU = s.timeU := rfl
@[simp] theorem State.send_timeStep (s : State) (o : Out) : (s.send o).timeStep = s.timeStep := rfl
@[simp] theorem State.send_timeLog (s : State) (o : Out) : (s.send o).timeLog = s.timeLog := rfl
@[simp] theorem State.send_ppm (s : State) (o : Out) : (s.send o).ppm = s.ppm := rfl
@[simp] theorem State.send_lock (s : State) (o : Out) : (s.send o).lock = s.lock := rfl
@[simp] theorem State.send_hold (s : State) (o : Out) : (s.send o).hold = s.hold := rfl
@[simp] theorem State.send_stepped (s : State) (o : Out) : (s.send o).stepped = s.stepped := rfl
@[simp] theorem State.send_tbPort (s : State) (o : Out) : (s.send o).tbPort = s.tbPort := rfl
@[simp] theorem State.send_offs (s : State) (o : Out) : (s.send o).offs = s.offs := rfl
@[simp] theorem State.send_steps (s : State) (o : Out) : (s.send o).steps = s.steps := rfl
@[simp] theorem State.send_everLocked (s : State) (o : Out) : (s.send o).everLocked = s.everLocked := rfl
@[simp] theorem State.send_latches (s : State) (o : Out) : (s.send o).latches = s.latches := rfl
@[simp] theorem State.send_mem (s : State) (o : Out) : (s.send o).mem = s.mem := rfl
@[simp] theorem State.send_ro (s : State) (o : Out) : (s.send o).ro = s.ro := rfl
@[simp] theorem State.send_verified (s : State) (o : Out) : (s.send o).verified = s.verified := rfl
@[simp] theorem State.send_ctxs (s : State) (o : Out) : (s.send o).ctxs = s.ctxs := rfl
@[simp] theorem State.send_cores (s : State) (o : Out) : (s.send o).cores = s.cores := rfl
@[simp] theorem State.send_mxcap (s : State) (o : Out) : (s.send o).mxcap = s.mxcap := rfl
@[simp] theorem State.send_mxcapNew (s : State) (o : Out) : (s.send o).mxcapNew = s.mxcapNew := rfl
@[simp] theorem State.send_mxcapCfg (s : State) (o : Out) : (s.send o).mxcapCfg = s.mxcapCfg := rfl
@[simp] theorem State.send_streams (s : State) (o : Out) : (s.send o).streams = s.streams := rfl
@[simp] theorem State.send_procs (s : State) (o : Out) : (s.send o).procs = s.procs := rfl
@[simp] theorem State.send_almanac (s : State) (o : Out) : (s.send o).almanac = s.almanac := rfl
@[simp] theorem State.send_rules (s : State) (o : Out) : (s.send o).rules = s.rules := rfl
@[simp] theorem State.send_alFree (s : State) (o : Out) : (s.send o).alFree = s.alFree := rfl
@[simp] theorem State.send_alTake (s : State) (o : Out) : (s.send o).alTake = s.alTake := rfl
@[simp] theorem State.send_alWrites (s : State) (o : Out) : (s.send o).alWrites = s.alWrites := rfl
@[simp] theorem State.send_bdrop (s : State) (o : Out) : (s.send o).bdrop = s.bdrop := rfl
@[simp] theorem State.send_bfail (s : State) (o : Out) : (s.send o).bfail = s.bfail := rfl
@[simp] theorem State.send_links (s : State) (o : Out) : (s.send o).links = s.links := rfl
@[simp] theorem State.send_queues (s : State) (o : Out) : (s.send o).queues = s.queues := rfl
@[simp] theorem State.send_parts (s : State) (o : Out) : (s.send o).parts = s.parts := rfl
@[simp] theorem State.send_launches (s : State) (o : Out) : (s.send o).launches = s.launches := rfl
@[simp] theorem State.send_faults (s : State) (o : Out) : (s.send o).faults = s.faults := rfl
@[simp] theorem State.send_zeroed (s : State) (o : Out) : (s.send o).zeroed = s.zeroed := rfl
@[simp] theorem State.send_swapReq (s : State) (o : Out) : (s.send o).swapReq = s.swapReq := rfl
@[simp] theorem State.send_swapped (s : State) (o : Out) : (s.send o).swapped = s.swapped := rfl
@[simp] theorem State.send_dispClk (s : State) (o : Out) : (s.send o).dispClk = s.dispClk := rfl
@[simp] theorem State.send_act (s : State) (o : Out) : (s.send o).act = s.act := rfl
@[simp] theorem State.send_sby (s : State) (o : Out) : (s.send o).sby = s.sby := rfl
@[simp] theorem State.send_cmdst (s : State) (o : Out) : (s.send o).cmdst = s.cmdst := rfl
@[simp] theorem State.send_tsver (s : State) (o : Out) : (s.send o).tsver = s.tsver := rfl
@[simp] theorem State.send_imgver (s : State) (o : Out) : (s.send o).imgver = s.imgver := rfl
@[simp] theorem State.send_fwdig (s : State) (o : Out) : (s.send o).fwdig = s.fwdig := rfl
@[simp] theorem State.send_newImg (s : State) (o : Out) : (s.send o).newImg = s.newImg := rfl
@[simp] theorem State.send_fwimg (s : State) (o : Out) : (s.send o).fwimg = s.fwimg := rfl
@[simp] theorem State.send_fwbufN (s : State) (o : Out) : (s.send o).fwbufN = s.fwbufN := rfl
@[simp] theorem State.send_fwbufA (s : State) (o : Out) : (s.send o).fwbufA = s.fwbufA := rfl
@[simp] theorem State.send_pausedAt (s : State) (o : Out) : (s.send o).pausedAt = s.pausedAt := rfl
@[simp] theorem State.send_remap (s : State) (o : Out) : (s.send o).remap = s.remap := rfl
@[simp] theorem State.send_boot (s : State) (o : Out) : (s.send o).boot = s.boot := rfl
@[simp] theorem State.send_phaseDev (s : State) (o : Out) : (s.send o).phaseDev = s.phaseDev := rfl
@[simp] theorem State.send_rsvw (s : State) (o : Out) : (s.send o).rsvw = s.rsvw := rfl
@[simp] theorem State.send_dual (s : State) (o : Out) : (s.send o).dual = s.dual := rfl
@[simp] theorem State.send_sint (s : State) (o : Out) : (s.send o).sint = s.sint := rfl
@[simp] theorem State.send_sintNow (s : State) (o : Out) : (s.send o).sintNow = s.sintNow := rfl
@[simp] theorem State.send_svec (s : State) (o : Out) : (s.send o).svec = s.svec := rfl
@[simp] theorem State.send_sien (s : State) (o : Out) : (s.send o).sien = s.sien := rfl
@[simp] theorem State.send_hwbase (s : State) (o : Out) : (s.send o).hwbase = s.hwbase := rfl
@[simp] theorem State.send_href (s : State) (o : Out) : (s.send o).href = s.href := rfl
@[simp] theorem State.send_stageN (s : State) (o : Out) : (s.send o).stageN = s.stageN := rfl
@[simp] theorem State.send_stageA (s : State) (o : Out) : (s.send o).stageA = s.stageA := rfl
@[simp] theorem State.send_staged (s : State) (o : Out) : (s.send o).staged = s.staged := rfl
@[simp] theorem State.send_minVer (s : State) (o : Out) : (s.send o).minVer = s.minVer := rfl
@[simp] theorem State.send_hostMap (s : State) (o : Out) : (s.send o).hostMap = s.hostMap := rfl
@[simp] theorem State.send_msix (s : State) (o : Out) : (s.send o).msix = s.msix := rfl
@[simp] theorem State.send_msixPend (s : State) (o : Out) : (s.send o).msixPend = s.msixPend := rfl
@[simp] theorem State.send_msixMask (s : State) (o : Out) : (s.send o).msixMask = s.msixMask := rfl
@[simp] theorem State.send_msixDue (s : State) (o : Out) : (s.send o).msixDue = s.msixDue := rfl
@[simp] theorem State.send_clkStep (s : State) (o : Out) : (s.send o).clkStep = s.clkStep := rfl
@[simp] theorem State.send_clkStepNew (s : State) (o : Out) : (s.send o).clkStepNew = s.clkStepNew := rfl
@[simp] theorem State.send_clkStepCfg (s : State) (o : Out) : (s.send o).clkStepCfg = s.clkStepCfg := rfl
@[simp] theorem State.send_tj (s : State) (o : Out) : (s.send o).tj = s.tj := rfl
@[simp] theorem State.send_coolFrom (s : State) (o : Out) : (s.send o).coolFrom = s.coolFrom := rfl
@[simp] theorem State.send_relief (s : State) (o : Out) : (s.send o).relief = s.relief := rfl
@[simp] theorem State.send_channels (s : State) (o : Out) : (s.send o).channels = s.channels := rfl
@[simp] theorem State.send_ages (s : State) (o : Out) : (s.send o).ages = s.ages := rfl

/-! ## advance -/

@[simp] theorem Context.advance_run (x : Context) (n : Nat) : (x.advance n).run = .run := rfl
@[simp] theorem Context.advance_pc (x : Context) (n : Nat) : (x.advance n).pc = x.pc + BitVec.ofNat 48 n := rfl
@[simp] theorem Context.advance_x (x : Context) (n : Nat) : (x.advance n).x = x.x := rfl
@[simp] theorem Context.advance_loads (x : Context) (n : Nat) : (x.advance n).loads = x.loads := rfl
@[simp] theorem Context.advance_loadNum (x : Context) (n : Nat) : (x.advance n).loadNum = x.loadNum := rfl
@[simp] theorem Context.advance_divs (x : Context) (n : Nat) : (x.advance n).divs = x.divs := rfl
@[simp] theorem Context.advance_sleep (x : Context) (n : Nat) : (x.advance n).sleep = x.sleep := rfl
@[simp] theorem Context.advance_job (x : Context) (n : Nat) : (x.advance n).job = x.job := rfl
@[simp] theorem Context.advance_lastLaunch (x : Context) (n : Nat) : (x.advance n).lastLaunch = x.lastLaunch := rfl
@[simp] theorem Context.advance_await (x : Context) (n : Nat) : (x.advance n).await = x.await := rfl
@[simp] theorem Context.advance_tcmp (x : Context) (n : Nat) : (x.advance n).tcmp = x.tcmp := rfl
@[simp] theorem Context.advance_slipc (x : Context) (n : Nat) : (x.advance n).slipc = x.slipc := rfl
@[simp] theorem Context.advance_slipBlk (x : Context) (n : Nat) : (x.advance n).slipBlk = x.slipBlk := rfl
@[simp] theorem Context.advance_slipCnt (x : Context) (n : Nat) : (x.advance n).slipCnt = x.slipCnt := rfl
@[simp] theorem Context.advance_rcnt (x : Context) (n : Nat) : (x.advance n).rcnt = x.rcnt := rfl
@[simp] theorem Context.advance_fcnt (x : Context) (n : Nat) : (x.advance n).fcnt = x.fcnt := rfl
@[simp] theorem Context.advance_flg (x : Context) (n : Nat) : (x.advance n).flg = x.flg := rfl
@[simp] theorem Context.advance_flgNew (x : Context) (n : Nat) : (x.advance n).flgNew = x.flgNew := rfl
@[simp] theorem Context.advance_ccyc (x : Context) (n : Nat) : (x.advance n).ccyc = x.ccyc := rfl
@[simp] theorem Context.advance_pend (x : Context) (n : Nat) : (x.advance n).pend = x.pend := rfl
@[simp] theorem Context.advance_preq (x : Context) (n : Nat) : (x.advance n).preq = x.preq := rfl
@[simp] theorem Context.advance_seqLate (x : Context) (n : Nat) : (x.advance n).seqLate = x.seqLate := rfl
@[simp] theorem Context.advance_cmt (x : Context) (n : Nat) : (x.advance n).cmt = x.cmt := rfl
@[simp] theorem Context.advance_raddr (x : Context) (n : Nat) : (x.advance n).raddr = x.raddr := rfl
@[simp] theorem Context.advance_tvec (x : Context) (n : Nat) : (x.advance n).tvec = x.tvec := rfl
@[simp] theorem Context.advance_tepc (x : Context) (n : Nat) : (x.advance n).tepc = x.tepc := rfl
@[simp] theorem Context.advance_intr (x : Context) (n : Nat) : (x.advance n).intr = x.intr := rfl
@[simp] theorem Context.advance_cause (x : Context) (n : Nat) : (x.advance n).cause = x.cause := rfl
@[simp] theorem Context.advance_tval (x : Context) (n : Nat) : (x.advance n).tval = x.tval := rfl
@[simp] theorem Context.advance_pie (x : Context) (n : Nat) : (x.advance n).pie = x.pie := rfl
@[simp] theorem Context.advance_inh (x : Context) (n : Nat) : (x.advance n).inh = x.inh := rfl
@[simp] theorem Context.advance_ie (x : Context) (n : Nat) : (x.advance n).ie = x.ie := rfl
@[simp] theorem Context.advance_tscr (x : Context) (n : Nat) : (x.advance n).tscr = x.tscr := rfl
@[simp] theorem Context.advance_shadow (x : Context) (n : Nat) : (x.advance n).shadow = x.shadow := rfl
@[simp] theorem Context.advance_mb (x : Context) (n : Nat) : (x.advance n).mb = x.mb := rfl
@[simp] theorem Context.advance_sem (x : Context) (n : Nat) : (x.advance n).sem = x.sem := rfl
@[simp] theorem Context.advance_fb (x : Context) (n : Nat) : (x.advance n).fb = x.fb := rfl
@[simp] theorem Context.advance_exq (x : Context) (n : Nat) : (x.advance n).exq = x.exq := rfl
@[simp] theorem Context.advance_mxq (x : Context) (n : Nat) : (x.advance n).mxq = x.mxq := rfl
@[simp] theorem Context.advance_fq (x : Context) (n : Nat) : (x.advance n).fq = x.fq := rfl
@[simp] theorem Context.advance_cpq (x : Context) (n : Nat) : (x.advance n).cpq = x.cpq := rfl
@[simp] theorem Context.advance_alq (x : Context) (n : Nat) : (x.advance n).alq = x.alq := rfl
@[simp] theorem Context.advance_alNum (x : Context) (n : Nat) : (x.advance n).alNum = x.alNum := rfl
@[simp] theorem Context.advance_alHalted (x : Context) (n : Nat) : (x.advance n).alHalted = x.alHalted := rfl
@[simp] theorem Context.advance_failed (x : Context) (n : Nat) : (x.advance n).failed = x.failed := rfl
@[simp] theorem Context.advance_wheel (x : Context) (n : Nat) : (x.advance n).wheel = x.wheel := rfl
@[simp] theorem Context.advance_pool (x : Context) (n : Nat) : (x.advance n).pool = x.pool := rfl
@[simp] theorem Context.advance_ex (x : Context) (n : Nat) : (x.advance n).ex = x.ex := rfl
@[simp] theorem Context.advance_ports (x : Context) (n : Nat) : (x.advance n).ports = x.ports := rfl
@[simp] theorem Context.advance_banks (x : Context) (n : Nat) : (x.advance n).banks = x.banks := rfl
@[simp] theorem Context.advance_tables (x : Context) (n : Nat) : (x.advance n).tables = x.tables := rfl
@[simp] theorem Context.advance_mx (x : Context) (n : Nat) : (x.advance n).mx = x.mx := rfl
@[simp] theorem Context.advance_cp (x : Context) (n : Nat) : (x.advance n).cp = x.cp := rfl
@[simp] theorem Context.advance_note (x : Context) (n : Nat) : (x.advance n).note = x.note := rfl

/-! ## commit -/

@[simp] theorem Context.commit_run (x : Context)  : (x.commit).run = x.run := rfl
@[simp] theorem Context.commit_pc (x : Context)  : (x.commit).pc = x.pc := rfl
@[simp] theorem Context.commit_x (x : Context)  : (x.commit).x = x.x := rfl
@[simp] theorem Context.commit_loads (x : Context)  : (x.commit).loads = x.loads := rfl
@[simp] theorem Context.commit_loadNum (x : Context)  : (x.commit).loadNum = x.loadNum := rfl
@[simp] theorem Context.commit_divs (x : Context)  : (x.commit).divs = x.divs := rfl
@[simp] theorem Context.commit_sleep (x : Context)  : (x.commit).sleep = x.sleep := rfl
@[simp] theorem Context.commit_job (x : Context)  : (x.commit).job = x.job := rfl
@[simp] theorem Context.commit_lastLaunch (x : Context)  : (x.commit).lastLaunch = x.lastLaunch := rfl
@[simp] theorem Context.commit_await (x : Context)  : (x.commit).await = x.await := rfl
@[simp] theorem Context.commit_tcmp (x : Context)  : (x.commit).tcmp = x.tcmp := rfl
@[simp] theorem Context.commit_slipc (x : Context)  : (x.commit).slipc = x.slipc := rfl
@[simp] theorem Context.commit_slipBlk (x : Context)  : (x.commit).slipBlk = x.slipBlk := rfl
@[simp] theorem Context.commit_slipCnt (x : Context)  : (x.commit).slipCnt = x.slipCnt := rfl
@[simp] theorem Context.commit_rcnt (x : Context)  : (x.commit).rcnt = x.rcnt := rfl
@[simp] theorem Context.commit_fcnt (x : Context)  : (x.commit).fcnt = x.fcnt := rfl
@[simp] theorem Context.commit_flg (x : Context)  : (x.commit).flg = x.flg := rfl
@[simp] theorem Context.commit_flgNew (x : Context)  : (x.commit).flgNew = x.flgNew := rfl
@[simp] theorem Context.commit_ccyc (x : Context)  : (x.commit).ccyc = x.ccyc := rfl
@[simp] theorem Context.commit_pend (x : Context)  : (x.commit).pend = x.pend := rfl
@[simp] theorem Context.commit_preq (x : Context)  : (x.commit).preq = x.preq := rfl
@[simp] theorem Context.commit_seqLate (x : Context)  : (x.commit).seqLate = x.seqLate := rfl
@[simp] theorem Context.commit_cmt (x : Context)  : (x.commit).cmt = true := rfl
@[simp] theorem Context.commit_raddr (x : Context)  : (x.commit).raddr = x.raddr := rfl
@[simp] theorem Context.commit_tvec (x : Context)  : (x.commit).tvec = x.tvec := rfl
@[simp] theorem Context.commit_tepc (x : Context)  : (x.commit).tepc = x.tepc := rfl
@[simp] theorem Context.commit_intr (x : Context)  : (x.commit).intr = x.intr := rfl
@[simp] theorem Context.commit_cause (x : Context)  : (x.commit).cause = x.cause := rfl
@[simp] theorem Context.commit_tval (x : Context)  : (x.commit).tval = x.tval := rfl
@[simp] theorem Context.commit_pie (x : Context)  : (x.commit).pie = x.pie := rfl
@[simp] theorem Context.commit_inh (x : Context)  : (x.commit).inh = x.inh := rfl
@[simp] theorem Context.commit_ie (x : Context)  : (x.commit).ie = x.ie := rfl
@[simp] theorem Context.commit_tscr (x : Context)  : (x.commit).tscr = x.tscr := rfl
@[simp] theorem Context.commit_shadow (x : Context)  : (x.commit).shadow = x.shadow := rfl
@[simp] theorem Context.commit_mb (x : Context)  : (x.commit).mb = x.mb := rfl
@[simp] theorem Context.commit_sem (x : Context)  : (x.commit).sem = x.sem := rfl
@[simp] theorem Context.commit_fb (x : Context)  : (x.commit).fb = x.fb := rfl
@[simp] theorem Context.commit_exq (x : Context)  : (x.commit).exq = x.exq := rfl
@[simp] theorem Context.commit_mxq (x : Context)  : (x.commit).mxq = x.mxq := rfl
@[simp] theorem Context.commit_fq (x : Context)  : (x.commit).fq = x.fq := rfl
@[simp] theorem Context.commit_cpq (x : Context)  : (x.commit).cpq = x.cpq := rfl
@[simp] theorem Context.commit_alq (x : Context)  : (x.commit).alq = x.alq := rfl
@[simp] theorem Context.commit_alNum (x : Context)  : (x.commit).alNum = x.alNum := rfl
@[simp] theorem Context.commit_alHalted (x : Context)  : (x.commit).alHalted = x.alHalted := rfl
@[simp] theorem Context.commit_failed (x : Context)  : (x.commit).failed = x.failed := rfl
@[simp] theorem Context.commit_wheel (x : Context)  : (x.commit).wheel = x.wheel := rfl
@[simp] theorem Context.commit_pool (x : Context)  : (x.commit).pool = x.pool := rfl
@[simp] theorem Context.commit_ex (x : Context)  : (x.commit).ex = x.ex := rfl
@[simp] theorem Context.commit_ports (x : Context)  : (x.commit).ports = x.ports := rfl
@[simp] theorem Context.commit_banks (x : Context)  : (x.commit).banks = x.banks := rfl
@[simp] theorem Context.commit_tables (x : Context)  : (x.commit).tables = x.tables := rfl
@[simp] theorem Context.commit_mx (x : Context)  : (x.commit).mx = x.mx := rfl
@[simp] theorem Context.commit_cp (x : Context)  : (x.commit).cp = x.cp := rfl
@[simp] theorem Context.commit_note (x : Context)  : (x.commit).note = x.note := rfl

/-! ## setReg -/

@[simp] theorem Context.setReg_run (x : Context) (r : Reg) (v : W64) : (x.setReg r v).run = x.run := by
  unfold Context.setReg; split <;> rfl
@[simp] theorem Context.setReg_pc (x : Context) (r : Reg) (v : W64) : (x.setReg r v).pc = x.pc := by
  unfold Context.setReg; split <;> rfl
@[simp] theorem Context.setReg_loads (x : Context) (r : Reg) (v : W64) : (x.setReg r v).loads = x.loads := by
  unfold Context.setReg; split <;> rfl
@[simp] theorem Context.setReg_loadNum (x : Context) (r : Reg) (v : W64) : (x.setReg r v).loadNum = x.loadNum := by
  unfold Context.setReg; split <;> rfl
@[simp] theorem Context.setReg_divs (x : Context) (r : Reg) (v : W64) : (x.setReg r v).divs = x.divs := by
  unfold Context.setReg; split <;> rfl
@[simp] theorem Context.setReg_sleep (x : Context) (r : Reg) (v : W64) : (x.setReg r v).sleep = x.sleep := by
  unfold Context.setReg; split <;> rfl
@[simp] theorem Context.setReg_job (x : Context) (r : Reg) (v : W64) : (x.setReg r v).job = x.job := by
  unfold Context.setReg; split <;> rfl
@[simp] theorem Context.setReg_lastLaunch (x : Context) (r : Reg) (v : W64) : (x.setReg r v).lastLaunch = x.lastLaunch := by
  unfold Context.setReg; split <;> rfl
@[simp] theorem Context.setReg_await (x : Context) (r : Reg) (v : W64) : (x.setReg r v).await = x.await := by
  unfold Context.setReg; split <;> rfl
@[simp] theorem Context.setReg_tcmp (x : Context) (r : Reg) (v : W64) : (x.setReg r v).tcmp = x.tcmp := by
  unfold Context.setReg; split <;> rfl
@[simp] theorem Context.setReg_slipc (x : Context) (r : Reg) (v : W64) : (x.setReg r v).slipc = x.slipc := by
  unfold Context.setReg; split <;> rfl
@[simp] theorem Context.setReg_slipBlk (x : Context) (r : Reg) (v : W64) : (x.setReg r v).slipBlk = x.slipBlk := by
  unfold Context.setReg; split <;> rfl
@[simp] theorem Context.setReg_slipCnt (x : Context) (r : Reg) (v : W64) : (x.setReg r v).slipCnt = x.slipCnt := by
  unfold Context.setReg; split <;> rfl
@[simp] theorem Context.setReg_rcnt (x : Context) (r : Reg) (v : W64) : (x.setReg r v).rcnt = x.rcnt := by
  unfold Context.setReg; split <;> rfl
@[simp] theorem Context.setReg_fcnt (x : Context) (r : Reg) (v : W64) : (x.setReg r v).fcnt = x.fcnt := by
  unfold Context.setReg; split <;> rfl
@[simp] theorem Context.setReg_flg (x : Context) (r : Reg) (v : W64) : (x.setReg r v).flg = x.flg := by
  unfold Context.setReg; split <;> rfl
@[simp] theorem Context.setReg_flgNew (x : Context) (r : Reg) (v : W64) : (x.setReg r v).flgNew = x.flgNew := by
  unfold Context.setReg; split <;> rfl
@[simp] theorem Context.setReg_ccyc (x : Context) (r : Reg) (v : W64) : (x.setReg r v).ccyc = x.ccyc := by
  unfold Context.setReg; split <;> rfl
@[simp] theorem Context.setReg_pend (x : Context) (r : Reg) (v : W64) : (x.setReg r v).pend = x.pend := by
  unfold Context.setReg; split <;> rfl
@[simp] theorem Context.setReg_preq (x : Context) (r : Reg) (v : W64) : (x.setReg r v).preq = x.preq := by
  unfold Context.setReg; split <;> rfl
@[simp] theorem Context.setReg_seqLate (x : Context) (r : Reg) (v : W64) : (x.setReg r v).seqLate = x.seqLate := by
  unfold Context.setReg; split <;> rfl
@[simp] theorem Context.setReg_cmt (x : Context) (r : Reg) (v : W64) : (x.setReg r v).cmt = x.cmt := by
  unfold Context.setReg; split <;> rfl
@[simp] theorem Context.setReg_raddr (x : Context) (r : Reg) (v : W64) : (x.setReg r v).raddr = x.raddr := by
  unfold Context.setReg; split <;> rfl
@[simp] theorem Context.setReg_tvec (x : Context) (r : Reg) (v : W64) : (x.setReg r v).tvec = x.tvec := by
  unfold Context.setReg; split <;> rfl
@[simp] theorem Context.setReg_tepc (x : Context) (r : Reg) (v : W64) : (x.setReg r v).tepc = x.tepc := by
  unfold Context.setReg; split <;> rfl
@[simp] theorem Context.setReg_intr (x : Context) (r : Reg) (v : W64) : (x.setReg r v).intr = x.intr := by
  unfold Context.setReg; split <;> rfl
@[simp] theorem Context.setReg_cause (x : Context) (r : Reg) (v : W64) : (x.setReg r v).cause = x.cause := by
  unfold Context.setReg; split <;> rfl
@[simp] theorem Context.setReg_tval (x : Context) (r : Reg) (v : W64) : (x.setReg r v).tval = x.tval := by
  unfold Context.setReg; split <;> rfl
@[simp] theorem Context.setReg_pie (x : Context) (r : Reg) (v : W64) : (x.setReg r v).pie = x.pie := by
  unfold Context.setReg; split <;> rfl
@[simp] theorem Context.setReg_inh (x : Context) (r : Reg) (v : W64) : (x.setReg r v).inh = x.inh := by
  unfold Context.setReg; split <;> rfl
@[simp] theorem Context.setReg_ie (x : Context) (r : Reg) (v : W64) : (x.setReg r v).ie = x.ie := by
  unfold Context.setReg; split <;> rfl
@[simp] theorem Context.setReg_tscr (x : Context) (r : Reg) (v : W64) : (x.setReg r v).tscr = x.tscr := by
  unfold Context.setReg; split <;> rfl
@[simp] theorem Context.setReg_shadow (x : Context) (r : Reg) (v : W64) : (x.setReg r v).shadow = x.shadow := by
  unfold Context.setReg; split <;> rfl
@[simp] theorem Context.setReg_mb (x : Context) (r : Reg) (v : W64) : (x.setReg r v).mb = x.mb := by
  unfold Context.setReg; split <;> rfl
@[simp] theorem Context.setReg_sem (x : Context) (r : Reg) (v : W64) : (x.setReg r v).sem = x.sem := by
  unfold Context.setReg; split <;> rfl
@[simp] theorem Context.setReg_fb (x : Context) (r : Reg) (v : W64) : (x.setReg r v).fb = x.fb := by
  unfold Context.setReg; split <;> rfl
@[simp] theorem Context.setReg_exq (x : Context) (r : Reg) (v : W64) : (x.setReg r v).exq = x.exq := by
  unfold Context.setReg; split <;> rfl
@[simp] theorem Context.setReg_mxq (x : Context) (r : Reg) (v : W64) : (x.setReg r v).mxq = x.mxq := by
  unfold Context.setReg; split <;> rfl
@[simp] theorem Context.setReg_fq (x : Context) (r : Reg) (v : W64) : (x.setReg r v).fq = x.fq := by
  unfold Context.setReg; split <;> rfl
@[simp] theorem Context.setReg_cpq (x : Context) (r : Reg) (v : W64) : (x.setReg r v).cpq = x.cpq := by
  unfold Context.setReg; split <;> rfl
@[simp] theorem Context.setReg_alq (x : Context) (r : Reg) (v : W64) : (x.setReg r v).alq = x.alq := by
  unfold Context.setReg; split <;> rfl
@[simp] theorem Context.setReg_alNum (x : Context) (r : Reg) (v : W64) : (x.setReg r v).alNum = x.alNum := by
  unfold Context.setReg; split <;> rfl
@[simp] theorem Context.setReg_alHalted (x : Context) (r : Reg) (v : W64) : (x.setReg r v).alHalted = x.alHalted := by
  unfold Context.setReg; split <;> rfl
@[simp] theorem Context.setReg_failed (x : Context) (r : Reg) (v : W64) : (x.setReg r v).failed = x.failed := by
  unfold Context.setReg; split <;> rfl
@[simp] theorem Context.setReg_wheel (x : Context) (r : Reg) (v : W64) : (x.setReg r v).wheel = x.wheel := by
  unfold Context.setReg; split <;> rfl
@[simp] theorem Context.setReg_pool (x : Context) (r : Reg) (v : W64) : (x.setReg r v).pool = x.pool := by
  unfold Context.setReg; split <;> rfl
@[simp] theorem Context.setReg_ex (x : Context) (r : Reg) (v : W64) : (x.setReg r v).ex = x.ex := by
  unfold Context.setReg; split <;> rfl
@[simp] theorem Context.setReg_ports (x : Context) (r : Reg) (v : W64) : (x.setReg r v).ports = x.ports := by
  unfold Context.setReg; split <;> rfl
@[simp] theorem Context.setReg_banks (x : Context) (r : Reg) (v : W64) : (x.setReg r v).banks = x.banks := by
  unfold Context.setReg; split <;> rfl
@[simp] theorem Context.setReg_tables (x : Context) (r : Reg) (v : W64) : (x.setReg r v).tables = x.tables := by
  unfold Context.setReg; split <;> rfl
@[simp] theorem Context.setReg_mx (x : Context) (r : Reg) (v : W64) : (x.setReg r v).mx = x.mx := by
  unfold Context.setReg; split <;> rfl
@[simp] theorem Context.setReg_cp (x : Context) (r : Reg) (v : W64) : (x.setReg r v).cp = x.cp := by
  unfold Context.setReg; split <;> rfl
@[simp] theorem Context.setReg_note (x : Context) (r : Reg) (v : W64) : (x.setReg r v).note = x.note := by
  unfold Context.setReg; split <;> rfl

/-! ## modCtx, finish, store -/

@[simp] theorem State.modCtx_eq (s : State) (c : CtxId) (f : Context → Context) : s.modCtx c f = s.setCtx c (f (s.ctx c)) := rfl
@[simp] theorem State.finish_eq (s : State) (c : CtxId) (x : Context) (n : Nat) : s.finish c x n = s.setCtx c (x.advance n) := rfl

@[simp] theorem State.store_agenda (s : State) (a : Nat) (l : List Byte) : (s.store a l).agenda = s.agenda := by
  unfold State.store; split <;> rfl
@[simp] theorem State.store_phase (s : State) (a : Nat) (l : List Byte) : (s.store a l).phase = s.phase := by
  unfold State.store; split <;> rfl
@[simp] theorem State.store_focus (s : State) (a : Nat) (l : List Byte) : (s.store a l).focus = s.focus := by
  unfold State.store; split <;> rfl
@[simp] theorem State.store_lnFocus (s : State) (a : Nat) (l : List Byte) : (s.store a l).lnFocus = s.lnFocus := by
  unfold State.store; split <;> rfl
@[simp] theorem State.store_out (s : State) (a : Nat) (l : List Byte) : (s.store a l).out = s.out := by
  unfold State.store; split <;> rfl
@[simp] theorem State.store_acted (s : State) (a : Nat) (l : List Byte) : (s.store a l).acted = s.acted := by
  unfold State.store; split <;> rfl
@[simp] theorem State.store_clk (s : State) (a : Nat) (l : List Byte) : (s.store a l).clk = s.clk := by
  unfold State.store; split <;> rfl
@[simp] theorem State.store_timeU (s : State) (a : Nat) (l : List Byte) : (s.store a l).timeU = s.timeU := by
  unfold State.store; split <;> rfl
@[simp] theorem State.store_timeStep (s : State) (a : Nat) (l : List Byte) : (s.store a l).timeStep = s.timeStep := by
  unfold State.store; split <;> rfl
@[simp] theorem State.store_timeLog (s : State) (a : Nat) (l : List Byte) : (s.store a l).timeLog = s.timeLog := by
  unfold State.store; split <;> rfl
@[simp] theorem State.store_ppm (s : State) (a : Nat) (l : List Byte) : (s.store a l).ppm = s.ppm := by
  unfold State.store; split <;> rfl
@[simp] theorem State.store_lock (s : State) (a : Nat) (l : List Byte) : (s.store a l).lock = s.lock := by
  unfold State.store; split <;> rfl
@[simp] theorem State.store_hold (s : State) (a : Nat) (l : List Byte) : (s.store a l).hold = s.hold := by
  unfold State.store; split <;> rfl
@[simp] theorem State.store_stepped (s : State) (a : Nat) (l : List Byte) : (s.store a l).stepped = s.stepped := by
  unfold State.store; split <;> rfl
@[simp] theorem State.store_tbPort (s : State) (a : Nat) (l : List Byte) : (s.store a l).tbPort = s.tbPort := by
  unfold State.store; split <;> rfl
@[simp] theorem State.store_offs (s : State) (a : Nat) (l : List Byte) : (s.store a l).offs = s.offs := by
  unfold State.store; split <;> rfl
@[simp] theorem State.store_steps (s : State) (a : Nat) (l : List Byte) : (s.store a l).steps = s.steps := by
  unfold State.store; split <;> rfl
@[simp] theorem State.store_everLocked (s : State) (a : Nat) (l : List Byte) : (s.store a l).everLocked = s.everLocked := by
  unfold State.store; split <;> rfl
@[simp] theorem State.store_latches (s : State) (a : Nat) (l : List Byte) : (s.store a l).latches = s.latches := by
  unfold State.store; split <;> rfl
@[simp] theorem State.store_ro (s : State) (a : Nat) (l : List Byte) : (s.store a l).ro = s.ro := by
  unfold State.store; split <;> rfl
@[simp] theorem State.store_verified (s : State) (a : Nat) (l : List Byte) : (s.store a l).verified = s.verified := by
  unfold State.store; split <;> rfl
@[simp] theorem State.store_ctxs (s : State) (a : Nat) (l : List Byte) : (s.store a l).ctxs = s.ctxs := by
  unfold State.store; split <;> rfl
@[simp] theorem State.store_cores (s : State) (a : Nat) (l : List Byte) : (s.store a l).cores = s.cores := by
  unfold State.store; split <;> rfl
@[simp] theorem State.store_mxcap (s : State) (a : Nat) (l : List Byte) : (s.store a l).mxcap = s.mxcap := by
  unfold State.store; split <;> rfl
@[simp] theorem State.store_mxcapNew (s : State) (a : Nat) (l : List Byte) : (s.store a l).mxcapNew = s.mxcapNew := by
  unfold State.store; split <;> rfl
@[simp] theorem State.store_mxcapCfg (s : State) (a : Nat) (l : List Byte) : (s.store a l).mxcapCfg = s.mxcapCfg := by
  unfold State.store; split <;> rfl
@[simp] theorem State.store_streams (s : State) (a : Nat) (l : List Byte) : (s.store a l).streams = s.streams := by
  unfold State.store; split <;> rfl
@[simp] theorem State.store_procs (s : State) (a : Nat) (l : List Byte) : (s.store a l).procs = s.procs := by
  unfold State.store; split <;> rfl
@[simp] theorem State.store_almanac (s : State) (a : Nat) (l : List Byte) : (s.store a l).almanac = s.almanac := by
  unfold State.store; split <;> rfl
@[simp] theorem State.store_rules (s : State) (a : Nat) (l : List Byte) : (s.store a l).rules = s.rules := by
  unfold State.store; split <;> rfl
@[simp] theorem State.store_alFree (s : State) (a : Nat) (l : List Byte) : (s.store a l).alFree = s.alFree := by
  unfold State.store; split <;> rfl
@[simp] theorem State.store_alTake (s : State) (a : Nat) (l : List Byte) : (s.store a l).alTake = s.alTake := by
  unfold State.store; split <;> rfl
@[simp] theorem State.store_alWrites (s : State) (a : Nat) (l : List Byte) : (s.store a l).alWrites = s.alWrites := by
  unfold State.store; split <;> rfl
@[simp] theorem State.store_bdrop (s : State) (a : Nat) (l : List Byte) : (s.store a l).bdrop = s.bdrop := by
  unfold State.store; split <;> rfl
@[simp] theorem State.store_bfail (s : State) (a : Nat) (l : List Byte) : (s.store a l).bfail = s.bfail := by
  unfold State.store; split <;> rfl
@[simp] theorem State.store_links (s : State) (a : Nat) (l : List Byte) : (s.store a l).links = s.links := by
  unfold State.store; split <;> rfl
@[simp] theorem State.store_queues (s : State) (a : Nat) (l : List Byte) : (s.store a l).queues = s.queues := by
  unfold State.store; split <;> rfl
@[simp] theorem State.store_parts (s : State) (a : Nat) (l : List Byte) : (s.store a l).parts = s.parts := by
  unfold State.store; split <;> rfl
@[simp] theorem State.store_launches (s : State) (a : Nat) (l : List Byte) : (s.store a l).launches = s.launches := by
  unfold State.store; split <;> rfl
@[simp] theorem State.store_faults (s : State) (a : Nat) (l : List Byte) : (s.store a l).faults = s.faults := by
  unfold State.store; split <;> rfl
@[simp] theorem State.store_zeroed (s : State) (a : Nat) (l : List Byte) : (s.store a l).zeroed = s.zeroed := by
  unfold State.store; split <;> rfl
@[simp] theorem State.store_swapReq (s : State) (a : Nat) (l : List Byte) : (s.store a l).swapReq = s.swapReq := by
  unfold State.store; split <;> rfl
@[simp] theorem State.store_swapped (s : State) (a : Nat) (l : List Byte) : (s.store a l).swapped = s.swapped := by
  unfold State.store; split <;> rfl
@[simp] theorem State.store_dispClk (s : State) (a : Nat) (l : List Byte) : (s.store a l).dispClk = s.dispClk := by
  unfold State.store; split <;> rfl
@[simp] theorem State.store_act (s : State) (a : Nat) (l : List Byte) : (s.store a l).act = s.act := by
  unfold State.store; split <;> rfl
@[simp] theorem State.store_sby (s : State) (a : Nat) (l : List Byte) : (s.store a l).sby = s.sby := by
  unfold State.store; split <;> rfl
@[simp] theorem State.store_cmdst (s : State) (a : Nat) (l : List Byte) : (s.store a l).cmdst = s.cmdst := by
  unfold State.store; split <;> rfl
@[simp] theorem State.store_tsver (s : State) (a : Nat) (l : List Byte) : (s.store a l).tsver = s.tsver := by
  unfold State.store; split <;> rfl
@[simp] theorem State.store_imgver (s : State) (a : Nat) (l : List Byte) : (s.store a l).imgver = s.imgver := by
  unfold State.store; split <;> rfl
@[simp] theorem State.store_fwdig (s : State) (a : Nat) (l : List Byte) : (s.store a l).fwdig = s.fwdig := by
  unfold State.store; split <;> rfl
@[simp] theorem State.store_newImg (s : State) (a : Nat) (l : List Byte) : (s.store a l).newImg = s.newImg := by
  unfold State.store; split <;> rfl
@[simp] theorem State.store_fwimg (s : State) (a : Nat) (l : List Byte) : (s.store a l).fwimg = s.fwimg := by
  unfold State.store; split <;> rfl
@[simp] theorem State.store_fwbufN (s : State) (a : Nat) (l : List Byte) : (s.store a l).fwbufN = s.fwbufN := by
  unfold State.store; split <;> rfl
@[simp] theorem State.store_fwbufA (s : State) (a : Nat) (l : List Byte) : (s.store a l).fwbufA = s.fwbufA := by
  unfold State.store; split <;> rfl
@[simp] theorem State.store_pausedAt (s : State) (a : Nat) (l : List Byte) : (s.store a l).pausedAt = s.pausedAt := by
  unfold State.store; split <;> rfl
@[simp] theorem State.store_remap (s : State) (a : Nat) (l : List Byte) : (s.store a l).remap = s.remap := by
  unfold State.store; split <;> rfl
@[simp] theorem State.store_boot (s : State) (a : Nat) (l : List Byte) : (s.store a l).boot = s.boot := by
  unfold State.store; split <;> rfl
@[simp] theorem State.store_phaseDev (s : State) (a : Nat) (l : List Byte) : (s.store a l).phaseDev = s.phaseDev := by
  unfold State.store; split <;> rfl
@[simp] theorem State.store_rsvw (s : State) (a : Nat) (l : List Byte) : (s.store a l).rsvw = s.rsvw := by
  unfold State.store; split <;> rfl
@[simp] theorem State.store_dual (s : State) (a : Nat) (l : List Byte) : (s.store a l).dual = s.dual := by
  unfold State.store; split <;> rfl
@[simp] theorem State.store_sint (s : State) (a : Nat) (l : List Byte) : (s.store a l).sint = s.sint := by
  unfold State.store; split <;> rfl
@[simp] theorem State.store_sintNow (s : State) (a : Nat) (l : List Byte) : (s.store a l).sintNow = s.sintNow := by
  unfold State.store; split <;> rfl
@[simp] theorem State.store_svec (s : State) (a : Nat) (l : List Byte) : (s.store a l).svec = s.svec := by
  unfold State.store; split <;> rfl
@[simp] theorem State.store_sien (s : State) (a : Nat) (l : List Byte) : (s.store a l).sien = s.sien := by
  unfold State.store; split <;> rfl
@[simp] theorem State.store_hwbase (s : State) (a : Nat) (l : List Byte) : (s.store a l).hwbase = s.hwbase := by
  unfold State.store; split <;> rfl
@[simp] theorem State.store_href (s : State) (a : Nat) (l : List Byte) : (s.store a l).href = s.href := by
  unfold State.store; split <;> rfl
@[simp] theorem State.store_stageN (s : State) (a : Nat) (l : List Byte) : (s.store a l).stageN = s.stageN := by
  unfold State.store; split <;> rfl
@[simp] theorem State.store_stageA (s : State) (a : Nat) (l : List Byte) : (s.store a l).stageA = s.stageA := by
  unfold State.store; split <;> rfl
@[simp] theorem State.store_staged (s : State) (a : Nat) (l : List Byte) : (s.store a l).staged = s.staged := by
  unfold State.store; split <;> rfl
@[simp] theorem State.store_minVer (s : State) (a : Nat) (l : List Byte) : (s.store a l).minVer = s.minVer := by
  unfold State.store; split <;> rfl
@[simp] theorem State.store_hostMap (s : State) (a : Nat) (l : List Byte) : (s.store a l).hostMap = s.hostMap := by
  unfold State.store; split <;> rfl
@[simp] theorem State.store_msix (s : State) (a : Nat) (l : List Byte) : (s.store a l).msix = s.msix := by
  unfold State.store; split <;> rfl
@[simp] theorem State.store_msixPend (s : State) (a : Nat) (l : List Byte) : (s.store a l).msixPend = s.msixPend := by
  unfold State.store; split <;> rfl
@[simp] theorem State.store_msixMask (s : State) (a : Nat) (l : List Byte) : (s.store a l).msixMask = s.msixMask := by
  unfold State.store; split <;> rfl
@[simp] theorem State.store_msixDue (s : State) (a : Nat) (l : List Byte) : (s.store a l).msixDue = s.msixDue := by
  unfold State.store; split <;> rfl
@[simp] theorem State.store_clkStep (s : State) (a : Nat) (l : List Byte) : (s.store a l).clkStep = s.clkStep := by
  unfold State.store; split <;> rfl
@[simp] theorem State.store_clkStepNew (s : State) (a : Nat) (l : List Byte) : (s.store a l).clkStepNew = s.clkStepNew := by
  unfold State.store; split <;> rfl
@[simp] theorem State.store_clkStepCfg (s : State) (a : Nat) (l : List Byte) : (s.store a l).clkStepCfg = s.clkStepCfg := by
  unfold State.store; split <;> rfl
@[simp] theorem State.store_tj (s : State) (a : Nat) (l : List Byte) : (s.store a l).tj = s.tj := by
  unfold State.store; split <;> rfl
@[simp] theorem State.store_coolFrom (s : State) (a : Nat) (l : List Byte) : (s.store a l).coolFrom = s.coolFrom := by
  unfold State.store; split <;> rfl
@[simp] theorem State.store_relief (s : State) (a : Nat) (l : List Byte) : (s.store a l).relief = s.relief := by
  unfold State.store; split <;> rfl
@[simp] theorem State.store_channels (s : State) (a : Nat) (l : List Byte) : (s.store a l).channels = s.channels := by
  unfold State.store; split <;> rfl
@[simp] theorem State.store_ages (s : State) (a : Nat) (l : List Byte) : (s.store a l).ages = s.ages := by
  unfold State.store; split <;> rfl

end Sys2Proof.Machine
end

