-- ==== Sys2Proof/Laws/Tables.lean ====
section
/-! SUPPORT. Tables and the parts of the device they hold: a read after a write, at the index written and at any other. -/

namespace Sys2Proof.Machine

variable {α : Type}

@[simp] theorem tabGet_tabSet_same (d : α) (t : Tab α) (i : Nat) (v : α) : tabGet d (tabSet t i v) i = v := by
  induction t with
  | nil => simp [tabSet, tabGet]
  | cons p r ih =>
    obtain ⟨j, u⟩ := p
    simp only [tabSet]
    split
    · simp [tabGet]
    · split
      · simp [tabGet]
      · rename_i h1 h2
        have : ¬ j = i := by omega
        simp [tabGet, this, ih]

theorem tabGet_tabSet_ne (d : α) (t : Tab α) {i k : Nat} (v : α) (h : k ≠ i) : tabGet d (tabSet t i v) k = tabGet d t k := by
  induction t with
  | nil => simp [tabSet, tabGet, Ne.symm h]
  | cons p r ih =>
    obtain ⟨j, u⟩ := p
    simp only [tabSet]
    split
    · simp [tabGet, Ne.symm h]
    · split
      · rename_i h1 h2
        subst h2
        simp [tabGet, Ne.symm h]
      · simp only [tabGet, ih]

/-! ## The parts of the device -/

@[simp] theorem State.ctx_setCtx_same (s : State) (c : CtxId) (x : Context) : (s.setCtx c x).ctx c = x := by simp [State.ctx]
theorem State.ctx_setCtx_ne (s : State) {c d : CtxId} (x : Context) (h : d ≠ c) : (s.setCtx c x).ctx d = s.ctx d := by
  have : d.val ≠ c.val := fun e => h (Fin.ext e)
  simp [State.ctx, tabGet_tabSet_ne _ _ _ this]
@[simp] theorem State.core_setCore_same (s : State) (i : Nat) (x : Core) : (s.setCore i x).core i = x := by simp [State.core]
@[simp] theorem State.stream_setStream_same (s : State) (i : Nat) (x : Stream) : (s.setStream i x).stream i = x := by
  simp [State.stream]
@[simp] theorem State.proc_setProc_same (s : State) (i : Nat) (x : Proc) : (s.setProc i x).proc i = x := by simp [State.proc]
@[simp] theorem State.rule_setRule_same (s : State) (i : Nat) (x : Rule) : (s.setRule i x).rule i = x := by simp [State.rule]
@[simp] theorem State.link_setLink_same (s : State) (i : Nat) (x : Link) : (s.setLink i x).link i = x := by simp [State.link]
@[simp] theorem State.queue_setQueue_same (s : State) (i : Nat) (x : Queue) : (s.setQueue i x).queue i = x := by
  simp [State.queue]
@[simp] theorem State.part_setPart_same (s : State) (i : Nat) (x : Part) : (s.setPart i x).part i = x := by simp [State.part]

/-! ## Sequencer registers (R88) -/

/-- s0 reads zero. -/
@[simp] theorem Context.reg_zero (x : Context) : x.reg 0 = 0 := rfl

/-- A write to s0 is discarded. -/
@[simp] theorem Context.setReg_zero (x : Context) (v : W64) : x.setReg 0 v = x := rfl

/-- A register holds what was written to it; s0 holds zero. -/
theorem Context.reg_setReg_same (x : Context) (r : Reg) (v : W64) : (x.setReg r v).reg r = if r = 0 then 0 else v := by
  unfold Context.setReg Context.reg
  split
  · rfl
  · simp

/-- Every other register keeps its value. -/
theorem Context.reg_setReg_ne (x : Context) {r q : Reg} (v : W64) (h : q ≠ r) : (x.setReg r v).reg q = x.reg q := by
  have n : r.toNat ≠ q.toNat := fun e => h (BitVec.eq_of_toNat_eq e.symm)
  by_cases z : r = 0
  · simp [Context.setReg, z]
  · by_cases w : q = 0
    · simp [Context.reg, w]
    · simp only [Context.setReg, Context.reg, z, w, if_false]
      exact Vector.getElem_set_ne _ _ n

@[simp] theorem Context.reg_advance (x : Context) (n : Nat) (r : Reg) : (x.advance n).reg r = x.reg r := rfl
@[simp] theorem Context.busy_advance (x : Context) (n : Nat) (r : Reg) : (x.advance n).busy r = x.busy r := rfl

end Sys2Proof.Machine
end

