-- ==== Sys2Proof/Laws/Memory.lean ====
section
/-! SUPPORT. Device memory and pools: a write is read back, leaves every other byte, and keeps the canonical form. -/

namespace Sys2Proof.Machine

/-! ## The canonical form -/

/-- Every address listed lies above `a`. -/
def Mem.above (a : Nat) (m : Mem) : Prop := ∀ c ∈ m, a < c.1

/-- The canonical form of a list with a first cell. -/
theorem wf_cons (a : Nat) (b : Byte) (m : Mem) : Memory.wf ((a, b) :: m) = true ↔ b ≠ 0 ∧ Mem.above a m ∧ Memory.wf m = true := by
  induction m generalizing a b with
  | nil => simp [Memory.wf, Mem.above]
  | cons p r ih =>
    obtain ⟨a', b'⟩ := p
    simp only [Memory.wf, Bool.and_eq_true, bne_iff_ne, ne_eq, decide_eq_true_eq]
    constructor
    · rintro ⟨⟨hb, ha⟩, hw⟩
      refine ⟨hb, ?_, hw⟩
      intro c hc
      rcases List.mem_cons.mp hc with rfl | hc
      · exact ha
      · have := ((ih a' b').mp hw).2.1 c hc
        omega
    · rintro ⟨hb, ha, hw⟩
      exact ⟨⟨hb, ha (a', b') (by simp)⟩, hw⟩

theorem above_of_lt {a a' : Nat} {m : Mem} (h : Mem.above a' m) (l : a ≤ a') : Mem.above a m := fun c hc => by
  have := h c hc
  omega

/-- Below everything listed, memory reads as nothing listed. -/
theorem memGet_above {a : Nat} {m : Mem} (h : Mem.above a m) : memGet m a = 0 := by
  induction m with
  | nil => rfl
  | cons p r ih =>
    obtain ⟨a', b'⟩ := p
    have h1 : a < a' := h (a', b') (by simp)
    have h2 : ¬ a' = a := by omega
    simp only [memGet, tabGet, h2, if_false]
    exact ih fun c hc => h c (by simp [hc])

theorem above_memIns {a k : Nat} {b : Byte} {m : Mem} (h : Mem.above a m) (l : a < k) : Mem.above a (memIns m k b) := by
  induction m with
  | nil => intro c hc; simp [memIns, tabSet] at hc; subst hc; exact l
  | cons p r ih =>
    obtain ⟨a', b'⟩ := p
    have hr : Mem.above a r := fun c hc => h c (by simp [hc])
    intro c hc
    simp only [memIns, tabSet] at hc
    split at hc
    · rcases List.mem_cons.mp hc with rfl | hc
      · exact l
      · exact h c hc
    · split at hc
      · rcases List.mem_cons.mp hc with rfl | hc
        · exact l
        · exact hr c hc
      · rcases List.mem_cons.mp hc with rfl | hc
        · exact h _ (by simp)
        · exact ih hr c hc

theorem wf_memIns {k : Nat} {b : Byte} {m : Mem} (hb : b ≠ 0) (h : Memory.wf m = true) : Memory.wf (memIns m k b) = true := by
  induction m with
  | nil => simpa [memIns, tabSet, Memory.wf] using hb
  | cons p r ih =>
    obtain ⟨a', b'⟩ := p
    obtain ⟨h1, h2, h3⟩ := (wf_cons a' b' r).mp h
    simp only [memIns, tabSet]
    split
    · rename_i hlt
      refine (wf_cons _ _ _).mpr ⟨hb, ?_, h⟩
      intro c hc
      rcases List.mem_cons.mp hc with rfl | hc
      · exact hlt
      · have := h2 c hc
        omega
    · split
      · rename_i heq
        subst heq
        exact (wf_cons _ _ _).mpr ⟨hb, h2, h3⟩
      · rename_i hn he
        exact (wf_cons _ _ _).mpr ⟨h1, above_memIns h2 (by omega), ih h3⟩

theorem above_memDel {a k : Nat} {m : Mem} (h : Mem.above a m) : Mem.above a (memDel m k) := fun c hc =>
  h c (List.mem_of_mem_filter hc)

theorem wf_memDel {k : Nat} {m : Mem} (h : Memory.wf m = true) : Memory.wf (memDel m k) = true := by
  induction m with
  | nil => rfl
  | cons p r ih =>
    obtain ⟨a', b'⟩ := p
    obtain ⟨h1, h2, h3⟩ := (wf_cons a' b' r).mp h
    by_cases e : a' = k
    · simpa [memDel, e] using ih h3
    · have : memDel ((a', b') :: r) k = (a', b') :: memDel r k := by simp [memDel, e]
      rw [this]
      exact (wf_cons _ _ _).mpr ⟨h1, above_memDel h2, ih h3⟩

theorem wf_memPut {k : Nat} {b : Byte} {m : Mem} (h : Memory.wf m = true) : Memory.wf (memPut m k b) = true := by
  unfold memPut
  split
  · exact wf_memDel h
  · exact wf_memIns ‹_› h

theorem wf_memWrite (l : List Byte) : ∀ {m : Mem} {a : Nat}, Memory.wf m = true → Memory.wf (memWrite m a l) = true := by
  induction l with
  | nil => intro m a h; exact h
  | cons b r ih => intro m a h; exact ih (wf_memPut h)

theorem wf_memScatter (l : List (Nat × Byte)) : ∀ {m : Mem}, Memory.wf m = true → Memory.wf (memScatter m l) = true := by
  induction l with
  | nil => intro m h; exact h
  | cons c r ih => intro m h; exact ih (wf_memPut h)

/-- A store keeps device memory canonical. -/
theorem wf_store {s : State} (a : Nat) (l : List Byte) (h : Memory.wf s.mem = true) : Memory.wf (s.store a l).mem = true := by
  unfold State.store
  split
  · exact wf_memWrite _ h
  · exact wf_memWrite _ h

/-! ## Writes by the device's own units (R28, R69) -/

/-- A write that meets no read-only range is performed whole. -/
theorem guardRo_free {ro : List RoRange} {a : Nat} {l : List Byte} (h : roFault ro a l.length = none) : guardRo ro a l = l := by
  simp [guardRo, h]

/-- A write that meets one performs no byte. -/
theorem guardRo_held {ro : List RoRange} {a : Nat} {l : List Byte} (h : (roFault ro a l.length).isSome) : guardRo ro a l = [] := by
  simp [guardRo, h]

theorem storeRo_free {s : State} {a : Nat} {l : List Byte} (h : roFault s.ro a l.length = none) : s.storeRo a l = s.store a l := by
  rw [State.storeRo, guardRo_free h]

theorem storeRo_held {s : State} {a : Nat} {l : List Byte} (h : (roFault s.ro a l.length).isSome) : s.storeRo a l = s := by
  rw [State.storeRo, guardRo_held h]
  rfl

theorem wf_storeRo {s : State} (a : Nat) (l : List Byte) (h : Memory.wf s.mem = true) : Memory.wf (s.storeRo a l).mem = true :=
  wf_store a _ h

theorem wf_memPutRo {ro : List RoRange} {m : Mem} (a n x : Nat) (h : Memory.wf m = true) : Memory.wf (memPutRo ro m a n x) = true :=
  wf_memWrite _ h

/-- The memory at reset is canonical. -/
theorem wf_reset : Memory.wf State.reset.mem = true := rfl

/-! ## Read after write -/

theorem memGet_memDel_same (m : Mem) (k : Nat) : memGet (memDel m k) k = 0 := by
  induction m with
  | nil => rfl
  | cons p r ih =>
    obtain ⟨a', b'⟩ := p
    by_cases e : a' = k
    · simpa [memDel, e] using ih
    · have : memDel ((a', b') :: r) k = (a', b') :: memDel r k := by simp [memDel, e]
      simp only [this, memGet, tabGet, e, if_false]
      exact ih

theorem memGet_memDel_ne (m : Mem) {k a : Nat} (h : a ≠ k) : memGet (memDel m k) a = memGet m a := by
  induction m with
  | nil => rfl
  | cons p r ih =>
    obtain ⟨a', b'⟩ := p
    by_cases e : a' = k
    · have h2 : ¬ k = a := Ne.symm h
      have : memDel ((a', b') :: r) k = memDel r k := by simp [memDel, e]
      rw [this, ih]
      simp [memGet, tabGet, e, h2]
    · have : memDel ((a', b') :: r) k = (a', b') :: memDel r k := by simp [memDel, e]
      simp only [this, memGet, tabGet]
      split
      · rfl
      · exact ih

@[simp] theorem memGet_memPut_same (m : Mem) (k : Nat) (b : Byte) : memGet (memPut m k b) k = b := by
  unfold memPut
  split
  · rename_i h; subst h; exact memGet_memDel_same m k
  · exact tabGet_tabSet_same _ _ _ _

theorem memGet_memPut_ne (m : Mem) {k a : Nat} (b : Byte) (h : a ≠ k) : memGet (memPut m k b) a = memGet m a := by
  unfold memPut
  split
  · exact memGet_memDel_ne m h
  · exact tabGet_tabSet_ne _ _ _ h

/-- Every byte below the written ones keeps its value. -/
theorem memGet_memWrite_lt (l : List Byte) : ∀ (m : Mem) (a k : Nat), k < a → memGet (memWrite m a l) k = memGet m k := by
  induction l with
  | nil => intros; rfl
  | cons b r ih =>
    intro m a k h
    simp only [memWrite]
    rw [ih _ _ _ (by omega), memGet_memPut_ne _ _ (by omega)]

/-- Every byte past the written ones keeps its value. -/
theorem memGet_memWrite_ge (l : List Byte) :
    ∀ (m : Mem) (a k : Nat), a + l.length ≤ k → memGet (memWrite m a l) k = memGet m k := by
  induction l with
  | nil => intros; rfl
  | cons b r ih =>
    intro m a k h
    simp only [List.length_cons] at h
    simp only [memWrite]
    rw [ih _ _ _ (by omega), memGet_memPut_ne _ _ (by omega)]

/-- The bytes written are read back. -/
theorem memGet_memWrite_in (l : List Byte) :
    ∀ (m : Mem) (a i : Nat) (h : i < l.length), memGet (memWrite m a l) (a + i) = l[i] := by
  induction l with
  | nil => intro m a i h; exact absurd h (by simp)
  | cons b r ih =>
    intro m a i h
    simp only [memWrite]
    cases i with
    | zero => simp [memGet_memWrite_lt _ _ (a + 1) a (by omega)]
    | succ j =>
      have := ih (memPut m a b) (a + 1) j (by simpa using h)
      simpa [Nat.add_assoc, Nat.add_comm 1 j] using this

theorem memGet_memScatter_ne (l : List (Nat × Byte)) :
    ∀ (m : Mem) (k : Nat), (∀ c ∈ l, c.1 ≠ k) → memGet (memScatter m l) k = memGet m k := by
  induction l with
  | nil => intros; rfl
  | cons c r ih =>
    intro m k h
    simp only [memScatter]
    rw [ih _ _ fun d hd => h d (by simp [hd]), memGet_memPut_ne _ _ (Ne.symm (h c (by simp)))]

/-- A store leaves every byte outside its range. -/
theorem memGet_store_ne {s : State} {a k : Nat} {l : List Byte} (h : k < a ∨ a + l.length ≤ k) :
    memGet (s.store a l).mem k = memGet s.mem k := by
  unfold State.store
  split
  · rcases h with h | h
    · exact memGet_memWrite_lt _ _ _ _ h
    · refine memGet_memWrite_ge _ _ _ _ ?_
      simpa [State.slotBytes] using h
  · rcases h with h | h
    · exact memGet_memWrite_lt _ _ _ _ h
    · exact memGet_memWrite_ge _ _ _ _ h

end Sys2Proof.Machine
end

