-- ==== Sys2Proof/Laws/PerInstr.lean ====
section
/-! SUPPORT. The family Encoding: the word of an instruction fits the width of its stream (R105, R173, R234, R268, R319, R340). -/

namespace Sys2Proof.Laws.Encoding

/-- The encoding of an instruction, if it has one, fits its stream's word. -/
def Statement (i : Instr) : Prop := ∀ u w, encode i = some (u, w) → w < 2 ^ u.width

/-- A word joined from fields fits when the widths add up to the stream's. -/
theorem fits {i : Instr} {v : EncUnit} {l : List (Nat × Nat)} (e : encode i = some (v, packF l))
    (hs : (l.map Prod.fst).sum = v.width) : Statement i := fun u w h => by
  rw [e] at h
  cases h
  exact packF_fits hs

theorem add (d a b : Reg) : Statement (.add d a b) := fits rfl (by simp [EncUnit.width])
theorem sub (d a b : Reg) : Statement (.sub d a b) := fits rfl (by simp [EncUnit.width])
theorem and (d a b : Reg) : Statement (.and d a b) := fits rfl (by simp [EncUnit.width])
theorem or (d a b : Reg) : Statement (.or d a b) := fits rfl (by simp [EncUnit.width])
theorem xor (d a b : Reg) : Statement (.xor d a b) := fits rfl (by simp [EncUnit.width])
theorem shl (d a b : Reg) : Statement (.shl d a b) := fits rfl (by simp [EncUnit.width])
theorem shr (d a b : Reg) : Statement (.shr d a b) := fits rfl (by simp [EncUnit.width])
theorem sar (d a b : Reg) : Statement (.sar d a b) := fits rfl (by simp [EncUnit.width])
theorem cmpLt (d a b : Reg) : Statement (.cmpLt d a b) := fits rfl (by simp [EncUnit.width])
theorem cmpLtu (d a b : Reg) : Statement (.cmpLtu d a b) := fits rfl (by simp [EncUnit.width])
theorem min (d a b : Reg) : Statement (.min d a b) := fits rfl (by simp [EncUnit.width])
theorem max (d a b : Reg) : Statement (.max d a b) := fits rfl (by simp [EncUnit.width])
theorem minU (d a b : Reg) : Statement (.minU d a b) := fits rfl (by simp [EncUnit.width])
theorem maxU (d a b : Reg) : Statement (.maxU d a b) := fits rfl (by simp [EncUnit.width])
theorem mul (d a b : Reg) : Statement (.mul d a b) := fits rfl (by simp [EncUnit.width])
theorem mulHi (d a b : Reg) : Statement (.mulHi d a b) := fits rfl (by simp [EncUnit.width])
theorem mulHiu (d a b : Reg) : Statement (.mulHiu d a b) := fits rfl (by simp [EncUnit.width])
theorem div (d a b : Reg) : Statement (.div d a b) := fits rfl (by simp [EncUnit.width])
theorem divU (d a b : Reg) : Statement (.divU d a b) := fits rfl (by simp [EncUnit.width])
theorem rem (d a b : Reg) : Statement (.rem d a b) := fits rfl (by simp [EncUnit.width])
theorem remU (d a b : Reg) : Statement (.remU d a b) := fits rfl (by simp [EncUnit.width])
theorem clz (d a : Reg) : Statement (.clz d a) := fits rfl (by simp [EncUnit.width])
theorem popc (d a : Reg) : Statement (.popc d a) := fits rfl (by simp [EncUnit.width])
theorem addImm (d a : Reg) (imm : BitVec 15) : Statement (.addImm d a imm) := fits rfl (by simp [EncUnit.width])
theorem andImm (d a : Reg) (imm : BitVec 15) : Statement (.andImm d a imm) := fits rfl (by simp [EncUnit.width])
theorem orImm (d a : Reg) (imm : BitVec 15) : Statement (.orImm d a imm) := fits rfl (by simp [EncUnit.width])
theorem xorImm (d a : Reg) (imm : BitVec 15) : Statement (.xorImm d a imm) := fits rfl (by simp [EncUnit.width])
theorem cmpLtImm (d a : Reg) (imm : BitVec 15) : Statement (.cmpLtImm d a imm) := fits rfl (by simp [EncUnit.width])
theorem cmpLtuImm (d a : Reg) (imm : BitVec 15) : Statement (.cmpLtuImm d a imm) := fits rfl (by simp [EncUnit.width])
theorem shlImm (d a : Reg) (imm : BitVec 15) : Statement (.shlImm d a imm) := fits rfl (by simp [EncUnit.width])
theorem shrImm (d a : Reg) (imm : BitVec 15) : Statement (.shrImm d a imm) := fits rfl (by simp [EncUnit.width])
theorem sarImm (d a : Reg) (imm : BitVec 15) : Statement (.sarImm d a imm) := fits rfl (by simp [EncUnit.width])
theorem lup (d : Reg) (imm : BitVec 20) : Statement (.lup d imm) := fits rfl (by simp [EncUnit.width])
theorem brEq (a b : Reg) (off : BitVec 15) : Statement (.brEq a b off) := fits rfl (by simp [EncUnit.width])
theorem brNe (a b : Reg) (off : BitVec 15) : Statement (.brNe a b off) := fits rfl (by simp [EncUnit.width])
theorem brLt (a b : Reg) (off : BitVec 15) : Statement (.brLt a b off) := fits rfl (by simp [EncUnit.width])
theorem brGe (a b : Reg) (off : BitVec 15) : Statement (.brGe a b off) := fits rfl (by simp [EncUnit.width])
theorem brLtu (a b : Reg) (off : BitVec 15) : Statement (.brLtu a b off) := fits rfl (by simp [EncUnit.width])
theorem brGeu (a b : Reg) (off : BitVec 15) : Statement (.brGeu a b off) := fits rfl (by simp [EncUnit.width])
theorem jmp (d : Reg) (off : BitVec 20) : Statement (.jmp d off) := fits rfl (by simp [EncUnit.width])
theorem jmpr (d a : Reg) (imm : BitVec 15) : Statement (.jmpr d a imm) := fits rfl (by simp [EncUnit.width])
theorem crr (d : Reg) (crn : BitVec 12) : Statement (.crr d crn) := fits rfl (by simp [EncUnit.width])
theorem crw (crn : BitVec 12) (a : Reg) : Statement (.crw crn a) := fits rfl (by simp [EncUnit.width])
theorem crs (d : Reg) (crn : BitVec 12) (a : Reg) : Statement (.crs d crn a) := fits rfl (by simp [EncUnit.width])
theorem crc (d : Reg) (crn : BitVec 12) (a : Reg) : Statement (.crc d crn a) := fits rfl (by simp [EncUnit.width])
theorem fenceC (scope : Scope) (mask : BitVec 16) : Statement (.fenceC scope mask) := fits rfl (by simp [EncUnit.width])
theorem fenceX (scope : Scope) (paths : BitVec 8) : Statement (.fenceX scope paths) := fits rfl (by simp [EncUnit.width])
theorem trap (imm : BitVec 16) : Statement (.trap imm) := fits rfl (by simp [EncUnit.width])
theorem mbw (n : BitVec 3) (a : Reg) : Statement (.mbw n a) := fits rfl (by simp [EncUnit.width])
theorem pushf (a : Reg) : Statement (.pushf a) := fits rfl (by simp [EncUnit.width])
theorem fbpop (d : Reg) : Statement (.fbpop d) := fits rfl (by simp [EncUnit.width])
theorem fbtry (d : Reg) : Statement (.fbtry d) := fits rfl (by simp [EncUnit.width])
theorem semsig (n : BitVec 4) (a : Reg) : Statement (.semsig n a) := fits rfl (by simp [EncUnit.width])
theorem semwait (n : BitVec 4) (a : Reg) : Statement (.semwait n a) := fits rfl (by simp [EncUnit.width])
theorem semrd (d : Reg) (n : BitVec 4) : Statement (.semrd d n) := fits rfl (by simp [EncUnit.width])
theorem launch (a b : Reg) : Statement (.launch a b) := fits rfl (by simp [EncUnit.width])
theorem ld (f : MemForm) : Statement (.ld f) := fits rfl (by simp [EncUnit.width])
theorem st (f : MemForm) : Statement (.st f) := fits rfl (by simp [EncUnit.width])
theorem ldp (f : MemForm) : Statement (.ldp f) := fits rfl (by simp [EncUnit.width])
theorem stp (f : MemForm) : Statement (.stp f) := fits rfl (by simp [EncUnit.width])
theorem ldAcq (f : SyncForm) : Statement (.ldAcq f) := fits rfl (by simp [EncUnit.width])
theorem stRel (f : SyncForm) : Statement (.stRel f) := fits rfl (by simp [EncUnit.width])
theorem ldSc (f : ScForm) : Statement (.ldSc f) := fits rfl (by simp [EncUnit.width])
theorem stSc (f : ScForm) : Statement (.stSc f) := fits rfl (by simp [EncUnit.width])
theorem waitge (f : WaitForm) : Statement (.waitge f) := fits rfl (by simp [EncUnit.width])
theorem waiteq (f : WaitForm) : Statement (.waiteq f) := fits rfl (by simp [EncUnit.width])
theorem atmAdd (f : AtmForm) : Statement (.atmAdd f) := fits rfl (by simp [EncUnit.width])
theorem atmAnd (f : AtmForm) : Statement (.atmAnd f) := fits rfl (by simp [EncUnit.width])
theorem atmOr (f : AtmForm) : Statement (.atmOr f) := fits rfl (by simp [EncUnit.width])
theorem atmXor (f : AtmForm) : Statement (.atmXor f) := fits rfl (by simp [EncUnit.width])
theorem atmMin (f : AtmForm) : Statement (.atmMin f) := fits rfl (by simp [EncUnit.width])
theorem atmMax (f : AtmForm) : Statement (.atmMax f) := fits rfl (by simp [EncUnit.width])
theorem atmMinU (f : AtmForm) : Statement (.atmMinU f) := fits rfl (by simp [EncUnit.width])
theorem atmMaxU (f : AtmForm) : Statement (.atmMaxU f) := fits rfl (by simp [EncUnit.width])
theorem atmSwap (f : AtmForm) : Statement (.atmSwap f) := fits rfl (by simp [EncUnit.width])
theorem atmCas (f : AtmForm) (n : Reg) : Statement (.atmCas f n) := fits rfl (by simp [EncUnit.width])
theorem atmAddSc (f : AtmScForm) : Statement (.atmAddSc f) := fits rfl (by simp [EncUnit.width])
theorem atmAndSc (f : AtmScForm) : Statement (.atmAndSc f) := fits rfl (by simp [EncUnit.width])
theorem atmOrSc (f : AtmScForm) : Statement (.atmOrSc f) := fits rfl (by simp [EncUnit.width])
theorem atmXorSc (f : AtmScForm) : Statement (.atmXorSc f) := fits rfl (by simp [EncUnit.width])
theorem atmMinSc (f : AtmScForm) : Statement (.atmMinSc f) := fits rfl (by simp [EncUnit.width])
theorem atmMaxSc (f : AtmScForm) : Statement (.atmMaxSc f) := fits rfl (by simp [EncUnit.width])
theorem atmMinUSc (f : AtmScForm) : Statement (.atmMinUSc f) := fits rfl (by simp [EncUnit.width])
theorem atmMaxUSc (f : AtmScForm) : Statement (.atmMaxUSc f) := fits rfl (by simp [EncUnit.width])
theorem atmSwapSc (f : AtmScForm) : Statement (.atmSwapSc f) := fits rfl (by simp [EncUnit.width])
theorem atmCasSc (f : AtmScForm) (n : Reg) : Statement (.atmCasSc f n) := fits rfl (by simp [EncUnit.width])
theorem li (d : Reg) (imm : W32) : Statement (.li d imm) := fits rfl (by simp [EncUnit.width])
theorem lih (d : Reg) (imm : W32) : Statement (.lih d imm) := fits rfl (by simp [EncUnit.width])
theorem pushbEx (blk : BitVec 16) : Statement (.pushbEx blk) := fits rfl (by simp [EncUnit.width])
theorem pushtMx (f : PushForm) : Statement (.pushtMx f) := fits rfl (by simp [EncUnit.width])
theorem pushrMx (a : Reg) : Statement (.pushrMx a) := fits rfl (by simp [EncUnit.width])
theorem pushtCp (f : PushForm) : Statement (.pushtCp f) := fits rfl (by simp [EncUnit.width])
theorem pushrCp (a : Reg) : Statement (.pushrCp a) := fits rfl (by simp [EncUnit.width])
theorem pushtAl (f : PushForm) : Statement (.pushtAl f) := fits rfl (by simp [EncUnit.width])
theorem pushrAl (a : Reg) : Statement (.pushrAl a) := fits rfl (by simp [EncUnit.width])
theorem vaddI32 (f : VForm) : Statement (.vaddI32 f) := fits rfl (by simp [EncUnit.width])
theorem vsubI32 (f : VForm) : Statement (.vsubI32 f) := fits rfl (by simp [EncUnit.width])
theorem vaddsI32 (f : VForm) : Statement (.vaddsI32 f) := fits rfl (by simp [EncUnit.width])
theorem vsubsI32 (f : VForm) : Statement (.vsubsI32 f) := fits rfl (by simp [EncUnit.width])
theorem vmulI32 (f : VForm) : Statement (.vmulI32 f) := fits rfl (by simp [EncUnit.width])
theorem vmulhI32 (f : VForm) : Statement (.vmulhI32 f) := fits rfl (by simp [EncUnit.width])
theorem vminI32 (f : VForm) : Statement (.vminI32 f) := fits rfl (by simp [EncUnit.width])
theorem vmaxI32 (f : VForm) : Statement (.vmaxI32 f) := fits rfl (by simp [EncUnit.width])
theorem vminN32 (f : VForm) : Statement (.vminN32 f) := fits rfl (by simp [EncUnit.width])
theorem vmaxN32 (f : VForm) : Statement (.vmaxN32 f) := fits rfl (by simp [EncUnit.width])
theorem vand (f : VForm) : Statement (.vand f) := fits rfl (by simp [EncUnit.width])
theorem vor (f : VForm) : Statement (.vor f) := fits rfl (by simp [EncUnit.width])
theorem vxor (f : VForm) : Statement (.vxor f) := fits rfl (by simp [EncUnit.width])
theorem vandn (f : VForm) : Statement (.vandn f) := fits rfl (by simp [EncUnit.width])
theorem vshl (f : VForm) : Statement (.vshl f) := fits rfl (by simp [EncUnit.width])
theorem vshr (f : VForm) : Statement (.vshr f) := fits rfl (by simp [EncUnit.width])
theorem vsra (f : VForm) : Statement (.vsra f) := fits rfl (by simp [EncUnit.width])
theorem vaddminI32 (f : VForm) : Statement (.vaddminI32 f) := fits rfl (by simp [EncUnit.width])
theorem vaddiI32 (f : IForm) : Statement (.vaddiI32 f) := fits rfl (by simp [EncUnit.width])
theorem vshli (f : IForm) : Statement (.vshli f) := fits rfl (by simp [EncUnit.width])
theorem vshri (f : IForm) : Statement (.vshri f) := fits rfl (by simp [EncUnit.width])
theorem vsrai (f : IForm) : Statement (.vsrai f) := fits rfl (by simp [EncUnit.width])
theorem vminiI32 (f : IForm) : Statement (.vminiI32 f) := fits rfl (by simp [EncUnit.width])
theorem vmaxiI32 (f : IForm) : Statement (.vmaxiI32 f) := fits rfl (by simp [EncUnit.width])
theorem vceqI32 (f : VForm) : Statement (.vceqI32 f) := fits rfl (by simp [EncUnit.width])
theorem vcltI32 (f : VForm) : Statement (.vcltI32 f) := fits rfl (by simp [EncUnit.width])
theorem vcleI32 (f : VForm) : Statement (.vcleI32 f) := fits rfl (by simp [EncUnit.width])
theorem vcltN32 (f : VForm) : Statement (.vcltN32 f) := fits rfl (by simp [EncUnit.width])
theorem vplrd (f : IForm) : Statement (.vplrd f) := fits rfl (by simp [EncUnit.width])
theorem vplwr (f : IForm) : Statement (.vplwr f) := fits rfl (by simp [EncUnit.width])
theorem vpladd (f : IForm) : Statement (.vpladd f) := fits rfl (by simp [EncUnit.width])
theorem vaddF32 (f : VForm) : Statement (.vaddF32 f) := fits rfl (by simp [EncUnit.width])
theorem vsubF32 (f : VForm) : Statement (.vsubF32 f) := fits rfl (by simp [EncUnit.width])
theorem vmulF32 (f : VForm) : Statement (.vmulF32 f) := fits rfl (by simp [EncUnit.width])
theorem vfmaF32 (f : VForm) : Statement (.vfmaF32 f) := fits rfl (by simp [EncUnit.width])
theorem vminF32 (f : VForm) : Statement (.vminF32 f) := fits rfl (by simp [EncUnit.width])
theorem vmaxF32 (f : VForm) : Statement (.vmaxF32 f) := fits rfl (by simp [EncUnit.width])
theorem vaddBf (f : VForm) : Statement (.vaddBf f) := fits rfl (by simp [EncUnit.width])
theorem vsubBf (f : VForm) : Statement (.vsubBf f) := fits rfl (by simp [EncUnit.width])
theorem vmulBf (f : VForm) : Statement (.vmulBf f) := fits rfl (by simp [EncUnit.width])
theorem vfmaBf (f : VForm) : Statement (.vfmaBf f) := fits rfl (by simp [EncUnit.width])
theorem vminBf (f : VForm) : Statement (.vminBf f) := fits rfl (by simp [EncUnit.width])
theorem vmaxBf (f : VForm) : Statement (.vmaxBf f) := fits rfl (by simp [EncUnit.width])
theorem vceqF32 (f : VForm) : Statement (.vceqF32 f) := fits rfl (by simp [EncUnit.width])
theorem vcltF32 (f : VForm) : Statement (.vcltF32 f) := fits rfl (by simp [EncUnit.width])
theorem vcleF32 (f : VForm) : Statement (.vcleF32 f) := fits rfl (by simp [EncUnit.width])
theorem vcvtF32 (f : VForm) : Statement (.vcvtF32 f) := fits rfl (by simp [EncUnit.width])
theorem vcvtBf (f : VForm) : Statement (.vcvtBf f) := fits rfl (by simp [EncUnit.width])
theorem vcvtI32 (f : VForm) : Statement (.vcvtI32 f) := fits rfl (by simp [EncUnit.width])
theorem vcvtF8 (f : VForm) : Statement (.vcvtF8 f) := fits rfl (by simp [EncUnit.width])
theorem vcvtBp (f : VForm) : Statement (.vcvtBp f) := fits rfl (by simp [EncUnit.width])
theorem vitpBf (f : VForm) : Statement (.vitpBf f) := fits rfl (by simp [EncUnit.width])
theorem vcbxBp16 (f : VForm) : Statement (.vcbxBp16 f) := fits rfl (by simp [EncUnit.width])
theorem vcbxBf (f : VForm) : Statement (.vcbxBf f) := fits rfl (by simp [EncUnit.width])
theorem vcbxVq4 (f : VForm) : Statement (.vcbxVq4 f) := fits rfl (by simp [EncUnit.width])
theorem cbswap (f : WForm) : Statement (.cbswap f) := fits rfl (by simp [EncUnit.width])
theorem vsel (f : VForm) : Statement (.vsel f) := fits rfl (by simp [EncUnit.width])
theorem vslu (f : IForm) : Statement (.vslu f) := fits rfl (by simp [EncUnit.width])
theorem vsld (f : IForm) : Statement (.vsld f) := fits rfl (by simp [EncUnit.width])
theorem vperm (f : VForm) : Statement (.vperm f) := fits rfl (by simp [EncUnit.width])
theorem vbcst (f : IForm) : Statement (.vbcst f) := fits rfl (by simp [EncUnit.width])
theorem vfsu (f : VForm) : Statement (.vfsu f) := fits rfl (by simp [EncUnit.width])
theorem qand (f : VForm) : Statement (.qand f) := fits rfl (by simp [EncUnit.width])
theorem qor (f : VForm) : Statement (.qor f) := fits rfl (by simp [EncUnit.width])
theorem qxor (f : VForm) : Statement (.qxor f) := fits rfl (by simp [EncUnit.width])
theorem qandn (f : VForm) : Statement (.qandn f) := fits rfl (by simp [EncUnit.width])
theorem qnot (f : VForm) : Statement (.qnot f) := fits rfl (by simp [EncUnit.width])
theorem qleni (f : WForm) : Statement (.qleni f) := fits rfl (by simp [EncUnit.width])
theorem qlen (f : VForm) : Statement (.qlen f) := fits rfl (by simp [EncUnit.width])
theorem qset (f : VForm) : Statement (.qset f) := fits rfl (by simp [EncUnit.width])
theorem vraddI32 (f : VForm) : Statement (.vraddI32 f) := fits rfl (by simp [EncUnit.width])
theorem vrminI32 (f : VForm) : Statement (.vrminI32 f) := fits rfl (by simp [EncUnit.width])
theorem vrmaxI32 (f : VForm) : Statement (.vrmaxI32 f) := fits rfl (by simp [EncUnit.width])
theorem vraddF32 (f : VForm) : Statement (.vraddF32 f) := fits rfl (by simp [EncUnit.width])
theorem vrminF32 (f : VForm) : Statement (.vrminF32 f) := fits rfl (by simp [EncUnit.width])
theorem vrmaxF32 (f : VForm) : Statement (.vrmaxF32 f) := fits rfl (by simp [EncUnit.width])
theorem vraddBf (f : VForm) : Statement (.vraddBf f) := fits rfl (by simp [EncUnit.width])
theorem vpop (f : VForm) : Statement (.vpop f) := fits rfl (by simp [EncUnit.width])
theorem vpush (f : VForm) : Statement (.vpush f) := fits rfl (by simp [EncUnit.width])
theorem vpushc (f : VForm) : Statement (.vpushc f) := fits rfl (by simp [EncUnit.width])
theorem vpopx (f : VForm) : Statement (.vpopx f) := fits rfl (by simp [EncUnit.width])
theorem vmov (f : VForm) : Statement (.vmov f) := fits rfl (by simp [EncUnit.width])
theorem vmovi (f : WForm) : Statement (.vmovi f) := fits rfl (by simp [EncUnit.width])
theorem vmovmb (f : VForm) : Statement (.vmovmb f) := fits rfl (by simp [EncUnit.width])
theorem vmovlc (f : VForm) : Statement (.vmovlc f) := fits rfl (by simp [EncUnit.width])
theorem loop (f : LForm) : Statement (.loop f) := fits rfl (by simp [EncUnit.width])
theorem loopm (f : LForm) : Statement (.loopm f) := fits rfl (by simp [EncUnit.width])
theorem loopc (f : LForm) : Statement (.loopc f) := fits rfl (by simp [EncUnit.width])
theorem vxi (f : WForm) : Statement (.vxi f) := fits rfl (by simp [EncUnit.width])
theorem vxa (f : WForm) : Statement (.vxa f) := fits rfl (by simp [EncUnit.width])
theorem semw (f : WForm) : Statement (.semw f) := fits rfl (by simp [EncUnit.width])
theorem sems (f : WForm) : Statement (.sems f) := fits rfl (by simp [EncUnit.width])
theorem fbput (f : IForm) : Statement (.fbput f) := fits rfl (by simp [EncUnit.width])
theorem pat (f : PatForm) : Statement (.pat f) := fits rfl (by simp [EncUnit.width])
theorem copy (f : CopyForm) : Statement (.copy f) := fits rfl (by simp [EncUnit.width])
theorem copya (f : CopyaForm) : Statement (.copya f) := fits rfl (by simp [EncUnit.width])
theorem gather (f : GatherForm) : Statement (.gather f) := fits rfl (by simp [EncUnit.width])
theorem scatter (f : GatherForm) : Statement (.scatter f) := fits rfl (by simp [EncUnit.width])
theorem fill (f : FillForm) : Statement (.fill f) := fits rfl (by simp [EncUnit.width])
theorem bind (f : BindForm) : Statement (.bind f) := fits rfl (by simp [EncUnit.width])
theorem unbind (port : BitVec 4) (t : CpTail) : Statement (.unbind port t) := fits rfl (by simp [EncUnit.width])
theorem unpack (f : UnpackForm) : Statement (.unpack f) := fits rfl (by simp [EncUnit.width])
theorem cbld (f : CbldForm) : Statement (.cbld f) := fits rfl (by simp [EncUnit.width])
theorem itld (f : ItldForm) : Statement (.itld f) := fits rfl (by simp [EncUnit.width])
theorem cmpl (t : CpTail) : Statement (.cmpl t) := fits rfl (by simp [EncUnit.width])
theorem ckst (dst : Addr) (t : CpTail) : Statement (.ckst dst t) := fits rfl (by simp [EncUnit.width])
theorem mmul (f : MulForm) : Statement (.mmul f) := fits rfl (by simp [EncUnit.width])
theorem mmuls (f : MulForm) : Statement (.mmuls f) := fits rfl (by simp [EncUnit.width])
theorem hrot (acc : Byte) (side kind : Bool) (t : MxTail) : Statement (.hrot acc side kind t) := fits rfl (by simp [EncUnit.width])
theorem drain (f : DrainForm) : Statement (.drain f) := fits rfl (by simp [EncUnit.width])
theorem acclr (acc : Byte) (kind : Bool) (t : MxTail) : Statement (.acclr acc kind t) := fits rfl (by simp [EncUnit.width])
theorem accadd (src : BitVec 20) (acc : Byte) (kind : Bool) (t : MxTail) : Statement (.accadd src acc kind t) := fits rfl (by simp [EncUnit.width])
theorem mxCbswap (bank : BitVec 2) (t : MxTail) : Statement (.mxCbswap bank t) := fits rfl (by simp [EncUnit.width])
theorem msem (t : MxTail) : Statement (.msem t) := fits rfl (by simp [EncUnit.width])
theorem lnVadd (f : LnForm) : Statement (.lnVadd f) := fits rfl (by simp [EncUnit.width])
theorem lnVsub (f : LnForm) : Statement (.lnVsub f) := fits rfl (by simp [EncUnit.width])
theorem lnVmul (f : LnForm) : Statement (.lnVmul f) := fits rfl (by simp [EncUnit.width])
theorem lnVmac (f : LnForm) : Statement (.lnVmac f) := fits rfl (by simp [EncUnit.width])
theorem lnVmin (f : LnForm) : Statement (.lnVmin f) := fits rfl (by simp [EncUnit.width])
theorem lnVmax (f : LnForm) : Statement (.lnVmax f) := fits rfl (by simp [EncUnit.width])
theorem lnVand (f : LnForm) : Statement (.lnVand f) := fits rfl (by simp [EncUnit.width])
theorem lnVor (f : LnForm) : Statement (.lnVor f) := fits rfl (by simp [EncUnit.width])
theorem lnVxor (f : LnForm) : Statement (.lnVxor f) := fits rfl (by simp [EncUnit.width])
theorem lnVclt (f : LnForm) : Statement (.lnVclt f) := fits rfl (by simp [EncUnit.width])
theorem lnVceq (f : LnForm) : Statement (.lnVceq f) := fits rfl (by simp [EncUnit.width])
theorem lnVshl (f : LnForm) : Statement (.lnVshl f) := fits rfl (by simp [EncUnit.width])
theorem lnVshr (f : LnForm) : Statement (.lnVshr f) := fits rfl (by simp [EncUnit.width])
theorem lnVsra (f : LnForm) : Statement (.lnVsra f) := fits rfl (by simp [EncUnit.width])
theorem lnVrshr (f : LnForm) : Statement (.lnVrshr f) := fits rfl (by simp [EncUnit.width])
theorem lnVabs (f : LnForm) : Statement (.lnVabs f) := fits rfl (by simp [EncUnit.width])
theorem lnVsel (f : LnForm) : Statement (.lnVsel f) := fits rfl (by simp [EncUnit.width])
theorem lnVidx (f : LnForm) : Statement (.lnVidx f) := fits rfl (by simp [EncUnit.width])
theorem lnVlut (f : LnForm) : Statement (.lnVlut f) := fits rfl (by simp [EncUnit.width])
theorem lnVrsum (f : LnForm) : Statement (.lnVrsum f) := fits rfl (by simp [EncUnit.width])
theorem lnVrmin (f : LnForm) : Statement (.lnVrmin f) := fits rfl (by simp [EncUnit.width])
theorem lnVrmax (f : LnForm) : Statement (.lnVrmax f) := fits rfl (by simp [EncUnit.width])
theorem lld (f : LnForm) : Statement (.lld f) := fits rfl (by simp [EncUnit.width])
theorem lst (f : LnForm) : Statement (.lst f) := fits rfl (by simp [EncUnit.width])
theorem kli (f : LnForm) : Statement (.kli f) := fits rfl (by simp [EncUnit.width])
theorem kadd (f : LnForm) : Statement (.kadd f) := fits rfl (by simp [EncUnit.width])
theorem ksub (f : LnForm) : Statement (.ksub f) := fits rfl (by simp [EncUnit.width])
theorem kmul (f : LnForm) : Statement (.kmul f) := fits rfl (by simp [EncUnit.width])
theorem kmin (f : LnForm) : Statement (.kmin f) := fits rfl (by simp [EncUnit.width])
theorem kmax (f : LnForm) : Statement (.kmax f) := fits rfl (by simp [EncUnit.width])
theorem kand (f : LnForm) : Statement (.kand f) := fits rfl (by simp [EncUnit.width])
theorem kshl (f : LnForm) : Statement (.kshl f) := fits rfl (by simp [EncUnit.width])
theorem kshr (f : LnForm) : Statement (.kshr f) := fits rfl (by simp [EncUnit.width])
theorem ksr (f : LnForm) : Statement (.ksr f) := fits rfl (by simp [EncUnit.width])
theorem rstat (f : LnForm) : Statement (.rstat f) := fits rfl (by simp [EncUnit.width])
theorem fmem (rule : BitVec 6) (part : Bool) (members : W64) : Statement (.fmem rule part members) := fits rfl (by simp [EncUnit.width])
theorem ftol (rule : BitVec 6) (refpos : BitVec 4) (delta dead : W32) : Statement (.ftol rule refpos delta dead) := fits rfl (by simp [EncUnit.width])
theorem fring (rule : BitVec 6) (nrecm1 : Byte) (ring : Addr) : Statement (.fring rule nrecm1 ring) := fits rfl (by simp [EncUnit.width])
theorem fcnt (rule : BitVec 6) (cnt : Addr) : Statement (.fcnt rule cnt) := fits rfl (by simp [EncUnit.width])
theorem fpeer (rule : BitVec 6) (prule : BitVec 6) (mode : BitVec 2) (port : Bool) : Statement (.fpeer rule prule mode port) := fits rfl (by simp [EncUnit.width])
theorem farm (rule : BitVec 6) : Statement (.farm rule) := fits rfl (by simp [EncUnit.width])
theorem fdis (rule : BitVec 6) : Statement (.fdis rule) := fits rfl (by simp [EncUnit.width])
theorem fforce (rule : BitVec 6) : Statement (.fforce rule) := fits rfl (by simp [EncUnit.width])
theorem tret : Statement (.tret) := fits rfl (by simp [EncUnit.width])
theorem region : Statement (.region) := fits rfl (by simp [EncUnit.width])
theorem done : Statement (.done) := fits rfl (by simp [EncUnit.width])
theorem exNop : Statement (.exNop) := fun _ _ h => by cases h; decide
theorem lnNop : Statement (.lnNop) := fun _ _ h => by cases h; decide
theorem stallRelease (c : CtxId) : Statement (.stallRelease c) := fun _ _ h => nomatch h
theorem loadValueReturn (c : CtxId) (n : Nat) : Statement (.loadValueReturn c n) := fun _ _ h => nomatch h
theorem divisionResult (c : CtxId) : Statement (.divisionResult c) := fun _ _ h => nomatch h
theorem hostWindowReadCompletion (c : CtxId) (n : Nat) (ok : Bool) (data : List Byte) : Statement (.hostWindowReadCompletion c n ok data) := fun _ _ h => nomatch h
theorem waitWake (c : CtxId) : Statement (.waitWake c) := fun _ _ h => nomatch h
theorem waitTimeout (c : CtxId) : Statement (.waitTimeout c) := fun _ _ h => nomatch h
theorem timerInterrupt (c : CtxId) : Statement (.timerInterrupt c) := fun _ _ h => nomatch h
theorem feedbackInterrupt (c : CtxId) : Statement (.feedbackInterrupt c) := fun _ _ h => nomatch h
theorem regionLengthFault (c : CtxId) : Statement (.regionLengthFault c) := fun _ _ h => nomatch h
theorem preemptionRequest (c : CtxId) : Statement (.preemptionRequest c) := fun _ _ h => nomatch h
theorem workItemRestart (c : CtxId) : Statement (.workItemRestart c) := fun _ _ h => nomatch h
theorem contextEnded (c : CtxId) : Statement (.contextEnded c) := fun _ _ h => nomatch h
theorem blockFetch (c : CtxId) : Statement (.blockFetch c) := fun _ _ h => nomatch h
theorem blockStart (c : CtxId) : Statement (.blockStart c) := fun _ _ h => nomatch h
theorem operationRetire (c : CtxId) : Statement (.operationRetire c) := fun _ _ h => nomatch h
theorem blockComplete (c : CtxId) : Statement (.blockComplete c) := fun _ _ h => nomatch h
theorem slipBudgetFault (c : CtxId) : Statement (.slipBudgetFault c) := fun _ _ h => nomatch h
theorem cpCommandComplete (c : CtxId) (num : W32) : Statement (.cpCommandComplete c num) := fun _ _ h => nomatch h
theorem bindingEntryAppend (c : CtxId) (port : BitVec 4) : Statement (.bindingEntryAppend c port) := fun _ _ h => nomatch h
theorem bindingEntryDrain (c : CtxId) (port : BitVec 4) : Statement (.bindingEntryDrain c port) := fun _ _ h => nomatch h
theorem bindingEnd (c : CtxId) (port : BitVec 4) : Statement (.bindingEnd c port) := fun _ _ h => nomatch h
theorem peerRefusal (c : CtxId) (num : W32) (addr : Addr) : Statement (.peerRefusal c num addr) := fun _ _ h => nomatch h
theorem peerWriteAck (c : CtxId) (num : W32) (off len : Nat) (sum : W32) : Statement (.peerWriteAck c num off len sum) := fun _ _ h => nomatch h
theorem flitReceive (p : LinkId) (f : Flit) : Statement (.flitReceive p f) := fun _ _ h => nomatch h
theorem flitResend (p : FlitRef) : Statement (.flitResend p) := fun _ _ h => nomatch h
theorem lkPeerAccess (p : LinkId) (a : PeerAccess) : Statement (.lkPeerAccess p a) := fun _ _ h => nomatch h
theorem lkinjWrite (p : LinkId) (val : W32) : Statement (.lkinjWrite p val) := fun _ _ h => nomatch h
theorem crierCompare (c : CtxId) : Statement (.crierCompare c) := fun _ _ h => nomatch h
theorem mxEnterCompute (c : CtxId) : Statement (.mxEnterCompute c) := fun _ _ h => nomatch h
theorem mxCommandComplete (c : CtxId) : Statement (.mxCommandComplete c) := fun _ _ h => nomatch h
theorem frameRecording (s : StreamId) : Statement (.frameRecording s) := fun _ _ h => nomatch h
theorem ruleDeadline (r : RuleId) : Statement (.ruleDeadline r) := fun _ _ h => nomatch h
theorem broadcastReceipt (p : LinkId) : Statement (.broadcastReceipt p) := fun _ _ h => nomatch h
theorem csi2FrameStart (s : StreamId) (ecc : Bool) : Statement (.csi2FrameStart s ecc) := fun _ _ h => nomatch h
theorem csi2FrameEnd (s : StreamId) (ecc : Bool) : Statement (.csi2FrameEnd s ecc) := fun _ _ h => nomatch h
theorem csi2LongPacketStart (s : StreamId) (dt : Byte) (ecc : Bool) : Statement (.csi2LongPacketStart s dt ecc) := fun _ _ h => nomatch h
theorem csi2LongPacketEnd (s : StreamId) (samples : List (BitVec 16)) (crcOk : Bool) : Statement (.csi2LongPacketEnd s samples crcOk) := fun _ _ h => nomatch h
theorem discardedPacket (s : StreamId) (kind : Discarded) : Statement (.discardedPacket s kind) := fun _ _ h => nomatch h
theorem lidarDatagram (port : Fin 8) (d : Datagram) : Statement (.lidarDatagram port d) := fun _ _ h => nomatch h
theorem frameSync (s : StreamId) : Statement (.frameSync s) := fun _ _ h => nomatch h
theorem rowDeadline (s : StreamId) : Statement (.rowDeadline s) := fun _ _ h => nomatch h
theorem ringRowEnter (s : StreamId) : Statement (.ringRowEnter s) := fun _ _ h => nomatch h
theorem millConfigApply (s : StreamId) : Statement (.millConfigApply s) := fun _ _ h => nomatch h
theorem stripStart (p : ProcId) : Statement (.stripStart p) := fun _ _ h => nomatch h
theorem outputRowComplete (p : ProcId) : Statement (.outputRowComplete p) := fun _ _ h => nomatch h
theorem tileRowWrite (s : StreamId) : Statement (.tileRowWrite s) := fun _ _ h => nomatch h
theorem slotReset (s : StreamId) : Statement (.slotReset s) := fun _ _ h => nomatch h
theorem doorbell (q : QId) (v : W32) : Statement (.doorbell q v) := fun _ _ h => nomatch h
theorem launchAdmit (q : QId) : Statement (.launchAdmit q) := fun _ _ h => nomatch h
theorem launchPrepared (q : QId) (by_ : Prepared) : Statement (.launchPrepared q by_) := fun _ _ h => nomatch h
theorem workItemDispatch : Statement (.workItemDispatch) := fun _ _ h => nomatch h
theorem launchComplete (q : QId) (lseq : W32) : Statement (.launchComplete q lseq) := fun _ _ h => nomatch h
theorem exceptionRecordWrite (q : QId) : Statement (.exceptionRecordWrite q) := fun _ _ h => nomatch h
theorem xheadWrite (q : QId) (v : W32) : Statement (.xheadWrite q v) := fun _ _ h => nomatch h
theorem answerResume (q : QId) (rseq : W32) : Statement (.answerResume q rseq) := fun _ _ h => nomatch h
theorem answerSkip (q : QId) (rseq : W32) : Statement (.answerSkip q rseq) := fun _ _ h => nomatch h
theorem answerAbort (q : QId) (rseq : W32) : Statement (.answerAbort q rseq) := fun _ _ h => nomatch h
theorem qkill (q : QId) (go : Bool) (lseq : W32) : Statement (.qkill q go lseq) := fun _ _ h => nomatch h
theorem coalescingTimer (q : QId) : Statement (.coalescingTimer q) := fun _ _ h => nomatch h
theorem priorityRise (q : QId) (lseq : W32) : Statement (.priorityRise q lseq) := fun _ _ h => nomatch h
theorem slowSwap (q : QId) (lseq : W32) (victim : CtxId) : Statement (.slowSwap q lseq victim) := fun _ _ h => nomatch h
theorem watchdogT1 (q : QId) (lseq : W32) : Statement (.watchdogT1 q lseq) := fun _ _ h => nomatch h
theorem watchdogT2 (q : QId) (lseq : W32) : Statement (.watchdogT2 q lseq) := fun _ _ h => nomatch h
theorem partitionReset (p : PartId) : Statement (.partitionReset p) := fun _ _ h => nomatch h
theorem resetTimeout (p : PartId) : Statement (.resetTimeout p) := fun _ _ h => nomatch h
theorem selfTestSlot (g : CoreId) (failing : BitVec 4) : Statement (.selfTestSlot g failing) := fun _ _ h => nomatch h
theorem selfTestDispatchStop (g : CoreId) : Statement (.selfTestDispatchStop g) := fun _ _ h => nomatch h
theorem selfTestOverdue (g : CoreId) : Statement (.selfTestOverdue g) := fun _ _ h => nomatch h
theorem liveUpdate (img : FwImage) (canImport : Bool) : Statement (.liveUpdate img canImport) := fun _ _ h => nomatch h
theorem standbyTakeover : Statement (.standbyTakeover) := fun _ _ h => nomatch h
theorem resynchronisation : Statement (.resynchronisation) := fun _ _ h => nomatch h
theorem fwcmdRefused (cmd : BitVec 3) : Statement (.fwcmdRefused cmd) := fun _ _ h => nomatch h
theorem gptpFirstLock (port : BitVec 3) (t : W64) : Statement (.gptpFirstLock port t) := fun _ _ h => nomatch h
theorem gptpSync (t : SyncMsg) (ppm : Int) : Statement (.gptpSync t ppm) := fun _ _ h => nomatch h
theorem holdoverEntry : Statement (.holdoverEntry) := fun _ _ h => nomatch h
theorem tbnowLowRead (requester : Nat) : Statement (.tbnowLowRead requester) := fun _ _ h => nomatch h
theorem hostBarRead (bar : Bar) (off : Nat) (len : HostLen) : Statement (.hostBarRead bar off len) := fun _ _ h => nomatch h
theorem hostBarWrite (bar : Bar) (off : Nat) (data : List Byte) : Statement (.hostBarWrite bar off data) := fun _ _ h => nomatch h
theorem hostAtomicop : Statement (.hostAtomicop) := fun _ _ h => nomatch h
theorem registerWrite (fw : Bool) (off : BitVec 20) (val : W64) : Statement (.registerWrite fw off val) := fun _ _ h => nomatch h
theorem attest (nonce : List Byte) : Statement (.attest nonce) := fun _ _ h => nomatch h
theorem readreg (off : W32) : Statement (.readreg off) := fun _ _ h => nomatch h
theorem stage (page : BitVec 16) (data : List Byte) : Statement (.stage page data) := fun _ _ h => nomatch h
theorem stagestat : Statement (.stagestat) := fun _ _ h => nomatch h
theorem usbRequestStall (req : Byte) : Statement (.usbRequestStall req) := fun _ _ h => nomatch h
theorem deviceReset (copy1 copy2 : FwImage) : Statement (.deviceReset copy1 copy2) := fun _ _ h => nomatch h
theorem reducedService : Statement .reducedService := fun _ _ h => nomatch h
theorem fullService (mxcap : ServiceCfg) : Statement (.fullService mxcap) := fun _ _ h => nomatch h
theorem softErrorCorrected (u : ErrUnit) (fits : Lasting) : Statement (.softErrorCorrected u fits) := fun _ _ h => nomatch h
theorem coreEvacuation (c tgt : CtxId) : Statement (.coreEvacuation c tgt) := fun _ _ h => nomatch h
theorem channelRemapDone (ch : Fin 16) : Statement (.channelRemapDone ch) := fun _ _ h => nomatch h
theorem thermalRelief (tj : Byte) : Statement (.thermalRelief tj) := fun _ _ h => nomatch h
theorem thermalRestore (tj : Byte) : Statement (.thermalRestore tj) := fun _ _ h => nomatch h
theorem clockStepChange : Statement (.clockStepChange) := fun _ _ h => nomatch h
theorem ageLimit (cl : Fin 12) (margin : BitVec 16) : Statement (.ageLimit cl margin) := fun _ _ h => nomatch h
theorem thrumolPortTrained (p : LinkId) (lanes : BitVec 4) : Statement (.thrumolPortTrained p lanes) := fun _ _ h => nomatch h
theorem partitionResetComplete (p : PartId) : Statement (.partitionResetComplete p) := fun _ _ h => nomatch h

end Sys2Proof.Laws.Encoding
end

