-- ==== Sys2Proof/Laws/Spec.lean ====
section
/-! SUPPORT. One lemma for what each shared operation does, for proofs to cite in place of its definition. -/

namespace Sys2Proof.Machine

/-! ## Answers -/

@[simp] theorem Answer.stateOr_next (s t : State) : Answer.stateOr s (.next t) = t := rfl

/-! ## The sequencer (R94, R119 to R126) -/

variable {s : State} {d a b : Reg}

/-- A register of the list is outstanding: the instruction waits (R119). -/
theorem issue_waits {rs : List Reg} {f : CtxId → Context → State} {r : Reg} (hr : r ∈ rs) (h : (s.ctx s.focus).busy r = true) :
    s.issue rs f = .next s := by
  have : rs.any (s.ctx s.focus).busy = true := List.any_eq_true.mpr ⟨r, hr, h⟩
  simp [State.issue, this]

/-- None is: the instruction has its effect. -/
theorem issue_runs {rs : List Reg} {f : CtxId → Context → State} (h : ∀ r ∈ rs, (s.ctx s.focus).busy r = false) :
    s.issue rs f = .next (f s.focus (s.ctx s.focus)) := by
  have : rs.any (s.ctx s.focus).busy = false := List.any_eq_false.mpr fun r hr => by simp [h r hr]
  simp [State.issue, this]

/-- An issue always answers a next state. -/
theorem issue_next (rs : List Reg) (f : CtxId → Context → State) : ∃ t, s.issue rs f = .next t := by
  unfold State.issue
  split <;> exact ⟨_, rfl⟩

/-- A register operation writes its result and goes on (R120). -/
theorem alu_runs {f : W64 → W64 → W64} (h : ∀ r ∈ [a, b, d], (s.ctx s.focus).busy r = false) :
    s.alu d a b f =
      .next (s.setCtx s.focus (((s.ctx s.focus).setReg d (f ((s.ctx s.focus).reg a) ((s.ctx s.focus).reg b))).advance 4)) :=
  issue_runs h

/-- The same with one register (R122). -/
theorem alu1_runs {f : W64 → W64} (h : ∀ r ∈ [a, d], (s.ctx s.focus).busy r = false) :
    s.alu1 d a f = .next (s.setCtx s.focus (((s.ctx s.focus).setReg d (f ((s.ctx s.focus).reg a))).advance 4)) :=
  issue_runs h

/-- A division goes on with its result outstanding (R119). -/
theorem divide_runs {f : W64 → W64 → W64} (hd : d ≠ 0) (h : ∀ r ∈ [a, b, d], (s.ctx s.focus).busy r = false) :
    s.divide d a b f = .next (s.setCtx s.focus ({ s.ctx s.focus with
      divs := (s.ctx s.focus).divs ++ [(⟨d, f ((s.ctx s.focus).reg a) ((s.ctx s.focus).reg b), s.clk⟩ : DivFlight)] }.advance 4)) := by
  simp only [State.divide, issue_runs h, State.finish, if_neg hd]

/-- A transfer to a target R89 allows (R124 to R126). -/
theorem jumpTo_allowed {c : CtxId} {x : Context} {t : W64} (h : x.okTarget t = true) :
    s.jumpTo c x d t = s.setCtx c { x.setReg d ((x.pc + 4).zeroExtend 64) with pc := t.setWidth 48, run := .run } := by
  simp [State.jumpTo, h]

/-- A transfer to any other target: the fetch fault (R126). -/
theorem jumpTo_refused {c : CtxId} {x : Context} {t : W64} (h : x.okTarget t = false) :
    s.jumpTo c x d t = s.seqFault c (fetchFault t) := by simp [State.jumpTo, h]

/-- A branch not taken goes on (R124). -/
theorem branch_not_taken {off : BitVec 15} {p : W64 → W64 → Bool} (h : ∀ r ∈ [a, b], (s.ctx s.focus).busy r = false)
    (hp : p ((s.ctx s.focus).reg a) ((s.ctx s.focus).reg b) = false) :
    s.branch a b off p = .next (s.setCtx s.focus ((s.ctx s.focus).advance 4)) := by
  simp [State.branch, issue_runs h, hp, State.finish]

/-- A branch taken transfers to its target (R124). -/
theorem branch_taken {off : BitVec 15} {p : W64 → W64 → Bool} (h : ∀ r ∈ [a, b], (s.ctx s.focus).busy r = false)
    (hp : p ((s.ctx s.focus).reg a) ((s.ctx s.focus).reg b) = true) :
    s.branch a b off p = .next (s.jumpTo s.focus (s.ctx s.focus) 0 ((s.ctx s.focus).rel off)) := by
  simp [State.branch, issue_runs h, hp]

/-! ## Loads and stores (R61, R128) -/

/-- A load outside the host window fixes its value from memory now (R119). -/
theorem load_device {c : CtxId} {x : Context} {t : AccTy} {acc : Acc} {mask : BitVec 16} {acq : Bool}
    (h : inHost acc.ea.toNat = false) :
    s.load c x d t acc mask acq = s.setCtx c ((x.record d t (memNat s.mem acc.ea.toNat (accBytes t))).advance 8) := by
  simp [State.load, h, State.finish]

/-- A store outside the host window writes memory, and no context. -/
theorem put_device {ea n : Nat} {v : W64} (h : inHost ea = false) : s.put ea n v = s.store ea (leBytes n v.toNat) := by
  simp [State.put, h]

/-- A store outside the slots of streams that are on writes its bytes and nothing else (R336). -/
theorem store_plain {ea : Nat} {l : List Byte} (h : ∀ i < l.length, s.inSlot (ea + i) = false) :
    s.store ea l = { s with mem := memWrite s.mem ea l } := by
  have : ((List.range l.length).any fun i => s.inSlot (ea + i)) = false :=
    List.any_eq_false.mpr fun i hi => by simp [h i (List.mem_range.mp hi)]
  simp [State.store, this]

@[simp] theorem ctxs_store (ea : Nat) (l : List Byte) : (s.store ea l).ctxs = s.ctxs := by
  unfold State.store
  split <;> rfl

/-! ## Faults and traps (R31 to R34, R100 to R103) -/

/-- A fault adds one record of its launch queue, after every other. -/
theorem raise_faults (s : State) (c : CtxId) (eng unit : Nat) (loc : W64) (f : FaultInfo) :
    ∃ e, (s.raise c eng unit loc f).faults = s.faults ++ [e] ∧ e.src = .ctx c.val ∧ e.clk = s.clk ∧ e.rseq = none ∧ e.dead = false ∧
      e.r.code = f.code ∧ e.r.state = f.st ∧ e.r.eng = eng ∧ e.r.core = c.core ∧ e.r.ctx = c.bg ∧ e.r.loc = loc ∧ e.r.addr = f.addr ∧
      e.r.det0 = f.det0 ∧ e.r.det1 = f.det1 ∧ e.r.time = s.now := by
  unfold State.raise State.raiseAt State.addFaultAt State.lateOf
  dsimp only
  split <;> refine ⟨_, rfl, ?_⟩ <;> and_intros <;> rfl

@[simp] theorem mem_raise (s : State) (c : CtxId) (eng unit : Nat) (loc : W64) (f : FaultInfo) :
    (s.raise c eng unit loc f).mem = s.mem := by
  unfold State.raise State.raiseAt State.lateOf
  dsimp only
  split <;> rfl

/-- A fault of STATE 0 or 1 halts its engine and counts. -/
theorem raise_ctx {c : CtxId} {eng unit : Nat} {loc : W64} {f : FaultInfo} (h : f.st ≠ 2) :
    (s.raise c eng unit loc f).ctx c = ({ s.ctx c with fcnt := satInc (s.ctx c).fcnt }).haltEng eng := by
  simp [State.raise, State.raiseAt, State.lateOf, h, State.modCtx, State.addFaultAt, State.ctx]

/-- A fault of a context leaves every other context. -/
theorem raise_ctx_ne {c k : CtxId} {eng unit : Nat} {loc : W64} {f : FaultInfo} (h : k ≠ c) :
    (s.raise c eng unit loc f).ctx k = s.ctx k := by
  have : k.val ≠ c.val := fun e => h (Fin.ext e)
  unfold State.raise State.raiseAt State.lateOf
  dsimp only
  split <;> simp [State.modCtx, State.addFaultAt, State.ctx, State.setCtx, tabGet_tabSet_ne _ _ _ this]

/-- A sequencer fault puts its context in HALT, with the pc where it was (R103). -/
theorem seqFault_ctx {c : CtxId} {f : FaultInfo} (h : f.st ≠ 2) :
    (s.seqFault c f).ctx c = { s.ctx c with run := .halt, sleep := none, fcnt := satInc (s.ctx c).fcnt } := by
  simp [State.seqFault, raise_ctx h, Context.haltEng]

/-- A trap entry whose handler R89 allows (R100, R102). -/
theorem trapEnter_runs {c : CtxId} {intr : Bool} {cause : BitVec 16} {val : W64} {epc : Addr} (h0 : (s.ctx c).tvec ≠ 0)
    (hi : (s.ctx c).inh = false) (ht : (s.ctx c).okTarget ((s.ctx c).tvec.zeroExtend 64) = true) :
    s.trapEnter c intr cause val epc = s.setCtx c { s.ctx c with
      tepc := epc, intr := intr, cause := cause, tval := val, pie := (s.ctx c).ie.getLsbD 0, inh := true,
      ie := (s.ctx c).ie &&& 6#3, pc := (s.ctx c).tvec, run := .run, sleep := none } := by
  unfold State.trapEnter
  simp only [if_neg h0, hi, ht]
  rfl

/-- A return from a handler (R101). -/
theorem trapReturn_runs {c : CtxId} (hi : (s.ctx c).inh = true) (ht : (s.ctx c).okTarget ((s.ctx c).tepc.zeroExtend 64) = true) :
    s.trapReturn c = s.setCtx c { s.ctx c with
      pc := (s.ctx c).tepc, ie := ((s.ctx c).ie &&& 6#3) ||| (if (s.ctx c).pie then 1#3 else 0#3), inh := false, run := .run } := by
  simp [State.trapReturn, hi, ht]

/-! ## Launches -/

/-- A launch changed is in the list, changed; every other stays. -/
theorem mem_modLaunch {q : Nat} {lseq : W32} {f : Launch → Launch} {m : Launch} :
    m ∈ (s.modLaunch q lseq f).launches ↔ ∃ l ∈ s.launches, m = if l.q == q && l.lseq == lseq then f l else l := by
  simp only [State.modLaunch, List.mem_map, eq_comm (a := m)]

/-- A launch found has the queue and number asked for. -/
theorem launchOf_some {q : Nat} {lseq : W32} {l : Launch} (h : s.launchOf q lseq = some l) :
    l ∈ s.launches ∧ l.q = q ∧ l.lseq = lseq := by
  have hp := List.find?_some h
  simp only [Bool.and_eq_true, beq_iff_eq] at hp
  exact ⟨List.mem_of_find?_eq_some h, hp.1, hp.2⟩

/-! ## The execute core (R156, R162, R183) -/

/-- A slot whose views are in range and whose own conditions hold enters the pipeline. -/
theorem exOp_runs {slot : Nat} {views : ExIn → List Nat} {f : ExIn → ExRes} {j : Job} {r : RunBlock} {t : State} {o : InFlight}
    (hj : (s.ctx s.focus).job = some j) (hb : (s.ctx s.focus).ex.block = some r) (hh : (s.ctx s.focus).ex.halted = false)
    (hd : r.draining = false) (hv : ∀ v ∈ views ⟨s.focus, s.ctx s.focus, j, r, s.clk⟩, v < 128 ∧ v < j.k.vn)
    (hf : f ⟨s.focus, s.ctx s.focus, j, r, s.clk⟩ = .run t (some o)) : s.exOp slot views f = .next (t.exEnter s.focus slot o) := by
  have hn : ExIn.badView ⟨s.focus, s.ctx s.focus, j, r, s.clk⟩ (views ⟨s.focus, s.ctx s.focus, j, r, s.clk⟩) = none := by
    refine List.find?_eq_none.mpr fun v m => ?_
    have := hv v m
    simp only [Bool.or_eq_true, decide_eq_true_eq, not_or, Nat.not_le]
    exact this
  simp [State.exOp, hj, hb, hh, hd, hn, hf]

/-- A slot with a view out of range: the view-range fault of the first such view (R183). -/
theorem exOp_bad_view {slot : Nat} {views : ExIn → List Nat} {f : ExIn → ExRes} {j : Job} {r : RunBlock} {v : Nat}
    (hj : (s.ctx s.focus).job = some j) (hb : (s.ctx s.focus).ex.block = some r) (hh : (s.ctx s.focus).ex.halted = false)
    (hd : r.draining = false)
    (hv : ExIn.badView ⟨s.focus, s.ctx s.focus, j, r, s.clk⟩ (views ⟨s.focus, s.ctx s.focus, j, r, s.clk⟩) = some v) :
    s.exOp slot views f = .next (s.exFault s.focus r slot 0x0302 (slotWord r.bundle slot)
      (ExIn.viewDet ⟨s.focus, s.ctx s.focus, j, r, s.clk⟩ v)) := by
  simp [State.exOp, hj, hb, hh, hd, hv]

/-- Every slot operation that itself answers no stop answers a next state. -/
theorem exOp_next (slot : Nat) (views : ExIn → List Nat) (f : ExIn → ExRes) : ∃ t, s.exOp slot views f = .next t := by
  simp only [State.exOp]
  repeat' split
  all_goals exact ⟨_, rfl⟩

/-- An operation other than a plane write takes nothing from the second port (R213). -/
theorem claim_none {x : Context} {clk : Nat} {o : InFlight} (h : o.hold = false) : x.claim clk o = x := by
  simp [Context.claim, h]

/-- What a plane write takes from the second port changes the pool and the writes held, and nothing else of the execute core. -/
theorem claim_pipe (x : Context) (clk : Nat) (o : InFlight) :
    (x.claim clk o).ex.pipe = x.ex.pipe ∧ (x.claim clk o).ex.block = x.ex.block := by
  unfold Context.claim
  dsimp only
  split <;> exact ⟨rfl, rfl⟩

/-- An operation enters the pipeline of a running block with the block's next number (R162). -/
theorem exEnter_ctx {c : CtxId} {slot : Nat} {o : InFlight} {r : RunBlock} (h : (s.ctx c).ex.block = some r) :
    (s.exEnter c slot o).ctx c = { (s.ctx c).claim s.clk o with ex := { ((s.ctx c).claim s.clk o).ex with
      pipe := (s.ctx c).ex.pipe ++ [{ o with slot := slot, seq := r.seq }], block := some { r with seq := r.seq + 1 } } } := by
  simp [State.exEnter, State.modCtx, h, claim_pipe]

/-! ## The copy, matrix and alignment commands -/

/-- A copy command whose checks pass begins (R233, R238). -/
theorem cpOp_begins {plan : Context → CpEntry → CpBegin} {go : CtxId → CpEntry → State → State} {e : CpEntry}
    (he : (s.ctx s.focus).cpHead = some e) (hh : (s.ctx s.focus).cp.halted = false) (hf : (s.ctx s.focus).cpFree = true)
    (hc : (plan (s.ctx s.focus) e).t.chain = true → (s.ctx s.focus).cp.cks = [])
    (hy : (plan (s.ctx s.focus) e).ready = true) (hk : (s.ctx s.focus).cpClash (plan (s.ctx s.focus) e).clash = false)
    (hb : s.cpBeginFault (s.ctx s.focus) e (plan (s.ctx s.focus) e) = none) : s.cpOp plan go = .next (go s.focus e s) := by
  have hw : ((plan (s.ctx s.focus) e).t.chain && !(s.ctx s.focus).cp.cks.isEmpty) = false := by
    cases h : (plan (s.ctx s.focus) e).t.chain
    · rfl
    · simp [hc h]
  simp [State.cpOp, he, hh, hf, hw, hy, hk, hb]

/-- A copy command always answers a next state: it begins, waits or faults. -/
theorem cpOp_next (plan : Context → CpEntry → CpBegin) (go : CtxId → CpEntry → State → State) : ∃ t, s.cpOp plan go = .next t := by
  simp only [State.cpOp]
  repeat' split
  all_goals exact ⟨_, rfl⟩

/-- An alignment command of a granted rule in an allowed STATE whose check passes acts whole (R342). -/
theorem alCommand_acts {q : BitVec 6} {any : Bool} {check : Rule → Option (Nat × FaultInfo)} {cost : Nat} {eff : State → State}
    (hg : s.granted q.toNat = true) (ha : any = true ∨ (s.rule q.toNat).st = 0) (hc : check (s.rule q.toNat) = none) :
    s.alCommand q any check cost eff =
      .next (eff (({ s with alFree := s.clk + cost }).modCtx s.focus fun x => { x with alq := x.alq.tail })) := by
  have : (!any && (s.rule q.toNat).st != 0) = false := by rcases ha with h | h <;> simp [h]
  simp [State.alCommand, hg, this, hc]

end Sys2Proof.Machine
end

