-- ==== Sys2Proof/Tests/Slice0.lean ====
section
/-! SUPPORT. The model's own tests: what WellFormed refuses, words of the spec's encodings, single steps, and for every
statement a state and operands that meet its hypotheses, clause by clause. -/

namespace Sys2Proof.Tests
open Sys2Proof Sys2Proof.Machine Sys2Proof.Claims Sys2Proof.Consistency
set_option Elab.async false

/-! ## Small states -/

/-- A work item with leases over the first 16 MiB of DRAM and a granary page, a host page to read, and a kernel with two
blocks, templates of each kind, and views, accumulators and operands. -/
def job0 : Job := { bareJob 0x1000 with
  leases := [⟨0, 4096, true, true⟩, ⟨0x10000000000, 16, true, true⟩, ⟨0x400000000000, 1, false, true⟩],
  k := { bareKernel 0x1000 with
    exN := 2, mxN := 2, cpN := 2, alN := 2, ex := ⟨0x7000, 256⟩, mx := ⟨0x8000, 256⟩, cp := ⟨0x9000, 256⟩, al := ⟨0xA000, 256⟩, vn := 8, an := 1, mn := 1 },
  cv1 := 4, cv2 := 8, cv3 := 16 }
/-- A context that runs it at 0x1000 with a few registers. -/
def ctx0 : Context := { Context.reset with
  run := .run, pc := 0x1000, job := some job0, tvec := 0x1800, raddr := 0x1000
  x := ((((Vector.replicate 32 0).set 1 0x1010).set 2 0x2000).set 4 7).set 5 0xFFFFFFFFFFFFFFFD }
/-- The device with a context in focus. -/
def onFocus (x : Context) : State := State.reset.setCtx 0 x
/-- The device with that context. -/
def st0 : State := onFocus ctx0
/-- The next state of an instruction has a property. -/
def goesTo (i : Instr) (s : State) (p : State → Bool) : Bool := match exec i s with | .next t => p t | _ => false

theorem allowed_of {x : Context} {t : Int} (j : Job) (hj : x.job = some j)
    (h : t % 4 = 0 ∧ 0 ≤ t ∧ t < 2 ^ 48 ∧ (j.k.sq.base : Int) ≤ t ∧ t < j.k.sq.base + j.k.sq.len) : allowedIn x t :=
  ⟨h.1, h.2.1, h.2.2.1, j, hj, h.2.2.2⟩

theorem not_allowed_of {x : Context} {t : Int} (j : Job) (hj : x.job = some j)
    (h : ¬ ((j.k.sq.base : Int) ≤ t ∧ t < j.k.sq.base + j.k.sq.len)) : ¬ allowedIn x t := by
  rintro ⟨-, -, -, k, hk, h'⟩
  rw [hj] at hk; cases hk; exact h h'

/-! ## Witnesses: the sequencer -/

theorem witness_RegisterOperationsWriteResults :
    (∃ f, aluRow (.add 3 4 5) = some (3, 4, 5, f)) ∧ ready st0 [4, 5, 3] ∧ ready st0 [0, 31] :=
  ⟨⟨_, rfl⟩, by decide +kernel, by decide +kernel⟩

theorem witness_ImmediatesAndConstantsWriteResults :
    (∃ f, immRow (.sarImm 3 5 63) = some (3, 5, f)) ∧ (Instr.sarImm 3 5 63).wf = true ∧ ready st0 [5, 3] :=
  ⟨⟨_, rfl⟩, by decide +kernel, by decide +kernel⟩

/-- A division of −2^63 by −1, one by 0, and one whose result is due. -/
def stDiv : State := { onFocus { ctx0 with divs := [⟨9, 5, 0⟩] } with clk := 34 }
theorem witness_DivisionResultsLand :
    (∃ f, divRow (.div 9 10 11) = some (9, 10, 11, f)) ∧ ready st0 [10, 11, 9] ∧
      (∃ q r, divRow (.div 9 10 11) = some (9, 10, 11, q) ∧ divRow (.rem 9 10 11) = some (9, 10, 11, r)) ∧
      ¬ ((BitVec.ofInt 64 (-2 ^ 63)).toInt = -2 ^ 63 ∧ (0 : W64).toInt = -1) ∧
      (∃ q r, divRow (.divU 9 10 11) = some (9, 10, 11, q) ∧ divRow (.remU 9 10 11) = some (9, 10, 11, r)) ∧
      (stDiv.ctx 0).divs = ⟨9, 5, 0⟩ :: [] ∧ 0 + 34 ≤ stDiv.clk :=
  ⟨⟨_, rfl⟩, by decide +kernel, ⟨_, _, rfl, rfl⟩, by decide +kernel, ⟨_, _, rfl, rfl⟩, by decide +kernel, by decide⟩

theorem witness_BranchesTransfer :
    (∃ p, branchRow (.brLt 5 4 1) = some (5, 4, 1, p) ∧ p ((cur st0).reg 5) ((cur st0).reg 4) = true) ∧ ready st0 [5, 4] ∧
      allowed st0 ((cur st0).pc.toNat + 4 * (1 : BitVec 15).toInt) ∧
      ∃ p, branchRow (.brGeu 4 5 1) = some (4, 5, 1, p) ∧ p ((cur st0).reg 4) ((cur st0).reg 5) = false :=
  ⟨⟨_, rfl, by decide +kernel⟩, by decide +kernel, allowed_of job0 (by decide +kernel) (by decide +kernel), ⟨_, rfl, by decide +kernel⟩⟩

theorem witness_JumpsLinkAndTransfer :
    ready st0 [1] ∧ allowed st0 ((cur st0).pc.toNat + 4 * (0x3FF : BitVec 20).toInt) ∧ ready st0 [1, 3] ∧
      allowed st0 ((cur st0).reg 1 + BitVec.ofInt 64 (-16 : BitVec 15).toInt).toNat :=
  ⟨by decide +kernel, allowed_of job0 (by decide +kernel) (by decide +kernel), by decide +kernel,
    allowed_of job0 (by decide +kernel) (by decide +kernel)⟩

theorem witness_BadTargetsFaultWithNoEffect :
    (∃ p, branchRow (.brLt 5 4 (-1)) = some (5, 4, -1, p) ∧ p ((cur st0).reg 5) ((cur st0).reg 4) = true) ∧
      ¬ allowed st0 ((cur st0).pc.toNat + 4 * (-1 : BitVec 15).toInt) ∧ ready st0 [5, 4] ∧
      ¬ allowed st0 ((cur st0).reg 1 + BitVec.ofInt 64 (1 : BitVec 15).toInt).toNat ∧ ready st0 [1, 3] ∧
      ¬ allowed st0 ((cur st0).pc.toNat + 4 * (0x400 : BitVec 20).toInt) :=
  ⟨⟨_, rfl, by decide +kernel⟩, not_allowed_of job0 (by decide +kernel) (by decide +kernel), by decide +kernel,
    fun h => absurd h.1 (by decide +kernel), by decide +kernel, not_allowed_of job0 (by decide +kernel) (by decide +kernel)⟩

theorem witness_ControlRegistersReadAndWrite :
    ready st0 [4, 3] ∧ st0.crRead st0.focus 0x040 = some 0x1800 ∧ st0.crRead st0.focus 0x023 = some 0 ∧ ¬ crListed 0x048 ∧ crListed 0x047 := by
  decide +kernel
/-- The table of R91 has a row for COREID of context 3 (core 1, a background context), and the field values add up to what R91 says. -/
theorem witness_ControlRegisterFields :
    ((0x009 : BitVec 12).toNat, [(16, 16, 1), (15, 12, 0), (11, 8, 1), (7, 0, 1)]) ∈ crTable st0 3 ∧
      fieldSum [(16, 16, 1), (15, 12, 0), (11, 8, 1), (7, 0, 1)] = 0x10101 := by
  decide +kernel
/-- s5 has reserved bits of TSTATUS set; s4 has none of TVEC's but bits 1:0 and none of IE's. -/
theorem witness_ReservedWritesCount :
    ready st0 [5, 3] ∧ crListed 0x044 ∧ (((cur st0).reg 5).getLsbD 63 = true ∧ crSpare 0x044 63) ∧ ready st0 [4, 3] ∧ crListed 0x045 ∧
      ¬ ∃ k, k < 64 ∧ ((cur st0).reg 4).getLsbD k = true ∧ crSpare 0x045 k := by
  refine ⟨by decide +kernel, by decide, ⟨by decide +kernel, show 2 ≤ 63 by decide⟩, by decide +kernel, by decide, ?_⟩
  rintro ⟨k, hk, h, hs⟩
  have h3 : 3 ≤ k := hs
  have : ∀ i < 64, 3 ≤ i → ((cur st0).reg 4).getLsbD i = false := by decide +kernel
  rw [this k hk h3] at h; cases h

/-- A context with a host read outstanding whose classes are in its mask, and a block queued. -/
def stWaits : State := onFocus { ctx0 with
  loads := [⟨0, 3, 0, true, .i64, 0x400000000000, 0x1000, 0, 0x8000, false⟩], exq := [⟨0, Vector.replicate 8 0⟩] }
/-- A context whose store of class 15 a plane write bars. -/
def stHeldStore : State := onFocus { ctx0 with ex := { ctx0.ex with held := [⟨0x700, 9, .sq 0x8000 0⟩] } }
theorem witness_FencesWait :
    (∀ l ∈ (cur st0).loads, l.host = true → l.mask &&& 0xFFFF = 0) ∧ (∀ h ∈ (cur st0).ex.held, ∀ m n, h.src = .sq m n → m &&& 0xFFFF = 0) ∧
      (∃ l ∈ (cur stWaits).loads, l.host = true ∧ l.mask &&& 0x8000 ≠ 0) ∧
      (∃ h ∈ (cur stHeldStore).ex.held, ∃ m n, h.src = .sq m n ∧ m &&& 0x8000 ≠ 0) ∧ ¬ quiet stHeldStore ∧
      (quiet st0 ∧ enginesIdle (cur st0) true true true) ∧ ¬ (quiet stWaits ∧ enginesIdle (cur stWaits) true false false) :=
  ⟨by decide +kernel, fun _ h => (by cases h), by decide +kernel, ⟨_, List.mem_singleton.mpr rfl, 0x8000, 0, rfl, by decide⟩, by decide +kernel,
    by decide +kernel, by decide +kernel⟩

theorem witness_RegionsMarkAndEnd :
    ((cur st0).inh = false ∧ (cur st0).fb = [] ∧ (cur st0).loads = [] ∧ (cur st0).divs = [] ∧ (cur st0).fq = [] ∧ (cur st0).pend = false ∧
      enginesIdle (cur st0) true true true ∧ storesIn (cur st0)) ∧
    (cur (onFocus { ctx0 with pend := true })).pend = true ∧ (¬ enginesIdle (cur stWaits) true true true ∧ ¬ storesIn (cur stHeldStore)) ∧
    ((cur stDiv).inh = false ∧ (cur stDiv).fb = [] ∧ (cur stDiv).fq = [] ∧ enginesIdle (cur stDiv) true true true ∧ storesIn (cur stDiv) ∧
     ¬ ((cur stDiv).loads = [] ∧ (cur stDiv).divs = [])) ∧
    (cur (onFocus { ctx0 with fb := [(5, 0)] })).fb ≠ [] ∧ (cur (onFocus { ctx0 with inh := true })).inh = true ∧
    (let s := onFocus { ctx0 with run := .done };
      (s.ctx 0).run = .done ∧ (s.ctx 0).failed = false ∧ (∀ l ∈ (s.ctx 0).loads, l.host = false) ∧ enginesIdle (s.ctx 0) true true true ∧
        (s.ctx 0).alq = [] ∧ (s.ctx 0).ex.held = [] ∧ (s.ctx 0).mx.late = [] ∧
        ∀ e ∈ s.faults, e.src = .ctx (0 : CtxId).val → e.rseq.isSome = true) := by
  and_intros <;> decide +kernel

/-- A context that takes the timer's interrupt, and one that takes the feedback one. -/
def stTimer : State := onFocus { ctx0 with ie := 7, tcmp := 0 }
def stFeed : State := onFocus { ctx0 with ie := 5, fb := [(9, 0)], run := .sleep, sleep := some ⟨false, 7, 8, 0x2000, 1, 9, false, none, none, 0, 0⟩ }
theorem short_of {x : Context} (h : x.cmt = false) : regionShort x := fun _ _ h' => absurd h' (by rw [h]; decide)
theorem feed_stays : staysAsleep stFeed (stFeed.ctx 0) :=
  ⟨⟨false, 7, 8, 0x2000, 1, 9, false, none, none, 0, 0⟩, by decide +kernel, rfl, by decide +kernel, fun h => (by cases h), fun _ => by decide +kernel⟩
theorem witness_TrapAndInterruptEntry :
    (cur st0).tvec ≠ 0 ∧ (cur st0).inh = false ∧ allowed st0 (cur st0).tvec.toNat ∧
    ((stTimer.ctx 0).run = .run ∧ (stTimer.ctx 0).ie.getLsbD 0 = true ∧ (stTimer.ctx 0).inh = false ∧ (stTimer.ctx 0).tvec ≠ 0 ∧
      (stTimer.ctx 0).ie.getLsbD 1 = true ∧ (stTimer.ctx 0).tcmp.toNat ≤ stTimer.now.toNat) ∧
      allowedIn (stTimer.ctx 0) (stTimer.ctx 0).tvec.toNat ∧ regionShort (stTimer.ctx 0) ∧ (stTimer.ctx 0).preq = none ∧
      staysAsleep stFeed (stFeed.ctx 0) ∧ regionShort (stFeed.ctx 0) ∧ (stFeed.ctx 0).preq = none ∧
    ((stFeed.ctx 0).run = .sleep ∧ (stFeed.ctx 0).ie.getLsbD 0 = true ∧ (stFeed.ctx 0).ie.getLsbD 2 = true ∧ (stFeed.ctx 0).fb ≠ [] ∧
      ¬ ((stFeed.ctx 0).ie.getLsbD 1 = true ∧ (stFeed.ctx 0).tcmp.toNat ≤ stFeed.now.toNat)) ∧
      allowedIn (stFeed.ctx 0) (stFeed.ctx 0).tvec.toNat :=
  ⟨by decide +kernel, by decide +kernel, allowed_of job0 (by decide +kernel) (by decide +kernel), by decide +kernel,
    allowed_of job0 (by decide +kernel) (by decide +kernel), short_of rfl, rfl, feed_stays, short_of rfl, rfl, by decide +kernel,
    allowed_of job0 (by decide +kernel) (by decide +kernel)⟩

theorem witness_TrapEntryFaults :
    (cur (onFocus { ctx0 with tvec := 0 })).tvec = 0 ∧ ((cur (onFocus { ctx0 with inh := true })).tvec ≠ 0) ∧
      (cur (onFocus { ctx0 with inh := true })).inh = true ∧ (cur (onFocus { ctx0 with tvec := 0x2000 })).tvec ≠ 0 ∧
      ¬ allowed (onFocus { ctx0 with tvec := 0x2000 }) (cur (onFocus { ctx0 with tvec := 0x2000 })).tvec.toNat :=
  by and_intros <;> first | decide +kernel | exact not_allowed_of job0 (by decide +kernel) (by decide +kernel)

theorem witness_TrapReturn :
    (cur (onFocus { ctx0 with inh := true, tepc := 0x1FFC })).inh = true ∧ allowed (onFocus { ctx0 with inh := true, tepc := 0x1FFC }) 0x1FFC ∧
      (cur st0).inh = false ∧ ¬ allowed (onFocus { ctx0 with inh := true, tepc := 0x1FFE }) 0x1FFE :=
  ⟨by decide +kernel, allowed_of job0 (by decide +kernel) (by decide +kernel), by decide +kernel, fun h => absurd h.1 (by decide)⟩

theorem completes {i : Instr} {s : State} (h : goesTo i s (fun _ => true) = true) : ∃ t, exec i s = .next t := by
  unfold goesTo at h
  cases e : exec i s with
  | next t => exact ⟨t, rfl⟩
  | fault f => rw [e] at h; cases h
  | refused r => rw [e] at h; cases h

/-! ### Memory -/

/-- The last bytes of the leases' DRAM page, and of a pool region. -/
def ldForm : MemForm := ⟨.i64, 3, 3, 2, 0xFFDFF8⟩
def poolForm : MemForm := ⟨.i32, 0, 3, 2, 0xDFFC⟩
/-- A wheel position of the current clock. -/
def stWheel : State := { onFocus { ctx0 with wheel := [0] } with clk := 512 }

/-- The address of `ldForm` in `st0`. -/
abbrev ldEa : Nat := effAddr st0 ldForm.b ldForm.off
theorem witness_DeviceLoadsFetchValues :
    loadRow st0 (.ld ldForm) = some (3, .i64, ldEa, false, [2, 3]) ∧
      (ready st0 [2, 3] ∧ quiet st0 ∧ ldEa = 0xFFFFF8 ∧ deviceRange st0 ldEa 8 true false) ∧
    loadRow stWheel (.ldSc ⟨.n8, 3, 2, 0⟩) = some (3, .n8, effAddr stWheel 2 (0 : W32), true, [2, 3]) ∧
      ready stWheel [2, 3] ∧ quiet stWheel ∧ deviceRange stWheel (effAddr stWheel 2 (0 : W32)) 1 true false ∧ wheelTurn stWheel :=
  ⟨rfl, by decide +kernel, rfl, by decide +kernel⟩

/-- An outstanding load of 5 into s3. -/
def stLoaded : State := onFocus { ctx0 with loads := [⟨7, 3, 5, false, .i64, 0x2000, 0x1000, 0, 0, false⟩] }
theorem witness_LoadValuesLand :
    let l : OutLoad := ⟨7, 3, 5, false, .i64, 0x2000, 0x1000, 0, 0, false⟩
    l ∈ (stLoaded.ctx 0).loads ∧ l.num = 7 ∧ l.host = false ∧ ∀ m ∈ (stLoaded.ctx 0).loads, m.num = 7 → m = l := by
  decide +kernel

theorem witness_PoolLoadReadsBytes :
    ready st0 [2, 3] ∧ quiet st0 ∧ 0xFFFC = effAddr st0 poolForm.b poolForm.off ∧ 4 = accBytes poolForm.ty ∧
      (cur st0).job = some job0 ∧ 0xFFFC + 4 ≤ 4096 * job0.cv3 ∧ job0.cv3 ≤ 256 ∧ 0xFFFC % 4 = 0 ∧
      ∀ i < 4, (cur st0).inBuffer (0xFFFC + i) = false := by
  decide +kernel

theorem witness_DeviceStoresWriteBytes :
    storeRow st0 (.st ldForm) = some (3, .i64, ldEa, false, false, [2, 3]) ∧
      (ready st0 [2, 3] ∧ quiet st0 ∧ deviceRange st0 ldEa 8 false true) ∧
    storeRow stWheel (.stSc ⟨.i16, 3, 2, 0⟩) = some (3, .i16, effAddr stWheel 2 (0 : W32), true, true, [2, 3]) ∧
      deviceRange stWheel (effAddr stWheel 2 (0 : W32)) 2 false true ∧ wheelTurn stWheel :=
  ⟨rfl, by decide +kernel, rfl, by decide +kernel⟩

theorem witness_PoolStoreWritesBytes :
    ready st0 [2, 3] ∧ quiet st0 ∧ (cur st0).job = some job0 ∧ 0xFFFC + 4 ≤ 4096 * job0.cv3 ∧ job0.cv3 ≤ 256 ∧ 0xFFFC % 4 = 0 ∧
      ∀ i < 4, (cur st0).inBuffer (0xFFFC + i) = false ∧ (cur st0).heldByte (0xFFFC + i) = false ∧
        ¬ 0xFFFC + i ∈ ((cur st0).noteAt st0.clk).exw ∧ ¬ 0xFFFC + i ∈ ((cur st0).noteAt st0.clk).landed ∧
        ∀ h ∈ (cur st0).ex.held, h.addr ≠ 0xFFFC + i := by
  decide +kernel

def atmForm : AtmForm := ⟨.i64, 0, .dev, 4, 2, 5, 0⟩
theorem witness_AtomicsUpdateAndReturnOld :
    atmRow st0 (.atmCas atmForm 4) = some (.cas, .i64, effAddr st0 2 (0 : BitVec 16), 5, 4, 4, false, 2) ∧
      (atmType .i64 ∧ ready st0 [2, 5, 4, 4] ∧ quiet st0 ∧ deviceRange st0 (effAddr st0 2 (0 : BitVec 16)) 8 true true) ∧
    atmRow stWheel (.atmAddSc ⟨.n32, 4, 2, 5, 0⟩) = some (.add, .n32, effAddr stWheel 2 (0 : BitVec 16), 5, 0, 4, true, 2) ∧
      deviceRange stWheel (effAddr stWheel 2 (0 : BitVec 16)) 4 true true ∧ wheelTurn stWheel :=
  ⟨rfl, by decide +kernel, rfl, by decide +kernel⟩

/-- A state whose s2 holds an address. -/
def stAt (a : W64) : State := onFocus { ctx0 with x := ctx0.x.set 2 a }
/-- The same with a read-only range and a lease that has no rights. -/
def stAtRo (a : W64) : State := { stAt a with ro := [⟨0x2000, 64⟩] }
theorem witness_AccessFaultsInOrder :
    let f : MemForm := ⟨.i64, 3, 3, 2, 0⟩
    ready st0 [2, 3] ∧ 8 = accBytes f.ty ∧
    (0x1000000000000 = effAddr (stAt 0x1000000000000) f.b f.off ∧ 2 ^ 48 ≤ 0x1000000000000) ∧
    (0x2000000000 = effAddr (stAt 0x2000000000) f.b f.off ∧ regionOf 0x2000000000 = none) ∧
    (0x1FFFFFFFFC = effAddr (stAt 0x1FFFFFFFFC) f.b f.off ∧ regionOf 0x1FFFFFFFFC = some (.dram, 0x2000000000) ∧ 0x2000000000 < 0x1FFFFFFFFC + 8) ∧
    (0x100000000000 = effAddr (stAt 0x100000000000) f.b f.off ∧ regionOf 0x100000000000 = some (.peer0, 0x120000000000) ∧
      regionOf 0x120000000000 = some (.peer1, 0x140000000000) ∧ 0x100000000000 + 8 ≤ 0x120000000000) ∧
    (regionOf 0x400000000004 = some (.host, 0x800000000000) ∧ 0x400000000004 % 8 ≠ 0 ∧
      leaseFault (cur (stAt 0x400000001000)).leases true false 0x400000001000 8 = some 0x400000001000) ∧
    (0x2004 = effAddr (stAt 0x2004) f.b f.off ∧ rangeInDevice 0x2004 8 = true ∧ 0x2004 % 8 ≠ 0) ∧
    (rangeInDevice 0x1000000 8 = true ∧ 0x1000000 % 8 = 0 ∧
      leaseFault (cur (stAt 0x1000000)).leases true false 0x1000000 8 = some 0x1000000) ∧
    (rangeInDevice 0x2038 8 = true ∧ 0x2038 % 8 = 0 ∧ leaseFault (cur (stAtRo 0x2038)).leases false true 0x2038 8 = none ∧
      roFault (stAtRo 0x2038).ro 0x2038 8 = some 0x2038) := by
  decide +kernel

/-- Pool accesses past the address range, past CV3 (16 pages) from inside, and misaligned. -/
theorem witness_PoolAccessFaults :
    let f : MemForm := ⟨.i64, 3, 3, 2, 0⟩
    ready st0 [2, 3] ∧ 8 = accBytes f.ty ∧ (cur (stAt 0x100000)).job = some job0 ∧ 0x100000 = effAddr (stAt 0x100000) f.b f.off ∧
    (0xFFFC = effAddr (stAt 0xFFFC) f.b f.off ∧ 4096 * job0.cv3 < 0xFFFC + 8) ∧
    (0xFFF4 = effAddr (stAt 0xFFF4) f.b f.off ∧ 0xFFF4 + 8 ≤ 4096 * job0.cv3 ∧ 0xFFF4 % 8 ≠ 0) := by
  decide +kernel

theorem witness_WheelAndAtomicFaults :
    let s := stAt 0x100000000000
    loadRow s (.ldSc ⟨.i64, 3, 2, 0⟩) = some (3, .i64, effAddr s 2 (0 : W32), true, [2, 3]) ∧
      storeRow s (.stSc ⟨.i64, 3, 2, 0⟩) = some (3, .i64, effAddr s 2 (0 : W32), true, true, [2, 3]) ∧
      atmRow s (.atmAdd ⟨.i64, 0, .dev, 4, 2, 5, 0⟩) = some (.add, .i64, effAddr s 2 (0 : BitVec 16), 5, 0, 4, false, 2) ∧
      (cur s).wheel = [] ∧ ready s [2, 3] ∧ ready s [2, 5, 0, 4] ∧ effAddr s 2 (0 : BitVec 16) = 0x100000000000 ∧
      regionOf 0x100000000000 = some (.peer0, 0x120000000000) :=
  ⟨rfl, rfl, rfl, by decide +kernel⟩

def waitForm : WaitForm := ⟨.i64, .dev, 7, 2, 4, 6, 0⟩
/-- A context asleep on the dword at 0x2000. -/
def sleeper (eq : Bool) (v : W64) (dl : Nat) : SleepWait := ⟨eq, 7, 8, 0x2000, v, dl, false, none, none, 0, 0⟩
def stSleep (v : W64) (dl : Nat) : State := { onFocus { ctx0 with run := .sleep, sleep := some (sleeper false v dl) } with clk := 5 }
theorem witness_WaitsSleepAndWake :
    (0x2000 = effAddr st0 waitForm.b waitForm.off ∧ 8 = accBytes waitForm.ty ∧ ready st0 [2, 4, 6, 7] ∧ quiet st0 ∧
      deviceRange st0 0x2000 8 true false ∧ 0 = memNat st0.mem 0x2000 8 ∧ 7 = ((cur st0).reg 4).toNat % 2 ^ (8 * 8)) ∧
    ((cur st0).reg 6).toNat % 2 ^ 32 = 0 ∧ ¬ (0 = 7 ∨ ((cur (onFocus { ctx0 with x := ctx0.x.set 6 1 })).reg 6).toNat % 2 ^ 32 = 0) ∧
    (let s := stSleep 0 6; (s.ctx 0).run = .sleep ∧ (s.ctx 0).sleep = some (sleeper false 0 6) ∧ 0 = memNat s.mem 0x2000 8 ∧
      (sleeper false 0 6).sv.toNat % 2 ^ (8 * 8) ≤ 0 ∧ s.clk < (sleeper false 0 6).deadline) ∧
    (let s := stSleep 1 5; (s.ctx 0).sleep = some (sleeper false 1 5) ∧ (sleeper false 1 5).deadline ≤ s.clk) := by
  decide +kernel
/-- The same asleep on a word of the host window: to be read again, or come with a value or an error. -/
def hostWaiter (got : Option (Bool × Nat)) : SleepWait := ⟨false, 7, 8, 0x400000000000, 5, 9999, true, none, got, 0, 0⟩
def stHostWait (got : Option (Bool × Nat)) : State := { onFocus { ctx0 with run := .sleep, sleep := some (hostWaiter got) } with clk := 600 }
theorem witness_HostWindowWaits :
    (let s := stAt 0x400000000000
     0x400000000000 = effAddr s waitForm.b waitForm.off ∧ 8 = accBytes waitForm.ty ∧ ready s [2, 4, 6, 7] ∧ quiet s ∧
       leaseFault (cur s).leases true false 0x400000000000 8 = none) ∧
    regionShort ((stHostWait none).ctx 0) ∧ ((stHostWait none).ctx 0).sleep = some (hostWaiter none) ∧
      (hostWaiter none).lastRead + 600 ≤ (stHostWait none).clk ∧ ((stHostWait (some (true, 5))).ctx 0).sleep = some (hostWaiter (some (true, 5))) ∧
      (hostWaiter (some (true, 5))).sv.toNat % 2 ^ (8 * 8) ≤ 5 ∧ (hostWaiter (some (false, 0))).got = some (false, 0) :=
  ⟨by decide +kernel, short_of rfl, rfl, by decide, rfl, by decide, rfl⟩
/-- A region over its length; `regionShort` and `staysAsleep` of the sleeper. -/
theorem witness_WaitsInTheirClock :
    regionShort ((stSleep 0 6).ctx 0) ∧ staysAsleep (stSleep 1 6) ((stSleep 1 6).ctx 0) ∧
      ¬ regionShort { ctx0 with cmt := true, ccyc := 64, run := .sleep } :=
  ⟨short_of rfl, ⟨sleeper false 1 6, rfl, rfl, by decide, fun h => (by cases h), fun _ => by decide +kernel⟩,
    fun h => absurd (h job0 rfl rfl) (by decide)⟩

/-- A work item that may write the first page of the host window, where s2 points. -/
def jobHost : Job := { job0 with leases := [⟨0x400000000000, 1, true, true⟩] }
def stHostSt : State := onFocus { ctx0 with x := ctx0.x.set 2 0x400000000000, job := some jobHost }
theorem witness_HostWindowStores :
    storeRow stHostSt (.stRel ⟨.i64, .sys, 3, 2, 0xFFFF, 0⟩) = some (3, .i64, 0x400000000000, false, true, [2, 3]) ∧ ready stHostSt [2, 3] ∧
      quiet stHostSt ∧ 0x400000000000 % 8 = 0 ∧ leaseFault (cur stHostSt).leases false true 0x400000000000 8 = none ∧
      roFault stHostSt.ro 0x400000000000 8 = none :=
  ⟨rfl, by decide +kernel⟩

theorem witness_HostWindowLoadsComplete :
    (let f : MemForm := ⟨.i64, 3, 3, 2, 0⟩; let s := stAt 0x400000000000;
      ready s [2, 3] ∧ quiet s ∧ 0x400000000000 = effAddr s f.b f.off ∧ 8 = accBytes f.ty ∧
        leaseFault (cur s).leases true false 0x400000000000 8 = none) ∧
    (let l : OutLoad := ⟨0, 3, 0, true, .i64, 0x400000000000, 0x1000, 0, 0x8000, false⟩;
      (stWaits.ctx 0).loads.find? (fun l' => l'.host && l'.num == l.num) = some l ∧ l.host = true ∧
        (List.replicate 8 (0xFF : Byte)).length = accBytes l.ty) := by
  decide +kernel

/-! ### Pushes, mailboxes, semaphores -/

def pushForm : PushForm := ⟨4, 5, 0, 0x5, 1⟩
theorem witness_TemplatePushesAppend :
    (cur st0).job = some job0 ∧ acquiresDone st0 ∧ (1 : BitVec 16).toNat < job0.k.exN ∧ (cur st0).exq.length < 8 ∧
      8 ≤ (cur (onFocus { ctx0 with exq := List.replicate 8 ⟨0, ctx0.mb⟩ })).exq.length ∧
      ready st0 [4, 5, 0] ∧ (Instr.pushtMx pushForm).wf = true ∧ pushForm.tidx.toNat < job0.k.mxN ∧
      (Instr.pushtCp pushForm).wf = true ∧ pushForm.tidx.toNat < job0.k.cpN ∧
      (Instr.pushtAl ⟨4, 0, 0, 2, 1⟩).wf = true ∧ (1 : BitVec 16).toNat < job0.k.alN := by
  decide +kernel
theorem witness_RegisterPushesAppend :
    acquiresDone st0 ∧ ready st0 [28, 29, 30, 31] ∧ ready st0 [30, 31] ∧
      16 ≤ (cur (onFocus { ctx0 with mxq := List.replicate 16 ⟨0, 0⟩ })).mxq.length ∧
      32 ≤ (cur (onFocus { ctx0 with cpq := List.replicate 32 ⟨0, 0⟩ })).cpq.length ∧
      4 ≤ (cur (onFocus { ctx0 with alq := List.replicate 4 ⟨0, 0, 0, 0⟩ })).alq.length := by
  decide +kernel
theorem witness_IndexFaults :
    (cur st0).job = some job0 ∧ job0.k.exN ≤ (2 : BitVec 16).toNat ∧ ready st0 [4, 5, 0] ∧
      job0.k.mxN ≤ (2 : BitVec 16).toNat ∧ job0.k.cpN ≤ (2 : BitVec 16).toNat ∧ job0.k.alN ≤ (2 : BitVec 16).toNat := by
  decide +kernel

theorem witness_MailboxFormatAndFeedback :
    ready st0 [4] ∧ (cur (onFocus { ctx0 with fq := List.replicate 31 0 })).fq.length < 32 ∧
      32 ≤ (cur (onFocus { ctx0 with fq := List.replicate 32 0 })).fq.length ∧
      (let s := { onFocus { ctx0 with fb := [(5, 9)] } with clk := 10 }; ready s [4] ∧ (cur s).fb = (5, 9) :: [] ∧ 9 < s.clk) ∧
      (let s := { onFocus { ctx0 with fb := [(5, 10)] } with clk := 10 }; ∀ e ∈ (cur s).fb.head?, s.clk ≤ e.2) := by
  decide +kernel

/-- Semaphore 3 at a value. -/
def stSem (v : BitVec 16) : State := onFocus { ctx0 with sem := ctx0.sem.set 3 v }
theorem witness_SemaphoresSignalAndWait :
    (let s := stSem 65528; ready s [4] ∧ 7 = ((cur s).reg 4).toNat % 65536 ∧
      65528 = semOf (cur s) 3 + ((cur s).noteAt s.clk).taken.getD (3 : BitVec 4).toNat 0 ∧ 65528 + 7 ≤ 65535 ∧ 7 ≤ semOf (cur s) 3) ∧
    65535 < semOf (cur (stSem 65529)) 3 + 7 ∧ semOf (cur (stSem 6)) 3 < 7 := by
  decide +kernel

/-- Queue 1, of 64 entries, open to the partition of the item in focus, with one entry free; s10 points to a record and s11 names a
queue. -/
def stLaunch (q : W64) : State :=
  { ((onFocus { ctx0 with x := (ctx0.x.set 10 0x2000).set 11 q }).setQueue 1
      { Queue.reset with qcfg := 0x8000000000000000, qring := 0x6000000000300000, tail := 63 }) with
    parts := [(0, { Part.reset with pclu := 1, pfeed := 2 })] }
theorem witness_LaunchAppendsRecord :
    (let s := stLaunch 1; let u := s.queue 1;
      ready s [10, 11] ∧ quiet s ∧ 1 = ((cur s).reg 11).toNat ∧ s.mayFeed (cur s) 1 = true ∧ 0x2000 = ((cur s).reg 10).toNat ∧
        rangeInDevice 0x2000 128 = true ∧ 0x2000 % 128 = 0 ∧ leaseFault (cur s).leases true false 0x2000 128 = none ∧ u.count < u.size ∧
        (∀ i < 128, s.inSlot (u.base + 128 * (u.tail.toNat % u.size) + i) = false) ∧
        roFault s.ro (u.base + 128 * (u.tail.toNat % u.size)) 128 = none) ∧
    63 < ((cur (stLaunch 64)).reg 11).toNat ∧ ((cur (stLaunch 63)).reg 11).toNat ≤ 63 ∧
      (stLaunch 63).mayFeed (cur (stLaunch 63)) ((cur (stLaunch 63)).reg 11).toNat = false := by
  decide +kernel

/-- A context stalled on `fbpop`, with an entry to pop; and a committed region at its length. -/
def stStalled : State := fetchWord { onFocus { ctx0 with fb := [(5, 0)] } with clk := 1 } 32 ((encode (.fbpop 9)).getD (.sq32, 0)).2
/-- A background context in the clock of its `done`, its core's foreground awaited. -/
def stPreNow : State :=
  { State.reset with ctxs := [(0, { Context.reset with await := true }), (1, { ctx0 with run := .done, note := { ctx0.note with done := true } })] }
theorem witness_StallsRegionsAndPreemption :
    (let s := stStalled.setCtx 0 { stStalled.ctx 0 with run := .stall };
      (s.ctx 0).run = .stall ∧ s.decodeAt (s.ctx 0) = some (.fbpop 9)) ∧
    stallable (.fbpop 9) ∧ ¬ stallable (.add 1 2 3) ∧ regionShort ((stStalled.setCtx 0 { stStalled.ctx 0 with run := .stall }).ctx 0) ∧
    (let s := onFocus { ctx0 with cmt := true, ccyc := 64, run := .sleep };
      (cur s).job = some job0 ∧ (cur s).run = .sleep ∧ (cur s).cmt = true ∧ 64 * job0.regmax ≤ (cur s).ccyc.toNat) ∧
    (let s := stPreNow; (1 : CtxId).bg = true ∧ (s.ctx (ctxOf ((1 : CtxId).val - 1))).await = true ∧ ((s.ctx 1).noteAt s.clk).done = true) ∧
    (st0.ctx 0).run = .run ∧ (st0.ctx 0).cmt = false ∧ (st0.ctx 0).preq = none ∧ ((st0.ctx 0).noteAt st0.clk).done = false ∧ (∀ k, ¬ (Actor.sq 0, k) ∈ st0.acted) ∧
    (let s := { st0 with acted := [(.sq 0, 2)] }; ∃ k, (Actor.sq 0, k) ∈ s.acted) ∧
    (let s := onFocus { ctx0 with preq := some 0 }; (s.ctx 0).preq = some 0 ∧ 0 ≤ s.clk ∧ ((s.ctx 0).noteAt s.clk).done = false) :=
  by
  refine ⟨?_, Or.inr (Or.inr (Or.inr (Or.inr (Or.inl ⟨9, rfl⟩)))), by simp [stallable], short_of rfl, ?_, ?_, ?_, ?_, ?_, ?_, fun k h => (by cases h),
    ⟨2, List.mem_singleton.mpr rfl⟩, ?_⟩
  all_goals decide +kernel
/-- Stalled contexts at a `semwait` that is due and a `pushf` with room. -/
def stStallAt (i : Instr) : State :=
  let s := fetchWord (onFocus { ctx0 with sem := ctx0.sem.set 3 7 }) 32 ((encode i).getD (.sq32, 0)).2
  s.setCtx 0 { s.ctx 0 with run := .stall }
theorem witness_StallReleaseRetries :
    (let s := stStallAt (.semwait 3 4)
     (s.ctx 0).run = .stall ∧ s.decodeAt (s.ctx 0) = some (.semwait 3 4) ∧ (s.ctx 0).busy 4 = false ∧ 7 = ((s.ctx 0).reg 4).toNat % 65536 ∧ 7 ≤ semOf (s.ctx 0) 3) ∧
    (let s := stStallAt (.pushf 4)
     (s.ctx 0).run = .stall ∧ s.decodeAt (s.ctx 0) = some (.pushf 4) ∧ (∀ l ∈ (s.ctx 0).loads, l.acq = false) ∧ (s.ctx 0).fq.length < 32) ∧
    goesTo (.stallRelease 0) (stStallAt (.semwait 3 4)) (fun t => decide ((t.ctx 0).run = .run ∧ semOf (t.ctx 0) 3 = 0)) = true := by
  decide +kernel

theorem witness_RegisterInstructionFrame :
    (∃ a b f, aluRow (.mulHi 31 4 5) = some (31, a, b, f)) ∧ (∃ t, exec (.mulHi 31 4 5) st0 = .next t) ∧
      (∃ t, exec (.semrd 0 3) st0 = .next t) :=
  ⟨⟨_, _, _, rfl⟩, completes rfl, completes rfl⟩

theorem witness_MemoryInstructionFrame :
    (∃ t, exec (.st ldForm) st0 = .next t) ∧ storeRow st0 (.st ldForm) = some (3, .i64, ldEa, false, false, [2, 3]) ∧
      (∃ t, exec (.atmCas atmForm 4) st0 = .next t) ∧ (∃ t, exec (.ld ldForm) st0 = .next t) ∧
      (∃ t, exec (.stp poolForm) st0 = .next t) ∧ ∃ t, exec (.ldp poolForm) st0 = .next t :=
  by and_intros <;> first | rfl | exact completes (by decide +kernel)

/-! ### The execute core -/

/-- A block of two bundles about to issue its first, with VX 3; q1 selects lanes 0 and 63. -/
def block0 : RunBlock := ⟨0, [0, 0], 0, 0, 3, List.replicate 4 ⟨false, 0, 0, 0⟩, Vector.replicate 8 0, 0, none, false, 0⟩
def ctxEx : Context := { ctx0 with
  ex := { ExState.reset with block := some block0, q := (Vector.replicate 8 0).set 1 0x8000000000000001 } }
def stEx : State := onFocus ctxEx
/-- What its slots read. -/
def exIn0 : ExIn := ⟨0, cur stEx, job0, block0, 0⟩
/-- Views 7, 6 and VX + 2 are the kernel's; view 8 is not. -/
def vForm : VForm := ⟨1, 7, 6, 5, false⟩
def vFormX : VForm := ⟨1, 2, 2, 2, true⟩
def iForm : IForm := ⟨1, 7, 6, 63, false⟩

theorem slotReads_stEx : slotReads stEx exIn0 := by decide +kernel

theorem witness_IntegerAndMoveLaneOperations :
    (∃ f, intRow (.vaddsI32 vForm) = some (vForm, 2, f)) ∧ viewsOk exIn0 [vd exIn0 vForm, va exIn0 vForm, vb exIn0 vForm] ∧
    (∃ f, intRow (.vxor vFormX) = some (vFormX, 2, f)) ∧ viewsOk exIn0 [vd exIn0 vFormX, va exIn0 vFormX, vb exIn0 vFormX] ∧
    (∃ f, moveRow (.vslu iForm) = some (2, iForm, f)) ∧ (Instr.vslu iForm).wf = true ∧
      viewsOk exIn0 [exIn0.view iForm.d iForm.x, exIn0.view iForm.a iForm.x] ∧ ∃ f, moveRow2 (.vperm vForm) = some (vForm, f) :=
  ⟨⟨_, rfl⟩, by decide +kernel, ⟨_, rfl⟩, by decide +kernel, ⟨_, rfl⟩, by decide +kernel, by decide +kernel, ⟨_, rfl⟩⟩

def qForm : VForm := ⟨0, 1, 2, 7, false⟩
theorem witness_ComparesAndMaskOperations :
    slotReads stEx exIn0 ∧ (∃ p, cmpRow (.vcltN32 vForm) = some (vForm, p)) ∧ (∃ c, fcmpRow (.vceqF32 vForm) = some (vForm, c)) ∧
      viewsOk exIn0 [va exIn0 vForm, vb exIn0 vForm] ∧ (∃ p, maskRow (.qand qForm) = some (qForm, p)) ∧ (Instr.qand qForm).wf = true ∧
      viewsOk exIn0 [va exIn0 qForm] :=
  ⟨slotReads_stEx, ⟨_, rfl⟩, ⟨_, rfl⟩, by decide +kernel, ⟨_, rfl⟩, by decide +kernel, by decide +kernel⟩

theorem witness_FloatingPointOperations :
    slotReads stEx exIn0 ∧ (∃ f, floatRow (.vfmaF32 vForm) = some (vForm, 5, 4, f)) ∧ (∃ f, floatRow (.vaddBf vForm) = some (vForm, 4, 2, f)) ∧
      viewsOk exIn0 [vd exIn0 vForm, va exIn0 vForm, vb exIn0 vForm] :=
  ⟨slotReads_stEx, ⟨_, rfl⟩, ⟨_, rfl⟩, by decide +kernel⟩

/-- A conversion to FP32 of part 1 of BF16 elements, and one to BF16 of FP32 elements. -/
def cvtForm : VForm := ⟨1, 7, 6, 0x30, false⟩
def cvtForm2 : VForm := ⟨1, 7, 6, 0x11, false⟩
theorem witness_ConversionsSelectParts :
    slotReads stEx exIn0 ∧ (∃ f, cvtRow (.vcvtF32 cvtForm) = some (cvtForm, 4, f)) ∧ (Instr.vcvtF32 cvtForm).wf = true ∧
      viewsOk exIn0 [vd exIn0 cvtForm, va exIn0 cvtForm] ∧ fmtBytes (cvtForm.b.toNat % 32) = 2 ∧ cvtForm.b.toNat / 32 = 1 ∧
      (∃ f, cvtRow (.vcvtBf cvtForm2) = some (cvtForm2, 2, f)) ∧ (Instr.vcvtBf cvtForm2).wf = true :=
  ⟨slotReads_stEx, ⟨_, rfl⟩, by decide +kernel, by decide +kernel, by decide, by decide, ⟨_, rfl⟩, by decide +kernel⟩

theorem witness_ReductionsFollowTree :
    slotReads stEx exIn0 ∧ ∃ (wide : Nat → Nat) (fn : Nat → Nat → Nat × FlagSet) (ident : Nat) (v : Nat → Nat), redRow (.vraddBf vForm) = some (vForm, 7, 2, wide, ident, fn) ∧
      viewsOk exIn0 [vd exIn0 vForm, va exIn0 vForm] ∧
      (∀ j, maskBit exIn0 vForm.q (j * 64 / 2 ^ 7) → v j = wide (elem exIn0 (va exIn0 vForm) 2 j)) ∧
      ∀ j, ¬ maskBit exIn0 vForm.q (j * 64 / 2 ^ 7) → v j = ident :=
  ⟨slotReads_stEx, _, _, _, fun j => if maskBit exIn0 vForm.q (j * 64 / 2 ^ 7) then elem exIn0 (va exIn0 vForm) 2 j * 65536 else 0x80000000,
    rfl, by decide +kernel, fun _ h => if_pos h, fun _ h => if_neg h⟩

/-- `vplrd` of all planes of four as integers, and as FP32 with its scales in the view after; `vplwr`'s two forms; `vpladd`. -/
def plInt : IForm := ⟨1, 7, 2, 0x76, false⟩
def plF32 : IForm := ⟨1, 5, 2, 0x77, false⟩
theorem witness_PlaneReadValues :
    slotReads stEx exIn0 ∧ viewsOk exIn0 [exIn0.view plInt.d plInt.x, exIn0.view plInt.a plInt.x] ∧ ¬ isF32 plInt ∧ isF32 plF32 ∧
      viewsOk exIn0 [exIn0.view plF32.a plF32.x + 1] ∧ scalesOk exIn0 plF32.q (exIn0.view plF32.a plF32.x + 1) (planesOf plF32).2.1 :=
  ⟨slotReads_stEx, by decide +kernel, by unfold isF32; decide, by unfold isF32; decide, by decide +kernel,
    fun k h => (by decide +kernel : ∀ k < 64, scaleOf exIn0 (exIn0.view plF32.a plF32.x + 1) (64 * (planesOf plF32).2.1 + k) ≠ 0xFF) k h.1⟩
theorem witness_PlaneWriteValues :
    slotReads stEx exIn0 ∧ viewsOk exIn0 [exIn0.view plF32.d plF32.x, exIn0.view plF32.a plF32.x] ∧
      (∃ x : Nat → FVal, isF32 plF32 ∧ (viewsOk exIn0 [exIn0.view plF32.d plF32.x + 1] ∧
        scalesOk exIn0 plF32.q (exIn0.view plF32.d plF32.x + 1) (planesOf plF32).2.1 ∧
        ∀ k, x k = (fp32.dec (elem exIn0 (exIn0.view plF32.a plF32.x) 4 k)).scale
          (127 - (scaleOf exIn0 (exIn0.view plF32.d plF32.x + 1) (64 * (planesOf plF32).2.1 + k) : Int)))) ∧
      ¬ isF32 plInt ∧ (Instr.vpladd plInt).wf = true :=
  ⟨slotReads_stEx, by decide +kernel, ⟨_, by unfold isF32; decide, by decide +kernel,
    fun k h => (by decide +kernel : ∀ k < 64, scaleOf exIn0 (exIn0.view plF32.d plF32.x + 1) (64 * (planesOf plF32).2.1 + k) ≠ 0xFF) k h.1,
    fun _ => rfl⟩, by unfold isF32; decide, by decide +kernel⟩

/-- Bank 1 with one valid entry in front, and table 2 with every entry valid. -/
def stCb : State := onFocus { ctxEx with
  banks := ctxEx.banks.set 1 { Bank.reset with sel := ⟨false, 1, 0⟩ }, tables := ctxEx.tables.set 2 { ITable.reset with valid := 256 } }
def exInCb : ExIn := ⟨0, cur stCb, job0, block0, 0⟩
def cbForm : VForm := ⟨1, 7, 6, 1, false⟩
def itForm : VForm := ⟨0, 7, 6, 2, false⟩
theorem witness_CodebooksAndTablesExpand :
    slotReads stCb exInCb ∧ (∃ idx val, expandRow (.vcbxBf cbForm) = some (cbForm, 128, 2, idx, val) ∧
      ∀ k, k < 128 → indexOf exInCb (va exInCb cbForm) (idxWidth (cbForm.b.toNat / 4 % 4)) (idx (cbForm.b.toNat / 16) k) <
        (exInCb.x.frontSide exInCb.clk (cbForm.b.toNat % 4)).2) ∧
      viewsOk exInCb [vd exInCb itForm, va exInCb itForm] ∧
      ∀ j, j < 128 → itpIndex (bf16.dec (elem exInCb (va exInCb itForm) 2 j)) < (exInCb.x.tables.getD (itForm.b.toNat % 4) ITable.reset).valid :=
  ⟨by decide +kernel, ⟨_, _, rfl, by decide +kernel⟩, by decide +kernel, by decide +kernel⟩

/-- Input port 1 with one entry of 64 lanes, output port 2 with room for one entry, a loop counter. -/
def stPorts : State := { onFocus { ctxEx with
  ports := (ctxEx.ports.set 1 ⟨some false, true, [⟨List.replicate 256 7, 64, 0⟩], 0, 2, 0x8000⟩).set 2 ⟨some true, true, [], 0, 1, 0x8200⟩ } with clk := 1 }
def exInPorts : ExIn := ⟨0, cur stPorts, job0, block0, 1⟩
def popForm : VForm := ⟨1, 7, 1, 0, false⟩
def pushForm2 : VForm := ⟨1, 2, 6, 0, false⟩
theorem witness_StreamsAndSlotMoves :
    slotReads stPorts exInPorts ∧ (cur stPorts).ports.length = 16 ∧ viewsOk exInPorts [vd exInPorts popForm] ∧
      ((cur stPorts).port (popForm.a.toNat % 16)).dir ≠ some true ∧ 64 ≤ ((cur stPorts).port (popForm.a.toNat % 16)).supply stPorts.clk ∧
      (maskLanes (exInPorts.mask popForm.q)).length ≤ ((cur stPorts).port (popForm.a.toNat % 16)).supply stPorts.clk ∧
      viewsOk exInPorts [va exInPorts pushForm2] ∧ ((cur stPorts).port (pushForm2.d.toNat % 16)).dir = some true ∧
      ((cur stPorts).port (pushForm2.d.toNat % 16)).entries.length < ((cur stPorts).port (pushForm2.d.toNat % 16)).depth ∧
      maskLanes (exInPorts.mask pushForm2.q) ≠ [] ∧ viewsOk exIn0 [vd exIn0 vForm, va exIn0 vForm] ∧
      exIn0.b.lc[vForm.a.toNat % 4]? = some ⟨false, 0, 0, 0⟩ := by
  decide +kernel

def loopForm : LForm := ⟨0, 1, 1⟩
theorem witness_LoopsIndexAndSemaphoreSlots :
    slotReads stPorts exInPorts ∧ exInPorts.b.loopBad loopForm.lc.toNat loopForm.len.toNat = false ∧
      (∃ b : RunBlock → W32 → RunBlock,
        (∀ u c, c ≠ 0 → b u c = { u with lc := u.lc.set loopForm.lc.toNat ⟨true, c, u.off + 1, u.off + loopForm.len.toNat⟩ }) ∧
        ∀ u, b u 0 = { u with jump := some (u.off + loopForm.len.toNat) }) ∧
      ((cur stPorts).port (loopForm.cnt.toNat % 16)).dir ≠ some true ∧ 1 ≤ ((cur stPorts).port (loopForm.cnt.toNat % 16)).supply stPorts.clk ∧
      (∃ v r, portLanes ((cur stPorts).port (loopForm.cnt.toNat % 16)) = v :: r) ∧
      ((127 : Nat) : Int) = exIn0.b.vx + (124 : BitVec 14).toInt ∧ exIn0.b.vx + (-4 : BitVec 14).toInt < 0 ∧
      127 < exIn0.b.vx + (125 : BitVec 14).toInt ∧ 0 = semOf (cur stEx) 3 + ((cur stEx).noteAt stEx.clk).taken.getD (3 : BitVec 4).toNat 0 ∧
      0 ≤ semOf (cur stEx) 3 ∧ 0 + 8191 ≤ 65535 ∧
      65535 < semOf { ctxEx with sem := ctxEx.sem.set 3 65535 } 3 + 1 ∧ viewsOk exIn0 [exIn0.view iForm.a iForm.x] ∧
      (cur stEx).run ≠ .done ∧ (cur stEx).fb.length < 16 := by
  refine ⟨by decide +kernel, by decide +kernel,
    ⟨fun u c => if c = 0 then { u with jump := some (u.off + loopForm.len.toNat) }
      else { u with lc := u.lc.set loopForm.lc.toNat ⟨true, c, u.off + 1, u.off + loopForm.len.toNat⟩ },
      fun u c h => if_neg h, fun u => if_pos rfl⟩, by decide +kernel, by decide +kernel, ⟨_, _, rfl⟩, ?_⟩
  decide +kernel

/-- A block queued, one fetched, one drained. -/
def exq0 : List ExEntry := [⟨1, Vector.replicate 8 0⟩]
theorem witness_BlocksRunAndOperationsRetire :
    (let x : Context := { ctx0 with exq := exq0 }; x.job = some job0 ∧ x.exq = ⟨1, Vector.replicate 8 0⟩ :: [] ∧ ∀ u ∈ x.ex.buffer, u.blk ≠ 1) ∧
    (let x : Context := { ctx0 with exq := exq0, ex := { ExState.reset with buffer := [⟨1, [0]⟩] } }
     x.ex.halted = false ∧ x.ex.block = none ∧ x.ex.buffer.find? (fun v => v.blk == 1) = some ⟨1, [0]⟩) ∧
    (let x : Context := { ctx0 with exq := exq0, ex := { ExState.reset with block := some { block0 with draining := true } } }
     x.ex.block = some { block0 with draining := true } ∧ x.ex.pipe = [] ∧ x.ex.halted = false) ∧
    (let o : InFlight := { InFlight.start 0 with bytes := [(0x700, 5)], mask := some (7, 1, 1), vx := some 9, flags := 1 }
     let x : Context := { ctxEx with ex := { ctxEx.ex with pipe := [o, InFlight.start 1] } }
     x.ex.pipe = o :: [InFlight.start 1] ∧ o.left = 0 ∧ o.slot < 4 ∧ (∀ p ∈ [InFlight.start 1], p.left ≠ 0) ∧ x.ex.held = []) := by
  decide +kernel

def vFormBad : VForm := ⟨1, 8, 6, 5, false⟩
/-- A strict block past its budget, slot D of its bundle a pop of port 1, which holds `l`; and one with `fbput`. -/
def blockD (i : Instr) : RunBlock := { block0 with bundles := [BitVec.ofNat 128 (((encode i).getD (.slotD, 0)).2 * 2 ^ 96)], slip := 1 }
def jobStrict : Job := { job0 with strict := true }
def ctxSlip (i : Instr) (r : RunState) (l : List PortEntry) : Context := { ctxEx with
  run := r, job := some jobStrict, ex := { ctxEx.ex with block := some (blockD i) }, ports := ctxEx.ports.set 1 ⟨some false, true, l, 0, 2, 0x8000⟩
  fb := List.replicate 16 (0, 0) }
def stSlip (i : Instr) (r : RunState) (l : List PortEntry) : State := { onFocus (ctxSlip i r l) with clk := 1 }
def slips (i : Instr) (s : State) : Bool := goesTo i s fun u => (u.ctx 0).ex.block.any fun d => decide (1 < d.slip)
theorem witness_ExecuteFaults :
    slotReads stEx exIn0 ∧ (∃ f, intRow (.vaddI32 vFormBad) = some (vFormBad, 2, f)) ∧
      ¬ viewsOk exIn0 [vd exIn0 vFormBad, va exIn0 vFormBad, vb exIn0 vFormBad] ∧
    (let i := Instr.vpop popForm; let s := stSlip i .run []
     (s.ctx 0).job = some jobStrict ∧ (s.ctx 0).ex.block = some (blockD i) ∧ (blockD i).draining = false ∧ jobStrict.strict = true ∧
       (s.ctx 0).ex.halted = false ∧ jobStrict.slipb < (blockD i).slip ∧ decode .slotD (slotWord (blockD i).bundle 3) = some i ∧
       slips i { s with focus := 0 } = true ∧ supplyGoesOn (s.ctx 0) i) ∧
    (let i := Instr.vpop popForm; let s := stSlip i .run [⟨List.replicate 256 7, 64, 0⟩]
     goesTo i { s with focus := 0 } (fun u => (u.ctx 0).ex.block.all fun d => d.slip == (blockD i).slip) = true) ∧
    (let i := Instr.fbput ⟨1, 0, 6, 9, false⟩; let s := stSlip i .halt []
     decode .slotD (slotWord (blockD i).bundle 3) = some i ∧ slips i { s with focus := 0 } = true ∧ supplyHalted (s.ctx 0) i) :=
  by
  refine ⟨slotReads_stEx, ⟨_, rfl⟩, ?_, ?_, ?_, ?_, ?_, Or.inr (Or.inl ⟨rfl, Or.inl ⟨_, rfl⟩⟩)⟩
  case refine_2 => unfold supplyGoesOn enginesGoOn; and_intros <;> first | decide +kernel | exact Or.inl (by decide +kernel)
  all_goals decide +kernel

/-! ### The copy engine -/

/-- An entry of the copy queue that may begin. -/
def cpEntry : CpEntry := ⟨0, 0⟩
def ctxCp : Context := { ctx0 with cpq := [cpEntry] }
def stCp : State := onFocus ctxCp
/-- The common fields of a command with no completion word and no checksum, and of one with a completion word. -/
def tail0 : CpTail := noTail
def tailCw : CpTail := { noTail with cw := true, cval := 5, caddr := 0x3000 }
def tailPool : CpTail := { noTail with spool := true, dpool := true }

def copyForm : CopyForm := ⟨256, false, 0, 0, 0x2000, 0xFFFF00, tail0⟩
/-- A conversion of 64 FP32 elements to BF16. -/
def copyCvt : CopyForm := ⟨256, true, 0x11, 0x10, 0x2000, 0x3000, tail0⟩
def copyaForm : CopyaForm := ⟨1, 0, false, 0, 0, 0x2000, 0x3000, tailCw⟩
def gatherForm : GatherForm := ⟨0xF000, 2, 63, 0x2000, 0x8000, { noTail with dpool := true }⟩
def scatterForm : GatherForm := ⟨0xF000, 0, 63, 0x2000, 0x8000, noTail⟩
def fillForm : FillForm := ⟨9, 0x0102030405060708, 0x2000, tail0⟩
/-- 32 FP32 elements to BF16, and a block of three-plane elements to FP32. -/
theorem witness_ConvertedStreams :
    cvtOk 0x11 = true ∧ cvtOk 0x10 = true ∧ (List.replicate 128 (9 : Byte)).length = streamBytes 0x11 32 ∧
      cvtOk 2 = true ∧ (List.replicate 64 (9 : Byte)).length = streamBytes 2 32 ∧ 32 % 32 = 0 := by
  decide +kernel
/-- OPS of a conversion to BF16 and a rectification of INT16 elements; a binding of four of them; one that writes them. -/
def bindCvt (out : Bool) : BindForm := ⟨0x40, 0, 0x09, false, 0, out, 1, 0x2000, 0x6030, noTail⟩
theorem witness_OperatorChains :
    chainIs 0x6030 0x09 [(1, 0x10), (3, 0)] 0x10 ∧ bindChain (bindCvt false) = some ([(1, 0x10), (3, 0)], 0x10) ∧ stageOk (1, 0x10) 0x09 0x10 ∧
      stageOk (2, 31) 0x10 0x10 ∧ stageOk (3, 0) 0x09 0x09 ∧
    ((bindCvt false).raw = false ∧ (bindCvt false).out = false ∧ 1 ≤ fmtBytes (bindCvt false).efmt.toNat ∧ [1, 0, 2, 0].length % fmtBytes (bindCvt false).efmt.toNat = 0) ∧
    ((bindCvt true).out = true ∧ (⟨[1, 0, 2, 0], 1, 0⟩ : PortEntry).data.length = 4 * 1 ∧ 1 ≤ fmtBytes 0x10) := by
  refine ⟨⟨by decide, fun _ => by decide, fun k => if k = 0 then 0x09 else 0x10, rfl, rfl, ?_⟩, by decide +kernel,
    Or.inl ⟨rfl, by decide, rfl⟩, Or.inr (Or.inl ⟨rfl, by decide, rfl⟩), Or.inr (Or.inr ⟨rfl, rfl, rfl⟩), by decide +kernel, by decide +kernel⟩
  intro k o h
  match k with
  | 0 => cases h; exact ⟨rfl, Or.inl ⟨rfl, by decide, rfl⟩⟩
  | 1 => cases h; exact ⟨rfl, Or.inr (Or.inr ⟨rfl, rfl, rfl⟩)⟩
  | _ + 2 => cases h
/-- A group of two stored bytes, and data that end within the next. -/
theorem witness_GroupDataExpand :
    (∀ g ∈ [((0x80000001 : W32), [(5 : Byte), 6])], g.2.length = (List.range 32).countP fun i => g.1.getLsbD i) ∧
      ([7, 0, 0, 0, 9] : List Byte).length - 4 < (List.range 32).countP fun i => (leNat (([7, 0, 0, 0, 9] : List Byte).take 4)).testBit i := by
  decide +kernel
theorem witness_CopyMovesBytes :
    cpMay stCp cpEntry tail0 ∧ cpMay stCp cpEntry tailCw ∧
    ((Instr.copy copyForm).wf = true ∧ formatsOk false 0 0 ∧ countBad 256 (moveUnits false 0 0).1 (moveUnits false 0 0).2 = false ∧
      clearOf stCp (moveItems tail0 (moveUnits false 0 0).1.1 (moveUnits false 0 0).2.1 [(0x2000, 256)] [(0xFFFF00, 256)]) ∧
      localSrc stCp 0 false [(0x2000, 256)] ∧ localDst stCp 0 false [(0xFFFF00, 256)] ∧ apart tail0 [(0x2000, 256)] [(0xFFFF00, 256)]) ∧
    ((Instr.copy copyCvt).wf = true ∧ formatsOk true copyCvt.sfmt copyCvt.dfmt ∧
      (let u := moveUnits true copyCvt.sfmt copyCvt.dfmt
       let n := 256 * u.1.2 / u.1.1
       countBad 256 u.1 u.2 = false ∧ clearOf stCp (moveItems tail0 u.1.1 u.2.1 [(0x2000, 256)] [(0x3000, n * u.2.1 / u.2.2)]))) ∧
    ((Instr.copya copyaForm).wf = true ∧
      (let sp := (cur stCp).pat 0
       let dp := (cur stCp).pat 1
       let u := moveUnits false 0 0
       countBad sp.len u.1 u.2 = false ∧ dp.len * u.2.2 = sp.len * u.1.2 / u.1.1 * u.2.1 ∧ sp.aligned u.1.1 = true ∧ dp.aligned u.2.1 = true ∧
         clearOf stCp (moveItems tailCw u.1.1 u.2.1 (sp.runs 0x2000) (dp.runs 0x3010)))) ∧
    (cpMay stCp cpEntry gatherForm.t ∧
      clearOf stCp [⟨true, 0x8000, 192, true, 1, false⟩, ⟨true, 0xF000, 12, false, 4, false⟩] ∧
      clearOf stCp (itemsOf false false 1 false ((List.range 3).map fun _ => (0x2000, 64))) ∧ localSrc stCp 0 true [(0xF000, 12)]) ∧
    (clearOf stCp [⟨false, 0x2000, 64, false, 1, false⟩, ⟨true, 0xF000, 4, false, 4, false⟩] ∧
      clearOf stCp (itemsOf false true 1 false [(0x8000, 64)])) ∧
    ((Instr.fill fillForm).wf = true ∧ clearOf stCp (moveItems tail0 1 1 [] [(0x2000, 9)])) ∧
    ((Instr.ckst 0x3004 tail0).wf = true ∧ (cur stCp).cp.cks = [] ∧ (∀ r ∈ (cur stCp).cp.runs, r.t.ckm = 0) ∧
      clearOf stCp (moveItems tail0 1 4 [] [(0x3004, 4)])) := by
  and_intros <;> decide +kernel

def cbldForm : CbldForm := ⟨256, true, 1, 0x2000, tail0⟩
def itldForm : ItldForm := ⟨256, 2, 0x2000, tail0⟩
def unpackForm : UnpackForm := ⟨32, 1, 4, 0x2000, 0x3000, tail0⟩
/-- The header of a compressed tensor of 32 bytes in 32, at 0x2000. -/
def stUnpack : State := { stCp with mem := memWrite [] 0x2000 [32, 0, 0, 0, 0, 0, 0, 0, 32, 0, 0, 0, 0, 0, 0, 0] }
def bindForm : BindForm := ⟨0x40, 15, 0, true, 0, true, 1, 0x2000, 0, tail0⟩
/-- An active binding of input port 1 that has a byte to come. -/
def bound1 : Binding := ⟨3, { bindForm with out := false }, PatSlot.reset, 0⟩
def run0 : CpRun := ⟨3, 0, tail0, .stream, [], [], false, [], [], [], false, [], 0, 0, 0, 0, false, none, false⟩
def stBound : State := onFocus { ctxCp with
  cp := { ctxCp.cp with binds := [bound1], runs := [run0] }, ports := ctxCp.ports.set 1 ⟨some false, true, [], 0, 16, 0x4000⟩ }
theorem witness_CopyCommandsBegin :
    cpMay stCp cpEntry noTail ∧ (cpMay stCp cpEntry tailCw ∧ tailCw.cw = true ∧ clearOf stCp (tailItems tailCw)) ∧
    (cbldForm.count.toNat ≤ 256 ∧ (cur stCp).banks.length = 4 ∧ (cur stCp).frontOf stCp.clk 1 ≠ true ∧
      (∀ r ∈ (cur stCp).mx.runs, ((1 : Nat), true) ∉ r.reads) ∧ clearOf stCp (itemsOf false false 2 false [(0x2000, 512)] ++ tailItems tail0)) ∧
    (itldForm.count.toNat ≤ 256 ∧ (cur stCp).tables.length = 4 ∧ clearOf stCp (itemsOf false false 4 false [(0x2000, 1024)] ++ tailItems tail0)) ∧
    (let f := unpackForm; let s := stUnpack
     cpMay s cpEntry f.t ∧ f.maxo.toNat % 32 = 0 ∧ (cur s).bufferOk (f.fbuf.toNat * 4096) 8192 = true ∧
       (cur s).cpClash [⟨true, 0x4000, 8192, true, 1, true⟩, ⟨false, 0x2000, 16, false, 1, false⟩] = false ∧
       s.itemsFault (cur s) [⟨false, 0x2000, 16, false, 1, false⟩] = none ∧ localSrc s 0 false [(0x2000, 16)] ∧
       leNat (memRead s.mem 0x2000 4) = 32 ∧ leNat (memRead s.mem 0x2004 4) = 0 ∧ leNat (memRead s.mem 0x2008 4) = 32 ∧
       leNat (memRead s.mem 0x200C 4) = 0 ∧ 32 / 8 ≤ 32 ∧ 32 ≤ 36 * (32 / 32) ∧ 32 ≤ f.rmax.toNat * 32 ∧
       clearOf s [⟨false, 0x2000, 16 + 32, false, 1, false⟩, ⟨false, 0x3000, 32, true, 1, false⟩]) ∧
    ((Instr.bind bindForm).wf = true ∧ bindReason bindForm = none ∧ bindForm.t.dpool = false ∧
      (∀ ch ∈ bindChain bindForm, ((cur stCp).pat bindForm.pat).run % (bindSizes bindForm ch.2).1 = 0) ∧
      (cur stCp).bufferOk (256 * bindForm.buf.toNat) (256 * (bindForm.depthM1.toNat + 1)) = true ∧ ((cur stCp).port 1).bound = false ∧
      (cur stCp).cp.binds.length < 8 ∧ (cur stCp).ports.length = 16 ∧
      stCp.itemsFault (cur stCp) (bindItems stCp bindForm) = none ∧
      (let r := ((cur stCp).pat bindForm.pat).bound bindForm.addr.toNat
       (cur stCp).cpClash [⟨false, r.1, r.2, true, 1, true⟩] = false)) ∧
    (cpMay stBound cpEntry tail0 ∧ clearOf stBound (tailItems tail0) ∧ (cur stBound).ports.length = 16 ∧
      (cur stBound).binding 1 = some bound1 ∧ (cur stBound).binding 2 = none) := by
  and_intros <;> decide +kernel

/-- Runs that have moved: without and with a completion word, and one that waits for a peer's acknowledgement. -/
def runCw : CpRun := { run0 with num := 0, t := tailCw, moved := true, satn := 70000, kind := .mark }
def runPeer : CpRun := { run0 with num := 0, moved := true, sums := [(0, 32, none)], kind := .mark }
def stRuns (l : List CpRun) (b : List Binding) (p : Port) : State :=
  { onFocus { ctxCp with cp := { ctxCp.cp with runs := l, binds := b }, ports := ctxCp.ports.set 1 p } with clk := 1 }
theorem witness_CopyCompletionsAndBindings :
    (let s := stRuns [runCw] [] Port.reset
     ∃ h ∈ ({ s.ctx 0 with ex := { (s.ctx 0).ex with held := [⟨0x700, 9, .cp 0⟩] } } : Context).ex.held, h.src = .cp runCw.num) ∧
    (let r := { runPeer with peer := [(0x120000000000, 256)] }
     r.peer = [(0x120000000000, 256)] ∧ (0x120000000000 : Nat) ≤ (0x1200000000FF : Addr).toNat ∧ (0x1200000000FF : Addr).toNat < 0x120000000000 + 256 ∧ r.late = none) ∧
    (let r := { runCw with t := tail0 }; let s := stRuns [r] [] Port.reset
     (s.ctx 0).cpRun r.num = some r ∧ r.moved = true ∧ (∀ p ∈ r.sums, p.2.2.isSome = true) ∧ r.faulted = false ∧ r.late = none ∧
       r.cwSent = false ∧ r.t.cw = false) ∧
    (let r := runCw; let s := stRuns [r] [] Port.reset
     (s.ctx 0).cpRun r.num = some r ∧ r.t.cw = true ∧ (s.ctx 0).cpq = cpEntry :: [] ∧ cpEntry.num = r.num ∧ r.wclk < s.clk ∧
       isRemote r.t.caddr.toNat = false ∧ ∀ i < 8, s.inSlot (r.t.caddr.toNat + i) = false) ∧
    (let p : Port := ⟨some false, true, [], 0, 16, 0x4000⟩; let s := stRuns [run0] [bound1] p
     (s.ctx 0).binding bound1.f.port = some bound1 ∧ (s.ctx 0).cpRun bound1.num = some run0 ∧ bindChain bound1.f = some ([], 0) ∧
       (s.ctx 0).ports.length = 16 ∧ bound1.f.out = false ∧ p.entries.length < p.depth ∧ run0.host = [] ∧ run0.peer = [] ∧
       1 = bound1.take (bindSizes bound1.f 0) ∧ localSrc s 0 false (cutRuns bound1.runs 0 1)) ∧
    (let p : Port := ⟨some true, true, [⟨List.replicate 256 1, 64, 0⟩], 0, 16, 0x4000⟩; let b := { bound1 with f := bindForm }
     let s := stRuns [run0] [b] p
     (s.ctx 0).binding 1 = some b ∧ b.f.out = true ∧ p.visible s.clk = ⟨List.replicate 256 1, 64, 0⟩ :: [] ∧ localDst s 0 false (cutRuns b.runs 0 1)) ∧
    (let b := { bound1 with pos := 1 }; b.pat.len ≤ b.pos) ∧
    (let s := stRuns [runPeer] [] Port.reset
     (s.ctx 0).cpRun runPeer.num = some runPeer ∧ (∃ p ∈ runPeer.sums, p.2.2 = none) ∧ runPeer.late = none ∧ runPeer.faulted = false ∧
       (s.ctx 0).cp.halted = false ∧ (∀ u ∈ (s.ctx 0).cp.runs, u.late = none) ∧ runPeer.cwSent = false ∧ (0, 32, none) ∈ runPeer.sums) ∧
    (let r := { runCw with cwSent := true }; (stRuns [r] [] Port.reset).ctx 0 |>.cpRun r.num) = some { runCw with cwSent := true } := by
  and_intros <;> decide +kernel

/-- Begun loads whose source bytes are at hand, and an `unpack` of one group of stored bytes. -/
def runBank : CpRun := { run0 with num := 0, kind := .bank 1 true 2 false, src := [(0x2000, 4)] }
def runTable : CpRun := { runBank with kind := .table 2 1 }
def runBody : CpRun := { runBank with kind := .unpackBody unpackForm 32 36, src := [(0x2010, 36)], dst := [(0x3000, 32)] }
theorem witness_CopyLoadsLand :
    (let s := stRuns [runBank] [] Port.reset
     (s.ctx 0).cpRun 0 = some runBank ∧ runBank.moved = false ∧ runBank.faulted = false ∧ runBank.late = none ∧ runBank.host = [] ∧
       runBank.peer = [] ∧ localSrc s 0 false runBank.src ∧ runBank.dst = [] ∧ 1 < (s.ctx 0).banks.length) ∧
    (let r := { runBank with kind := .bank 1 true 2 true }; let s := stRuns [r] [] Port.reset
     (s.ctx 0).cpRun 0 = some r ∧ (s.ctx 0).cp.halted = false ∧ ∀ u ∈ (s.ctx 0).cp.runs, u.late = none) ∧
    (let s := stRuns [{ runBank with kind := .bank 1 false 2 false }] [] Port.reset; ((s.ctx 0).banks.getD 1 Bank.reset).sel.front = false) ∧
    (let s := stRuns [runTable] [] Port.reset; (s.ctx 0).cpRun 0 = some runTable ∧ 2 < (s.ctx 0).tables.length) ∧
    (let s := { stRuns [runBody] [] Port.reset with mem := memWrite [] 0x2010 (List.replicate 36 0xFF) }
     let bs := srcBytes s 0 false runBody.src
     (s.ctx 0).cpRun 0 = some runBody ∧ localSrc s 0 false runBody.src ∧ (unpackGroups bs (32 / 32)).2 = true ∧
       runsLen runBody.dst = (unpackGroups bs (32 / 32)).1.length ∧ localDst s 0 false runBody.dst ∧
       ∀ a ∈ byteAt runBody.dst, a ∉ byteAt ((unpackForm.src.toNat, 16) :: runBody.src)) := by
  and_intros <;> decide +kernel

/-! ### The link and the matrix engine -/

def linkUp : Link := { Link.reset with up := true, lanes := 8 }
def stLink (l : Link) : State := { State.reset with links := [(1, l)], clk := 9 }
def badFlit : Flit := ⟨false, false, .control [3], 0⟩
/-- A run that waits for 32 bytes of the peer at its window's start, with another dword to come. -/
def runRead : CpRun := { run0 with num := 0, asked := true, peer := [(0x120000000000, 40)] }
def stReads : State := { (stLink linkUp) with ctxs := (onFocus { ctxCp with cp := { ctxCp.cp with runs := [runRead] } }).ctxs }
theorem witness_LinkPortBehaviour :
    ((stLink linkUp).link 1).up = true ∧ badFlit.crcOk = false ∧
    (let l := { linkUp with arm := true, armClk := 8, flit := 3, passed := 2 }
     ((stLink l).link 1).arm = true ∧ ((stLink l).link 1).armClk < (stLink l).clk ∧ ((stLink l).link 1).passed < ((stLink l).link 1).flit.toNat) ∧
    (let l := { linkUp with arm := true, armClk := 8, flit := 3, passed := 3 }
     ((stLink l).link 1).flit.toNat ≤ ((stLink l).link 1).passed) ∧
    (let l := { linkUp with fuse := List.replicate 31 5, fuseRule := 63 }; ((stLink l).link 1).fuse.length = 31 ∧ ((stLink l).link 1).fuseRule = 63) ∧
    ((∃ x, ((0 : CtxId).val, x) ∈ stReads.ctxs) ∧ (stReads.ctx 0).cp.halted = false ∧ (stReads.ctx 0).cp.runs = [runRead] ∧ runRead.late = none ∧
      runRead.faulted = false ∧ lowestOut 1 runRead 0x120000000000) ∧
    (lowestOut 1 { run0 with peer := [], dst := [(0x120000000000, 512)], sums := [(256, 7, none)] } 0x120000000100 ∧
      lowestOut 1 { run0 with peer := [], cwSent := true, t := { tailCw with caddr := 0x120000000008 } } 0x120000000008) ∧
    (stReads.ctx 0).cpRun 0 = some runRead ∧
    (∃ q ∈ runRead.peer, q.1 < windowBase 1 + 0 + 32 ∧ windowBase 1 + 0 < q.1 + q.2) ∧ subFlit (windowBase 1 + 0) runRead.peer ≠ [] ∧
      runRead.asked = true ∧
    tabGet 0 ((stLink { linkUp with resends := [(7, 15)] }).link 1).resends 7 < 16 ∧
      16 ≤ tabGet 0 ((stLink { linkUp with resends := [(7, 16)] }).link 1).resends 7 ∧ { badFlit with crcOk := true }.kind = .control [3] ∧
      (stLink linkUp).phaseDev ≠ 3 ∧
    rangeInDevice 0x1FFFFFFFF8 8 = true ∧ rangeInDevice 0x1FFFFFFFF9 8 = false ∧ roFault (stLink linkUp).ro 0x1FFFFFFFF8 8 = none ∧
      (let l := { linkUp with rx := [(0x1FFFFFFFC0, 1), (0x1FFFFFFFE0, 2)] }
       ((stLink l).link 1).rx = [(0x1FFFFFFFC0, 1), (0x1FFFFFFFC0 + 32, 2)] ∧ 0x1FFFFFFFC0 % 64 = 0 ∧ 0x1FFFFFFFC0 ≤ 0x1FFFFFFFF8 ∧
         0x1FFFFFFFF8 + 8 ≤ 0x1FFFFFFFC0 + 64) ∧
      (let l := { linkUp with rx := [(0x1FFFFFFFC0, 1)] }
       0x1FFFFFFFE0 % 32 = 0 ∧ 0x1FFFFFFFF8 / 64 ≤ 0x1FFFFFFFE0 / 64 ∧ 0x1FFFFFFFE0 / 64 ≤ (0x1FFFFFFFF8 + 8 - 1) / 64 ∧
         ∀ f ∈ ((stLink l).link 1).rx, ¬ (f.1 ≤ 0x1FFFFFFFE0 ∧ 0x1FFFFFFFE0 < f.1 + 32)) ∧
      ∀ i < 8, (stLink linkUp).inSlot (0x1FFFFFFFF8 + i) = false := by
  and_intros <;> first
    | decide +kernel
    | exact ⟨_, List.mem_singleton.mpr rfl⟩
    | exact Or.inl ⟨40, [], rfl⟩
    | exact Or.inr (Or.inl ⟨rfl, 0x120000000000, 512, 256, 7, [], rfl, by decide, rfl, by decide⟩)
    | exact Or.inr (Or.inr ⟨rfl, rfl, rfl, rfl⟩)

/-- A kernel with two accumulator tiles and sixteen operand views in the third region of the pool. -/
def job1 : Job := { job0 with cv3 := 32, k := { job0.k with an := 2, abase := 0x14, mbase := 16, mn := 16 } }
def mxTail : MxTail := ⟨2, 3, 0, 1, 3⟩
def mxE : MxEntry := ⟨4, 0⟩
def ctxMx (fq : List W64) : Context :=
  { ctx0 with job := some job1, mxq := [mxE], fq := fq, sem := ctx0.sem.set 3 3, pool := memWrite [] 0x18000 (List.replicate 256 0x44) }
def stMx (fq : List W64) : State := onFocus (ctxMx fq)
/-- A multiply of the last operand view by one of another bank, into the last tile, as integers; its metadata. -/
def mulForm : MulForm := ⟨15, 0, 0, 0, 0, false, 0x18000, 0, 0, 0, mxTail⟩
def drainForm : DrainForm := ⟨0x1C000, 0, false, false, true, 0, 0, mxTail⟩
def accaddPlan (kind : Bool) : MxPlan := { tilePlan mxTail 6 job1 0 kind true with
  chk := [(0x1C000, if kind then 4096 else 8192, false, 64)],
  rd := (0x1C000, if kind then 4096 else 8192) :: (tilePlan mxTail 6 job1 0 kind true).rd }
/-- A drain to signed 16-bit integers. -/
def drainWord : W64 := 0x48000000
def drainPlan : MxPlan :=
  let b := tilePlan mxTail 4 job1 0 (fwMode drainWord) true
  { b with
    tile := true, fmtBad := !drainWordOk drainWord, chk := [(0x1C000, drainSize (fwOfmt drainWord), true, 64)] ++ [],
    rd := b.rd ++ [], wr := (0x1C000, drainSize (fwOfmt drainWord)) :: b.wr }
theorem witness_MatrixCommandsBegin :
    mxMay (stMx []) mxE job1 (tilePlan mxTail 3 job1 1 true true) ∧ mxMay (stMx []) mxE job1 (tilePlan mxTail 5 job1 0 false false) ∧
      mxMay (stMx []) mxE job1 (accaddPlan false) ∧ mxMay (stMx [drainWord]) mxE job1 drainPlan ∧
      (mulForm.bsel = 0 ∧ mxMay (stMx [0]) mxE job1 (planOf (stMx [0]) mulForm 1 job1)) ∧
      mulLate (stMx [0]).clk mulForm 0 (cur (stMx [0])) (planOf (stMx [0]) mulForm 1 job1) = none ∧
      mxMay (stMx [0]) mxE job1 (planOf (stMx [0]) mulForm 2 job1) ∧
      mxMay (stMx []) mxE job1 (barePlan mxTail 7) ∧ (cur (stMx [])).banks.length = 4 ∧ mxMay (stMx []) mxE job1 (barePlan mxTail 8) := by
  and_intros <;> decide +kernel

/-- A command at the end of its setup. -/
def mxRunOf (i : Instr) : MxRun := { bareRun i 4 4 with num := 4, acc0 := [1, 2], src0 := [3] }
def stSetup (i : Instr) : State := onFocus { ctxMx [] with mx := { MxState.reset with runs := [mxRunOf i] } }
theorem setup_ready (i : Instr) : ((stSetup i).ctx 0).job = some job1 ∧ ((stSetup i).ctx 0).mxSetup = some (mxRunOf i) ∧
    (mxRunOf i).due ≤ (stSetup i).clk ∧ (∀ v ∈ ((stSetup i).ctx 0).mx.runs, v.stage ≠ .compute) ∧ (mxRunOf i).group = [] := by
  refine ⟨rfl, rfl, ?_, ?_, rfl⟩
  · exact Nat.le_refl 0
  · intro v h
    have hv : v = mxRunOf i := List.mem_singleton.mp h
    rw [hv]
    exact fun h => nomatch h
theorem witness_MatrixResults :
    ((stSetup (.acclr 0 true mxTail)).ctx 0).mxSetup = some (mxRunOf (.acclr 0 true mxTail)) ∧
    ((stSetup (.hrot 0 true false mxTail)).ctx 0).mxSetup = some (mxRunOf (.hrot 0 true false mxTail)) ∧
    ((stSetup (.hrot 0 false true mxTail)).ctx 0).mxSetup = some (mxRunOf (.hrot 0 false true mxTail)) ∧
    ((stSetup (.accadd 0x1C000 0 true mxTail)).ctx 0).mxSetup = some (mxRunOf (.accadd 0x1C000 0 true mxTail)) ∧
    ((stSetup (.drain drainForm)).ctx 0).mxSetup = some (mxRunOf (.drain drainForm)) ∧
      fmtIsPlane (fwOfmt { mxRunOf (.drain drainForm) with fmt := drainWord }.fmt) = false ∧
    ((stSetup (.mmuls mulForm)).ctx 0).mxSetup = some (mxRunOf (.mmuls mulForm)) ∧
      ∀ n < 32, ∀ g < 16, groupOf (leNat (((stSetup (.mmuls mulForm)).ctx 0).poolGet 0 (0x18000 + 8 * (n * 1 + 0)) 8)) g % 4 <
        groupOf (leNat (((stSetup (.mmuls mulForm)).ctx 0).poolGet 0 (0x18000 + 8 * (n * 1 + 0)) 8)) g / 4 :=
  ⟨(setup_ready _).2.1, (setup_ready _).2.1, (setup_ready _).2.1, (setup_ready _).2.1, (setup_ready _).2.1, by decide,
    (setup_ready _).2.1, by decide +kernel⟩

def runWb : MxRun := { mxRunOf (.acclr 0 true mxTail) with stage := .writeback, due := 7, writes := [(0x14000, 1), (0x14FFF, 2)], flags := 1 }
/-- The same with a plane write in flight to the first byte it writes. -/
theorem witness_MatrixWritesBarred :
    let s := { onFocus { ctxMx [] with
      mx := { MxState.reset with runs := [runWb] }, ex := { ExState.reset with pipe := [{ InFlight.start 3 with bytes := [(0x14000, 9)], hold := true }] } } with clk := 7 }
    (s.ctx 0).mx.runs.find? (fun u => u.stage == .writeback) = some runWb ∧ ∃ v ∈ runWb.writes, (s.ctx 0).heldByte v.1 = true := by
  decide +kernel
theorem witness_MatrixCommandsComplete :
    let s := { onFocus { ctxMx [] with mx := { MxState.reset with runs := [runWb] }, sem := ctx0.sem.set 1 65533 } with clk := 7 }
    (s.ctx 0).mx.runs.find? (fun u => u.stage == .writeback) = some runWb ∧ runWb.due ≤ s.clk ∧ runWb.undef = none ∧
      mxParts runWb.i = some (5, 0, mxTail) ∧
      semOf (s.ctx 0) mxTail.ssem + ((s.ctx 0).noteAt s.clk).taken.getD mxTail.ssem.toNat 0 + mxTail.sval.toNat ≤ 65535 ∧
      (∀ v ∈ runWb.writes, (s.ctx 0).heldByte v.1 = false ∧ v.1 ∉ ((s.ctx 0).noteAt s.clk).exw ∧
        v.1 ∉ ((s.ctx 0).noteAt s.clk).landed ∧ ∀ h ∈ (s.ctx 0).ex.held, h.addr ≠ v.1) ∧
      { runWb with undef := some (0x0507, 5) }.undef = some (0x0507, 5) ∧ (s.ctx 0).mx.halted = false ∧ mxTail.sval ≠ 0 := by
  refine ⟨?_, ?_, ?_, rfl, ?_, ?_, ?_, ?_, ?_⟩ <;> decide +kernel

/-- Cores 0 and 1 of a cluster at a crier command, the sender and a receiver; and with sequence numbers that differ. -/
def crierForm (bsel : BitVec 2) (cseq : BitVec 16) : MulForm :=
  { mulForm with bsel := bsel, cmask := 3, mdat := 0, t := ⟨0, 0, cseq, 0, 0⟩, bop := if bsel = 1 then 0 else 15 }
def crierCtx (bsel : BitVec 2) (cseq : BitVec 16) : Context :=
  { ctxMx [0] with mxq := [⟨4, BitVec.ofNat 256 ((encode (.mmul (crierForm bsel cseq))).getD (.mx, 0)).2⟩] }
def stCrier (cseq : BitVec 16) : State := (onFocus (crierCtx 2 5)).setCtx 2 (crierCtx 1 cseq)
theorem crier_met (s : State) (c : CtxId) (hc : c ∈ crierSet c 3) (hm : (s.crier c).map (fun m => m.f.cmask) = some 3)
    (hl : ((crierSet c 3).filterMap s.crier).length = (crierSet c 3).length)
    (he : (((crierSet c 3).filterMap s.crier).all fun m => (m.early s).isNone) = true) :
    ∃ me, s.crier c = some me ∧ me.f.cmask = 3 ∧ ((crierSet c me.f.cmask).filterMap s.crier).length = (crierSet c me.f.cmask).length ∧
      (∀ m ∈ (crierSet c me.f.cmask).filterMap s.crier, m.early s = none) ∧ me ∈ (crierSet c me.f.cmask).filterMap s.crier := by
  cases h : s.crier c with
  | none => rw [h] at hm; cases hm
  | some me =>
    rw [h] at hm
    have hk : me.f.cmask = 3 := Option.some.inj hm
    rw [List.all_eq_true] at he
    exact ⟨me, rfl, hk, by rw [hk]; exact hl, fun m h' => by rw [hk] at h'; exact Option.isNone_iff_eq_none.mp (he m h'),
      by rw [hk]; exact List.mem_filterMap.mpr ⟨c, hc, h⟩⟩
theorem crier_five :
    ((stCrier 5).crier 0).map (fun m => m.f.cmask) = some 3 ∧
    ((crierSet 0 3).filterMap (stCrier 5).crier).length = (crierSet 0 3).length ∧
    (((crierSet 0 3).filterMap (stCrier 5).crier).all fun m => (m.early (stCrier 5)).isNone) = true ∧
    crierReason (stCrier 5) ((crierSet 0 3).filterMap (stCrier 5).crier) = 0 ∧
    (((crierSet 0 3).filterMap (stCrier 5).crier).all fun m => (m.late (stCrier 5)).isNone && m.p.t.wval == 0) = true := by decide +kernel
theorem crier_six : ((stCrier 6).crier 0).isSome = true ∧ crierReason (stCrier 6) ((crierSet 0 3).filterMap (stCrier 6).crier) ≠ 0 := by
  decide +kernel
theorem witness_CrierGroupsBeginTogether :
    (∃ me, (stCrier 5).crier 0 = some me ∧ me.f.cmask = 3 ∧
      ((crierSet 0 me.f.cmask).filterMap (stCrier 5).crier).length = (crierSet 0 me.f.cmask).length ∧
      (∀ m ∈ (crierSet 0 me.f.cmask).filterMap (stCrier 5).crier, m.early (stCrier 5) = none) ∧
      me ∈ (crierSet 0 me.f.cmask).filterMap (stCrier 5).crier) ∧
    crierReason (stCrier 5) ((crierSet 0 3).filterMap (stCrier 5).crier) = 0 ∧
    (∀ m ∈ (crierSet 0 3).filterMap (stCrier 5).crier, m.late (stCrier 5) = none ∧ m.p.t.wval = 0) ∧
    (∃ me, (stCrier 6).crier 0 = some me) ∧ crierReason (stCrier 6) ((crierSet 0 3).filterMap (stCrier 6).crier) ≠ 0 := by
  obtain ⟨h1, h2, h3, h4, h5⟩ := crier_five
  refine ⟨crier_met _ _ (by decide) h1 h2 h3, h4, fun m hm => ?_, Option.isSome_iff_exists.mp crier_six.1, crier_six.2⟩
  have := List.all_eq_true.mp h5 m hm
  simp only [Bool.and_eq_true, Option.isNone_iff_eq_none, beq_iff_eq] at this
  exact this

/-! ### An image, a mill and its processors -/

/-- Numbers of 8 bytes placed in memory. -/
def placeDwords (m : Mem) (l : List (Nat × Nat)) : Mem := l.foldl (fun m p => memPutNat m p.1 8 p.2) m
/-- An image at 0x100000 with an SQ section, a kernel table of one kernel, an LN section of one row kernel that runs one `nop`, and
a digest section; and a lease list at 0x102000 for 16 granary pages and the image. -/
def imgMem : Mem := placeDwords [] [
  (0x100000, 0x000400014E525041), (0x100008, 4096), (0x100010, 1),
  (0x100040, 0x0000004000000001), (0x100048, 0x80), (0x100050, 0x0000004000000008), (0x100058, 0xC0),
  (0x100060, 0x0000008800000005), (0x100068, 0x100), (0x100070, 0x0000010000000009), (0x100078, 0x1C0),
  (0x100100, 1), (0x100140, 0x0000000100000080), (0x100148, 0x0001010000010001), (0x100150, 0x0000000100000000),
  (0x102000, 0x10000000000), (0x102008, 0x200000010), (0x102010, 0x100000), (0x102018, 0x100000001)]
/-- A record for CSI-2 stream 0: 2 rows of 4 RAW8 samples, the row kernel 0, one slot at the granary's start, NAT16 out. -/
def millDw : List W64 :=
  [3, 0x0000002A00800080, 0x100000, 0, 0x00020004000003E8, 0, 0x0002000000102000, 0x0000006400000000, 0, 0,
    0x0001010000000000, 0x000200400000000D, 0, 0, 0, 0]
def ker0 : RowKernel := ⟨[0], 1, 1, 0, 1, 1, false, 1, 0, 0, none⟩
def cfg0 : MillCfg := recCfg millDw [ker0]
/-- The device with that image verified, a record of the stream waiting. -/
def stImg : State := { State.reset with mem := imgMem, verified := [⟨0x100000, 4096⟩], ro := [⟨0x100000, 4096⟩] }
def stRec (dw : List W64) : State := stImg.setStream 0 { Stream.reset with pending := [(1, 7, dw)] }

/-- The stream on, with a frame in flight, its first row present, and its processor at a strip. -/
def inRow0 : InRow := ⟨1, 0, 0, 3, 50, [9, 8, 7, 6], 0⟩
def stream0 : Stream := { Stream.reset with cfg := some cfg0, ring := [inRow0], rowSeq := 1 }
def proc0 : Proc := { Proc.reset with frame := 1, dframe := 1, out := [⟨1, 0, 0, [], 0, false⟩], busy := true }
def stLine (p : Proc) : State := (State.reset.setStream 0 stream0).setProc 0 p
def lnF : LnForm := ⟨1, 15, 14, 8, 13, 31⟩
def lnK : LnForm := ⟨0, 7, 6, 13, 0, 5⟩

theorem witness_LineProcessorInstructions :
    (∃ f, lnLaneRow (.lnVadd lnF) = some (lnF, f)) ∧ (Instr.lnVadd lnF).wf = false ∧
    (∃ f, lnLaneRow (.lnVadd { lnF with c := 0 }) = some ({ lnF with c := 0 }, f)) ∧ (Instr.lnVadd { lnF with c := 0 }).wf = true ∧
    (∃ f, lnScalRow (.kadd lnK) = some (lnK, f)) ∧ (Instr.kadd lnK).wf = true ∧ inChain (stLine proc0) 0 cfg0 0 ker0 ∧
    (sampleAt (stLine proc0) 0 cfg0 0 ker0 0 3 = some 6 ∧ sampleAt (stLine proc0) 0 cfg0 0 ker0 0 4 = none ∧ inW cfg0 0 = 4 ∧
      statusAt (stLine proc0) 0 cfg0 0 ker0 0 = some 3 ∧ statusAt (stLine { proc0 with frame := 2 }) 0 cfg0 0 ker0 0 = none) ∧
    (curP (stLine proc0)).outRow (curP (stLine proc0)).frame (curP (stLine proc0)).orow = some ⟨1, 0, 0, [], 0, false⟩ ∧
    (curP (stLine proc0)).busy = true ∧ ker0.code.length ≤ (curP (stLine proc0)).ip + 1 := by
  refine ⟨⟨_, rfl⟩, by decide +kernel, ⟨_, rfl⟩, by decide +kernel, ⟨_, rfl⟩, by decide +kernel, by decide +kernel, ?_, ?_, ?_, ?_⟩ <;> decide +kernel

/-! ### Ingress and mills -/

def openF0 (r : Option Bool) : OpenFrame := ⟨1, 0, 0, r, none, none⟩
/-- The stream with its frame open, before or in a packet, as the other fields say. -/
def stIn (u : Stream) : State := { State.reset.setStream 0 u with timeU := 6000000000 }
def streamIn (r : Option Bool) : Stream := { stream0 with openF := some (openF0 r) }
/-- The same with a deadline 1 ms off, and a stream of the lidar source 0 of port 0 with its frame open. -/
def cfgLate : MillCfg := { cfg0 with doff := 1000000 }
def cfgSync : MillCfg := { cfg0 with fsper := 1000, fsbase := 1000, doff := 1000000 }
def cfgLidar : MillCfg := { cfgLate with udp := 0x1234, tsoff := 0, roff := 8, poff := 10, dt := 0 }
def stLidar : State := { State.reset.setStream 96 { stream0 with cfg := some cfgLidar, openF := some (openF0 none) } with timeU := 6000000000 }
def dgram : Datagram := ⟨0x1234, true, List.replicate 18 0, false⟩
theorem witness_IngressPackets :
    (let u := ((stIn { stream0 with cfg := some cfgLate }).countEcc 0 true).upTo 0
     (u.stream 0).cfg = some cfgLate ∧ (u.stream 0).pend = false ∧ cfgLate.fsper = 0 ∧ (u.stream 0).openF = none) ∧
    (let u := ((stIn { stream0 with cfg := some cfgSync, fsOk := true }).countEcc 0 false).upTo 0
     (u.stream 0).cfg = some cfgSync ∧ cfgSync.fsper ≠ 0 ∧ (u.stream 0).fsOk = true) ∧
    (let u := ((stIn { streamIn none with cfg := some cfgLate }).countEcc 0 false).upTo 0
     (u.stream 0).openF = some (openF0 none) ∧ (openF0 none).next < cfgLate.height) ∧
    (let u := ((stIn { streamIn (some true) with cfg := some cfgLate }).countEcc 0 false).upTo 0
     (u.stream 0).openF = some (openF0 (some true)) ∧ (openF0 (some true)).recv.isSome = true ∧ (u.stream 0).cfg = some cfgLate ∧ (u.stream 0).pend = false) ∧
    ((((stIn Stream.reset).countEcc 0 false).upTo 0).stream 0).cfg = none ∧
    (((stIn stream0).countEcc 0 false).upTo 0 |>.stream 0).openF = none ∧
    (let u := (stIn { streamIn (some false) with cfg := some cfgLate }).catchUp 0
     (u.stream 0).cfg = some cfgLate ∧ (u.stream 0).openF = some (openF0 (some false)) ∧ (openF0 (some false)).recv = some false) ∧
    State.reset.lidarSource 0 5 = none ∧
    (let s := stLidar; let u := { s with free := s.free + 10 }.catchUp 96; let m := cfgLidar; let d := dgram
     s.lidarSource 0 d.udp = some (96, m) ∧ (s.stream 96).pend = false ∧ (u.stream 96).openF = some (openF0 none) ∧ m.roff + 2 ≤ d.payload.length ∧
       m.tsoff + 8 ≤ d.payload.length ∧ 0 = leNat ((d.payload.drop m.roff).take 2) ∧ (openF0 none).next = 0 ∧ 0 < m.height ∧
       (∀ r ∈ (openF0 none).lastRow, r < 0) ∧ (openF0 none).recv = none ∧ d.first = false ∧ d.checksOk = true ∧ m.poff + 2 * m.width ≤ d.payload.length) ∧
    (let s := stIn { stream0 with cfg := some cfgSync }
     (s.stream 0).cfg = some cfgSync ∧ (s.stream 0).pend = false ∧ (s.stream 0).cut = none ∧
       cfgSync.fsbase + (s.stream 0).syncNo * cfgSync.fsper = 1000 ∧ 1000 ≤ s.now.toNat ∧ ((s.catchUp 0).stream 0).openF = none) ∧
    ((((stIn { streamIn (some true) with cfg := some cfgSync }).catchUp 0).stream 0).openF.map (·.recv)) = some (some true) ∧
    (let s := stIn (streamIn (some true)); let o : OpenFrame := { openF0 none with next := 1 }
     (s.stream 0).openF = some (openF0 (some true)) ∧ cfg0.deadline 0 0 < s.now.toNat ∧ 0 < cfg0.height ∧ o.next + 1 = cfg0.height) ∧
    (let s := stIn { stream0 with ring := [], waiting := [inRow0] }
     (s.stream 0).waiting = inRow0 :: [] ∧ s.ringBlocked 0 cfg0 inRow0.seq = false) := by
  and_intros <;> decide +kernel

/-- The end of a packet, a frame or a row that waits for the last byte of the row in RECV, on the last row and before it. -/
def stCut (k : Cut) (o : Option OpenFrame) : State := stIn { stream0 with cfg := some cfgLate, openF := o, cut := some k }
theorem witness_CutsTakeEffect :
    (State.reset.stream 0).cut = none ∧ ((stCut (.frame 5) (openF0 none)).stream 0).cut = some (.frame 5) ∧
      ((stCut .close (openF0 (some true))).stream 0).openF = some (openF0 (some true)) ∧ (openF0 (some true)).next + 1 < cfgLate.height ∧
      ((stCut .close none).stream 0).openF = none ∧ ((stCut (.packet true) none).stream 0).cut = some (.packet true) ∧
      ((stCut (.packet false) (some { openF0 (some true) with next := 1 })).stream 0).openF = some { openF0 (some true) with next := 1 } ∧
      ({ openF0 (some true) with next := 1 } : OpenFrame).next + 1 = cfgLate.height := by
  and_intros <;> decide +kernel
/-- A lidar source with a frame open at row `o.next` or none; datagrams of row `row`, first or last byte, checks passed or not. -/
def stLid (o : Option OpenFrame) : State := { State.reset.setStream 96 { stream0 with cfg := some cfgLidar, openF := o } with timeU := 6000000000 }
def dgramOf (row : Byte) (ok first : Bool) : Datagram := ⟨0x1234, ok, List.replicate 8 0 ++ [row] ++ List.replicate 9 0, first⟩
theorem witness_LidarDatagrams :
    (∀ d ∈ [dgramOf 0 true true, dgramOf 1 true false, dgramOf 1 false false, dgramOf 9 true false],
      (stLid none).lidarSource 0 d.udp = some (96, cfgLidar) ∧ cfgLidar.roff + 2 ≤ d.payload.length ∧ cfgLidar.tsoff + 8 ≤ d.payload.length) ∧
    leNat (((dgramOf 9 true false).payload.drop cfgLidar.roff).take 2) = 9 ∧ cfgLidar.height ≤ 9 ∧ (1 : Nat) < cfgLidar.height ∧
    ((((stLid none).catchUp 96).stream 96).openF = none ∧ ((stLid none).stream 96).pend = false) ∧
    (({ stLid (openF0 none) with free := 10 }.catchUp 96).stream 96).openF = some (openF0 none) ∧
    (let o : OpenFrame := { openF0 none with next := 1, lastRow := some 1 }
     (({ stLid (some o) with free := 10 }.catchUp 96).stream 96).openF = some o ∧ o.lastRow = some 1 ∧ (0 : Nat) ≤ 1 ∧ o.next < cfgLidar.height) ∧
    (let s := State.reset.setStream 96 { stream0 with cfg := some cfgLidar, pending := [(1, 7, millDw)] }
     s.lidarSource 0 0x1234 = some (96, cfgLidar) ∧ (s.stream 96).pend = true) := by
  and_intros <;> decide +kernel

/-- A verdict applies a configuration. -/
def applies (v : MillVerdict) : Bool := match v with | .on _ _ => true | _ => false
theorem exists_of_applies {v : MillVerdict} (h : applies v = true) : ∃ m g, v = .on m g := by
  cases v with
  | on m g => exact ⟨m, g, rfl⟩
  | off => cases h
  | bad b => cases h
/-- A frame in flight, its slot not reset or at one of the writes of its first row. -/
def frame0 (reset : Bool) (stage : Nat) : FrameRun := ⟨1, some 50, some 60, reset, 0, 0, 0, 0, stage, 0⟩
def stSlot (reset : Bool) (stage : Nat) : State :=
  (State.reset.setStream 0 { stream0 with frames := [frame0 reset stage] }).setProc 0
    { proc0 with out := [⟨1, 0, 3, [(0, 0, 9)], 1, true⟩] }
theorem witness_MillsConfigureAndWriteRows :
    ((stRec millDw).stream 0).pending = (1, 7, millDw) :: [] ∧ ((stRec millDw).stream 0).cfg = none ∧
    (∃ m g, ((stRec millDw).setStream 0 { (stRec millDw).stream 0 with pending := [] }).millCheck millDw = .on m g) ∧
    ((stRec (List.replicate 16 0)).setStream 0 { (stRec millDw).stream 0 with pending := [] }).millCheck (List.replicate 16 0) = .off ∧
    ((stRec millDw).setStream 0 { (stRec millDw).stream 0 with pending := [] }).millCheck (millDw.set 14 1) = .bad (millBad 1) ∧
    ((stLine { proc0 with busy := false }).chainOf (0 : ProcId).val = some (0, cfg0) ∧ cfg0.kernels[0]? = some ker0) ∧
    ((stLine { proc0 with busy := false }).proc 0).busy = false ∧
      (stLine { proc0 with busy := false }).stripReady 0 0 cfg0 ker0 { proc0 with busy := false } = true ∧
    (let p := { proc0 with out := [⟨1, 0, 0, [], 1, false⟩] }
     p.outRow p.dframe p.drow = some ⟨1, 0, 0, [], 1, false⟩ ∧ ker0.nstrip ≤ 1 ∧
       ker0.named.map (fun j => (stLine p).rowStatus 0 cfg0 0 p.dframe (ker0.winRow (cfg0.inRows 0) p.drow j)) = [3].map some ∧
       p.drow + 1 < cfg0.outRows 0) ∧
    (((stSlot false 0).stream 0).frames = frame0 false 0 :: [] ∧ (frame0 false 0).slotReset = false ∧
      roFault (stSlot false 0).ro (cfg0.slot (frame0 false 0).frame) 0x440 = none ∧
      (roFault [⟨0x10000000400, 64⟩] (cfg0.slot (frame0 false 0).frame) 0x440).isSome = true) ∧
    (((stSlot true 0).stream 0).frames = frame0 true 0 :: [] ∧ (frame0 true 0).due ≤ (stSlot true 0).clk ∧
      ((stSlot true 0).proc (cfg0.procAt 0 (cfg0.kernels.length - 1))).outRow 1 0 = some ⟨1, 0, 3, [(0, 0, 9)], 1, true⟩ ∧
      ∀ i < cfg0.iw cfg0.kernels.length, (tabFind [(0, (0, (9 : BitVec 16)))] i).isSome = true) ∧
    (3 < 4 ∧ (0 + 1 = cfg0.rows → (frame0 true 1).tend.isSome = true)) ∧ ¬ cfg0.rows ≤ (frame0 true 2).rowcnt + 1 ∧
      cfg0.rows ≤ { frame0 true 2 with rowcnt := 1 }.rowcnt + 1 := by
  and_intros <;> first | decide +kernel | exact exists_of_applies (by decide +kernel)

/-! ### Alignment -/

/-- A complete definition of rule 63 for streams 0 and 5, and the rule armed, open, mirrored. -/
def rule0 : Rule := { Rule.reset with
  members := [some 0, some 5] ++ List.replicate 14 none, refpos := 1, delta := 10, dead := 1000, ring := 0x10000000000, nrec := 4,
  ringSet := true, cnt := 0x10000001000, cntSet := true }
def stRule (r : Rule) : State := { st0 with rules := [(63, r)], parts := [(0, { Part.reset with prules := 0x8000000000000000 })] }
theorem complete_rule0 : complete rule0 [0, 5] :=
  ⟨⟨14, rfl⟩, by decide, by decide, by decide, rfl, rfl, by decide⟩
theorem witness_AlignmentCommandsAct :
    (stRule Rule.reset).granted 63 = true ∧ Rule.reset.st = 0 ∧ (0x1002FFFFC00 : Addr).toNat % 1024 = 0 ∧
      (0x1002FFFFC00 : Addr).toNat + 1024 * ((0 : Byte).toNat + 1) ≤ 0x10030000000 ∧ (0x1002FFFFFFC : Addr).toNat + 4 ≤ 0x10030000000 ∧
    complete rule0 [0, 5] ∧ leaseFault (cur (stRule rule0)).leases false true rule0.ring.toNat (1024 * rule0.nrec) = none ∧
      leaseFault (cur (stRule rule0)).leases false true rule0.cnt.toNat 4 = none ∧
    { rule0 with st := 2, pend := true }.pend = true ∧ st0.granted 63 = false ∧ { rule0 with st := 1 }.st ≠ 0 := by
  refine ⟨?_, ?_, ?_, ?_, ?_, complete_rule0, ?_, ?_, ?_, ?_, ?_⟩ <;> decide +kernel

/-- A recording of stream 5 to be processed, with rule 63 in a state and the almanac's entries. -/
def rec0 : FrameRec := ⟨1, 3, 600, 0x10000010000, 0⟩
def stRecs (r : Rule) (alm : List (Nat × AlmEntry)) (tstart : Nat) : State :=
  { State.reset.setStream 5 { Stream.reset with recs := [rec0] } with
    rules := [(63, r)], almanac := alm, clk := 4, mem := placeDwords [] [(0x10000010000, 1), (0x10000010008, tstart)] }
/-- The almanac with an entry of stream 0 near that time. -/
def alm0 : List (Nat × AlmEntry) := [(0, ⟨1, 495, 0, 0, 0, 0, 0, 0, 0⟩), (20, ⟨1, 500, 0, 0, 0, 0, 0, 0, 0⟩)]
def ruleOpen : Rule := { rule0 with st := 2, pend := true, topen := 500, dl := 1600, dlAt := some (3, 1601) }
theorem near_first {s : State} {st : Nat} {floor v : W64} {e : AlmEntry} (h0 : liveAt s st floor 0) (he : s.alm st 0 = e)
    (h : ∀ i < 4, i ≠ 0 → (s.alm st i).frame = 0) : nearIs s st floor v (some e) :=
  ⟨⟨0, h0, he⟩, fun i hi => Or.inr (by
    by_cases hz : i = 0
    · subst hz; rw [he]; exact ⟨rfl, Nat.le_refl _⟩
    · exact absurd (h i hi.1 hz) hi.2.1)⟩
/-- Every member has its entry; none has one. -/
theorem chosen_alm0 : chosen (stRecs ruleOpen alm0 500) ruleOpen (some ⟨1, 500, 0, 0, 0, 0, 0, 0, 0⟩) 500
    [some ⟨1, 495, 0, 0, 0, 0, 0, 0, 0⟩, some ⟨1, 500, 0, 0, 0, 0, 0, 0, 0⟩] := by
  refine ⟨near_first ⟨by decide, by decide +kernel, by decide +kernel⟩ (by decide +kernel) (by decide +kernel), rfl, by decide +kernel, fun i st h => ?_⟩
  have hs : ruleOpen.streams = [0, 5] := by decide +kernel
  rw [hs] at h
  match i with
  | 0 => cases h; exact ⟨some ⟨1, 495, 0, 0, 0, 0, 0, 0, 0⟩, near_first ⟨by decide, by decide +kernel, by decide +kernel⟩ (by decide +kernel) (by decide +kernel), by decide⟩
  | 1 => cases h; exact ⟨some ⟨1, 500, 0, 0, 0, 0, 0, 0, 0⟩, near_first ⟨by decide, by decide +kernel, by decide +kernel⟩ (by decide +kernel) (by decide +kernel), by decide⟩
  | _ + 2 => cases h
theorem chosen_empty : chosen (stRecs ruleOpen [] 500) ruleOpen none 500 [none, none] := by
  refine ⟨fun i h => absurd rfl h.2.1, rfl, by decide +kernel, fun i st h => ⟨none, fun i h => absurd rfl h.2.1, ?_⟩⟩
  have hs : ruleOpen.streams = [0, 5] := by decide +kernel
  rw [hs] at h
  match i with
  | 0 | 1 => rfl
  | _ + 2 => cases h
/-- After the record of TSTART 500 stream 0 still has an entry at 600, the least there is. -/
theorem witness_NextMatchOpens :
    let s := stRecs ruleOpen ((1, ⟨2, 600, 0, 0, 0, 0, 0, 0, 0⟩) :: alm0) 500
    let n := moved ruleOpen 500 false
    (∃ st ∈ ruleOpen.streams, ∃ i, liveAt s st n.floor i ∧ (s.alm st i).tstart = 600) ∧
      ∀ st ∈ ruleOpen.streams, ∀ i, liveAt s st n.floor i → 600 ≤ (s.alm st i).tstart.toNat := by
  intro s n
  have hs : ruleOpen.streams = [0, 5] := by decide +kernel
  rw [hs]
  have hl : ∀ st ∈ [0, 5], ∀ i < 4, n.floor.toNat < (s.alm st i).tstart.toNat → 600 ≤ (s.alm st i).tstart.toNat := by decide +kernel
  exact ⟨⟨0, by decide, 1, ⟨by decide, by decide +kernel, by decide +kernel⟩, by decide +kernel⟩, fun st h i hi => hl st h i hi.1 hi.2.2⟩
/-- A record's write due in clock 5, and its counter's with a broadcast. -/
def alW (b : Option (Nat × Nat × List Byte)) : AlWrite := ⟨5, 0x10000000000, [1, 2, 3, 4], b⟩
def stFlush (clk : Nat) (b : Option (Nat × Nat × List Byte)) (ro : List RoRange) (l : Link) : State :=
  { stLink l with alWrites := [alW b], clk := clk, ro := ro }
theorem witness_WritesFallDue :
    (stFlush 4 none [] linkUp).clk < (alW none).due ∧ (alW none).due ≤ (stFlush 5 none [] linkUp).clk ∧
      (∀ r ∈ (stFlush 5 none [⟨0x10000000004, 64⟩] linkUp).ro, (alW none).addr + (alW none).data.length ≤ r.base ∨ r.base + r.len ≤ (alW none).addr) ∧
      (∀ i < 4, (stFlush 5 none [] linkUp).inSlot ((alW none).addr + i) = false) ∧
      ((stFlush 5 (some (1, 63, [7])) [] linkUp).link 1).up = true ∧ ((stFlush 5 (some (1, 63, [7])) [] Link.reset).link 1).up = false := by
  decide +kernel
theorem witness_AlignmentEventsAct :
    (((stRecs ruleOpen alm0 500).stream 5).recs = rec0 :: [] ∧ (stRecs { ruleOpen with pend := false, st := 1, dlAt := none } alm0 500).alReady (rec0.clk, 0, 5) = true) ∧
    (5 ∈ rule0.streams ∧ 500 ≤ { rule0 with floor := 500 }.floor.toNat ∧ { rule0 with floor := 499 }.floor.toNat < 500 ∧ 7 ∉ rule0.streams) ∧
    (∃ ref cs, chosen (stRecs ruleOpen alm0 500) ruleOpen ref 500 cs ∧ whole ref cs = true) ∧
    (∃ ref cs, chosen (stRecs ruleOpen [] 500) ruleOpen ref 500 cs ∧ whole ref cs = false) ∧
    (let s := (stRecs ruleOpen [] 500).setStream 5 Stream.reset
     s.rule 63 = ruleOpen ∧ ruleOpen.dlAt = some (3, 1601) ∧ ruleOpen.pend = true ∧ s.alReady (3, 1, 63) = true) ∧
    (let l := { linkUp with rxReady := [(63, List.replicate 1024 7, 8)] }
     let s := { stLink l with rules := [(63, { rule0 with mode := 2, st := 3 })] }
     (s.link 1).rxReady = (63, List.replicate 1024 7, 8) :: [] ∧ s.alReady (8, 3, 1) = true ∧ (s.rule 63).st = 3 ∧ Rule.reset.st ≠ 3) := by
  refine ⟨?_, ?_, ⟨_, _, chosen_alm0, rfl⟩, ⟨_, _, chosen_empty, rfl⟩, ?_, ?_⟩ <;> decide +kernel

/-! ### The scheduler -/

/-- Queue 2: host-fed, of 64 entries at 0x300000, exceptions in 16 at 0x310000, with one pointer pair. -/
def queue0 (head tail : W32) : Queue := { Queue.reset with
  qcfg := 0xC000000000000031, qring := 0x6000000000300000, qxring := 0x4000000000310000, head := head, tail := tail }
def stQ (u : Queue) : State := State.reset.setQueue 2 u
/-- A record of a fault of context 0 found in clock 3, not written or at RSEQ 0. -/
def faultOf (eng code st : Nat) (rseq : Option W32) : FaultEntry :=
  ⟨2, .ctx 0, ⟨st, 0, 0, false, eng, code, 0, 0, 0x1000, 0, 0, 0, 7⟩, 3, false, rseq, false⟩
theorem witness_QueuePointersAndRecords :
    (queue0 5 69).hostFed = true ∧ ((69 : W32) - (queue0 5 5).head).toNat ≤ (queue0 5 5).size ∧ ((69 : W32) - (queue0 5 5).tail).toNat ≤ (queue0 5 5).size ∧
      (queue0 5 5).size < ((70 : W32) - (queue0 5 5).head).toNat ∧ Queue.reset.hostFed = false ∧
    (let s := { stQ { queue0 5 5 with xtail := 15 } with faults := [faultOf 1 0x0302 0 none], clk := 4 }; let u := s.queue 2
     let a := u.xbase + 64 + 64 * (u.xtail.toNat % u.xsize)
     s.nextFault 2 = some (faultOf 1 0x0302 0 none) ∧ (faultOf 1 0x0302 0 none).clk < s.clk ∧ (u.xtail - u.xhead).toNat < u.xsize ∧
       plainRange s a 64 ∧ plainRange s u.xbase 16) ∧
    (let s := stQ { queue0 5 5 with coalAt := some 0, coalPending := 3 }
     (s.queue 2).coalAt = some 0 ∧ (0 : W64).toNat ≤ s.now.toNat ∧ s.msixMask = false) ∧
    (let s := { stQ { queue0 5 5 with coalAt := some 0, coalPending := 3 } with msix := [(1, 0)] }
     (s.msixCtl (s.queue 2).cvec).getLsbD 32 = false) := by
  and_intros <;> decide +kernel

/-- A kernel launch of one work item of that image, with a signal block at 0x104000, or with a graph node at 0x105000. -/
def kernDw (graph : W64) : List W64 := [0x0101, 0, 0x100000, 0, 0x0001000000040201, 0x104000, 0x0002000000102000, 0, graph, 9, 0, 0, 0, 0, 0, 0]
/-- Its record at entry 5 of queue 2, and at 0x105000 a node with no successor, one dependence and an error. -/
def recMem (graph : W64) (deps : Nat) : Mem :=
  placeDwords (placeDwords imgMem ((kernDw graph).zipIdx.map fun p => (0x300280 + 8 * p.2, p.1.toNat))) [(0x105000, deps)]
def stAdm (graph : W64) (deps : Nat) : State := { stImg.setQueue 2 (queue0 5 6) with mem := recMem graph deps }
def launch0 (st : LState) : Launch := ⟨2, 7, kernDw 0, st, 1, 0, [], some (bareKernel 0x1000), [], [], none, 0, none, false, none, 0, 0, none⟩
def stLaunches (l : List Launch) : State := { stImg.setQueue 2 (queue0 5 6) with launches := l }
/-- Whether preparation finds no error. -/
def prepared (r : Sum Nat (List Lease × Image × Kernel)) : Bool := match r with | .inr _ => true | .inl _ => false
theorem exists_of_prepared {r : Sum Nat (List Lease × Image × Kernel)} (h : prepared r = true) : ∃ ls g k, r = .inr (ls, g, k) := by
  cases r with
  | inr v => exact ⟨v.1, v.2.1, v.2.2, rfl⟩
  | inl v => cases h
theorem witness_LaunchesAdmitPrepareComplete :
    (let s := stAdm 0 0; let u := s.queue 2
     u.en = true ∧ u.frozen = false ∧ u.tail ≠ u.head ∧ (s.launches.filter fun l => l.q == 2).length ≤ u.actm1 ∧ s.pausedAt = none ∧ s.phaseDev ≠ 3 ∧
       kernDw 0 = (List.range 16).map (fun i => BitVec.ofNat 64 (memNat s.mem (u.base + 128 * (u.head.toNat % u.size) + 8 * i) 8)) ∧
       recOk (kernDw 0) = true ∧ recOp (kernDw 0) = 1 ∧ s.heldBack 2 (kernDw 0) = false ∧ (∀ l ∈ s.launches, ¬ (l.q = 2 ∧ l.lseq = u.head)) ∧
       recDw (kernDw 0) 8 = 0) ∧
    (recOk ((kernDw 0).set 15 1) = false ∧ recOk [0x0102, 0, 0, 0, 0, 0x104000, 0, 0, 0, 9, 0, 0, 0, 0, 0, 0] = true ∧
      recOp [0x0102, 0, 0, 0, 0, 0x104000, 0, 0, 0, 9, 0, 0, 0, 0, 0, 0] = 2) ∧
    ((stAdm 0x105000 1).graphOk 0x105000 = true ∧ recOk (kernDw 0x105000) = true ∧ memNat (stAdm 0x105000 1).mem 0x105000 4 ≠ 0 ∧
      memNat (stAdm 0x105000 0x080500000000).mem 0x105000 4 = 0 ∧ memNat (stAdm 0x105000 0x080500000000).mem 0x105004 4 ≠ 0) ∧
    (let s := stLaunches [launch0 .preparing]
     s.launchOf 2 7 = some (launch0 .preparing) ∧ (launch0 .preparing).st = .preparing) ∧
    (∃ ls g k, (stLaunches [launch0 .preparing]).prepare (launch0 .preparing) = .inr (ls, g, k)) ∧
    (match (State.reset.setQueue 2 (queue0 5 6)).prepare { launch0 .preparing with dw := (kernDw 0).set 6 0 } with
      | .inl c => c == 0x0804 | .inr _ => false) = true ∧
    (let l := { launch0 .completing with code := 0x0804 }; (stLaunches [l]).launchOf 2 7 = some l ∧ l.st = .completing) ∧
    (let l := { launch0 .running with items := [⟨0, .ended, 0⟩], err := some 0x0302 }
     l.st = .running ∧ l.finished = true ∧ recDw l.dw 5 = 0x104000 ∧ recDw l.dw 8 = 0 ∧ plainRange (stLaunches [l]) 0x104000 32) := by
  refine ⟨?_, ?_, ?_, ?_, exists_of_prepared (by decide +kernel), ?_, ?_, ?_⟩ <;> decide +kernel

/-- The same queue for foreground contexts, its partition with cluster 0. -/
def fgQueue : Queue := { queue0 5 6 with qcfg := 0xE000000000000031 }
def stDisp (l : List Launch) (xs : List (Nat × Context)) : State :=
  { stImg.setQueue 2 fgQueue with launches := l, ctxs := xs, parts := [(0, { Part.reset with pclu := 1 })], timeU := 6000000 * 10000000 }
/-- A context with a discarded item of the launch, and one with an item that runs. -/
def heldJob : Job := { job0 with q := 2, lseq := 7 }
def idleCtx : Context := { ctx0 with run := .idle, job := some heldJob }
def launchSwap : Launch := { launch0 .ready with lseq := 8, prio := 2, noFree := some 0 }
def swapQueue : Queue := { fgQueue with qcfg := 0xF000000000000031 }
def stSwap (x : Context) (r : List (Nat × Nat × W32)) : State :=
  { (stDisp [launchSwap, { launch0 .running with items := [⟨0, .dispatched, 0⟩] }] [(0, x)]).setQueue 2 swapQueue with swapReq := r }
theorem witness_WorkItemsDispatchAndRestart :
    (let s := stDisp [launch0 .ready] []; let l := launch0 .ready
     s.dispClk ≠ some s.clk ∧ s.nextRestart = none ∧ s.choice = some (l, 0) ∧ l.kernel = some (bareKernel 0x1000) ∧ l.nextGroup 0 = some 0 ∧
       s.wheelFor l = some []) ∧
    (let s := stDisp [{ launch0 .running with items := [⟨0, .discarded, 0⟩] }] [(0, idleCtx)]
     s.dispClk ≠ some s.clk ∧ s.nextRestart = some 0 ∧ s.waitsHere 0 = some idleCtx ∧ s.restartWheel (s.launches.filter s.mayDispatch) 0 = some []) ∧
    (let l := launch0 .ready; let s := stDisp [l] []
     s.launchOf 2 7 = some l ∧ recOp l.dw = 1 ∧ l.st ≠ .completing ∧ l.items.length < recTotal l.dw ∧ (∀ i ∈ l.items, i.st ≠ .dispatched) ∧
       l.idleFrom.toNat + 10000000 ≤ s.now.toNat) ∧
    (let s := stSwap { idleCtx with run := .run } []
     s.launchOf 2 8 = some launchSwap ∧ (0, 2, 8) ∉ s.swapReq ∧ s.mayswap launchSwap = true ∧ s.victimOk launchSwap 0 = true ∧
       (∀ r ∈ s.swapReq, r.1 ≠ 0 ∧ r.2 ≠ (2, 8)) ∧ s.pausedAt = none) ∧
    (let s := stSwap idleCtx [(0, 2, 8)]
     (0, 2, 8) ∈ s.swapReq ∧ (s.ctx 0).holds = true ∧ (s.ctx 0).run = .idle ∧ s.dispClk ≠ some s.clk ∧ s.mayDispatch launchSwap = true ∧
       s.inPlacement 0 = true ∧ s.fitsOn 0 launchSwap.cv3 = true ∧ launchSwap.nextGroup 0 = some 0 ∧ s.wheelFor launchSwap = some []) := by
  and_intros <;> decide +kernel

def stAns (e : FaultEntry) (x : Context) : State :=
  { (stLaunches [{ launch0 .running with items := [⟨0, .dispatched, 0⟩] }]) with faults := [e], ctxs := [(0, x)] }
theorem witness_AnswersAct :
    (let e := faultOf 0 0x0202 0 (some 0); let s := stAns e { ctx0 with run := .halt, job := some heldJob }
     s.faults.find? (fun e => e.q == 2 && e.rseq == some 0 && !e.dead) = some e ∧ e.src = .ctx (0 : CtxId).val ∧ e.r.state = 0 ∧ e.r.eng = 0 ∧
       (s.ctx 0).run = .halt ∧ (s.ctx 0).pend = false ∧ ¬ (e.r.code = 0x0204 ∧ e.r.det0.getLsbD 31 = true) ∧
       s.launchOf 2 e.r.lseq = some { launch0 .running with items := [⟨0, .dispatched, 0⟩] }) ∧
    ((faultOf 1 0x0302 0 (some 0)).r.eng = 1 ∧ (faultOf 2 0x0502 0 (some 0)).r.eng = 2 ∧ (faultOf 3 0x0401 0 (some 0)).r.eng = 3 ∧
      (∀ r ∈ (ctxCp).cp.runs, r.late = none) ∧ (faultOf 5 0x0702 0 (some 0)).r.eng = 5) ∧
    (let e : FaultEntry := { faultOf 6 0x0801 3 (some 0) with src := .queue 2 }; let s := { stQ (queue0 5 6) with faults := [e] }
     s.faults.find? (fun e => e.q == 2 && e.rseq == some 0 && !e.dead) = some e ∧ e.r.state = 3 ∧ e.r.code = 0x0801 ∧ s.admitted e = false ∧
       ∀ f ∈ s.faults.filter (· != e), ¬ (f.q = 2 ∧ f.r.state = 3)) ∧
    (∀ e, (stQ (queue0 5 6)).faults.find? (fun e => e.q == 2 && e.rseq == some 0 && !e.dead) = some e → ansOk e.r.state Ans.resume = false) ∧
    (∀ e, (stAns (faultOf 1 0x0302 1 (some 0)) ctx0).faults.find? (fun e => e.q == 2 && e.rseq == some 0 && !e.dead) = some e →
      ansOk e.r.state Ans.resume = false) := by
  refine ⟨?_, ?_, ?_, fun e h => absurd h (by simp [stQ, State.setQueue, State.reset]), fun e h => ?_⟩ <;> first | decide +kernel | skip
  have h' : (stAns (faultOf 1 0x0302 1 (some 0)) ctx0).faults.find? (fun e => e.q == 2 && e.rseq == some 0 && !e.dead) =
    some (faultOf 1 0x0302 1 (some 0)) := by decide +kernel
  rw [h'] at h; cases h; decide

/-- A launch that runs since time 0, with the watchdog on at 1, 2 and 3 µs. -/
def dogLaunch (fired : Nat) : Launch := { launch0 .running with items := [⟨0, .dispatched, 0⟩], tstart := some 0, fired := fired }
def stDog (fired : Nat) : State :=
  { stLaunches [dogLaunch fired] with timeU := 6000000 * 100000000 }.setQueue 2
    { queue0 5 6 with qwda := 0x0000000200000001, qwdb := 0x0000000100000003 }
def drain0 : Drain := ⟨3000, 2, 7, [5]⟩
def stPart (u : Part) : State := { stDog 2 with parts := [(0, u)] }
theorem witness_KillsResetsAndSelfTests :
    ((stDog 0).launchOf 2 7 = some (dogLaunch 0) ∧ stepIsDue (stDog 0) (dogLaunch 0) 0 ((stDog 0).queue 2).t1 0) ∧
    stepIsDue (stDog 1) (dogLaunch 1) 1 ((stDog 1).queue 2).t2 0 ∧ ((dogLaunch 1).st = .running ∧ (dogLaunch 1).finished = false) ∧
    ((launch0 .waiting).st ≠ .running ∧ (launch0 .waiting).st ≠ .completing ∧ (launch0 .waiting).finished = false) ∧
    (let u := { Part.reset with pclu := 1, drains := [drain0] }
     (stPart u).part 0 = u ∧ u.drains.find? (fun d => decide (d.due.toNat ≤ (stPart u).now.toNat)) = some drain0) ∧
    (let u := { Part.reset with pclu := 1, resetting := some 3000 }
     (stPart u).part 0 = u ∧ (stPart u).pausedAt = none ∧ u.timedOut = false ∧ (3000 : W64).toNat + 1000000 ≤ (stPart u).now.toNat) ∧
    ((stDog 0).slotReady 5 = true ∧ (0xC : BitVec 4) &&& ((stDog 0).core 5).slv ≠ 0 ∧ (0 : BitVec 4) &&& ((stDog 0).core 5).slv = 0 ∧
      ((stDog 0).core 5).lastTest.toNat + 100000000 ≤ (stDog 0).now.toNat ∧ ((stDog 0).core 5).testDue = false ∧ ((stDog 0).core 5).retired = false) := by
  and_intros <;> decide +kernel

/-! ### Time, service, registers -/

/-- An image with a key and a signature; and one whose key is no point of the curve. -/
def imgOf (image key sig : List Byte) : FwImage := ⟨image, key, sig, 5, 6, true, [(0, 3)]⟩
def imgBad : FwImage := imgOf [1] [] []
/-- The device with a fuse minimum raised to 5. -/
def stMin : State := { State.reset with minVer := some 5 }
theorem witness_DeviceTimeFollowsGptp :
    State.reset.everLocked = false ∧ (100 : W64).toNat - State.reset.now.toNat = 100 ∧
      { State.reset with lock := true, everLocked := true }.everLocked = true ∧ { State.reset with lock := true, everLocked := true }.lock = true := by
  decide +kernel
/-- The contents of the fuses are free: an image passes on a device whose slot 0 holds the digest of the key that signed it. -/
theorem copyOk_of {image key sig : List Byte} (h : (Config.fuseSlot 0).1 = sm3 key) (h' : (Config.fuseSlot 0).2 = false)
    (hs : sm2Verify key image sig = true) : copyOk stMin (imgOf image key sig) := ⟨h, h', hs, Nat.le_refl 5⟩
theorem not_copyOk : ¬ copyOk stMin imgBad := fun h => absurd h.2.2.1 (by decide +kernel)
theorem witness_ResetBootsAndBringsUp :
    (∀ image key sig, (Config.fuseSlot 0).1 = sm3 key → (Config.fuseSlot 0).2 = false → sm2Verify key image sig = true →
      copyOk stMin (imgOf image key sig)) ∧
    ¬ copyOk stMin imgBad ∧ stMin.phaseDev = 0 ∧ stMin.boot ≠ 7 ∧ { stMin with phaseDev := 1 }.phaseDev = 1 ∧
    (∃ a, (3, a) ∈ { stMin with ages := [(3, Age.reset)] }.ages) :=
  ⟨fun _ _ _ => copyOk_of, not_copyOk, rfl, by decide, rfl, ⟨_, List.mem_singleton.mpr rfl⟩⟩

/-- A core with three corrected errors of its slice 1 and its pool in the window, and a channel with three. -/
def errCore : Core := { Core.reset with errs := [(1, 0), (1, 0), (1, 0), (6, 0), (6, 0), (6, 0)] }
def stErr : State := { stDisp [{ launch0 .running with items := [⟨0, .discarded, 0⟩] }] [(0, idleCtx)] with
  cores := [(0, { errCore with retired := true }), (5, errCore)], channels := [(3, { Channel.reset with errs := [0, 0, 0] })], timeU := 0, remap := [] }
theorem witness_LastingFaultsRetireUnits :
    coreUnit (.slice 5 1) = some (5, 1) ∧ coreUnit (.pool 5) = some (5, 6) ∧ (stErr.core 5).winMax.getD 1 0 < 4 ∧ windowOf stErr 5 1 = 3 ∧
      windowOf stErr 5 6 = 3 ∧ windowOf stErr 5 2 = 0 ∧ (stErr.channel 3).winMax < 4 ∧ stErr.remap = [] ∧
      ((stErr.channel 3).errs.filter fun v => decide (stErr.now.toNat < v.toNat + 1000000000)).length = 3 ∧
      (∀ p ∈ stErr.channels, p.2.ret = false) ∧
    (stErr.waitsHere 0 = some idleCtx ∧ (stErr.core (0 : CtxId).core).retired = true ∧ stErr.freeCtx 2 = true ∧ (∀ p ∈ stErr.swapped, p.1 ≠ 2) ∧
      stErr.inPlacement (2 : CtxId).core = true ∧ (0 : CtxId).cluster = (2 : CtxId).cluster ∧ (0 : CtxId).bg = (2 : CtxId).bg ∧
      stErr.fitsOn 2 idleCtx.heldCv3 = true) ∧
    (3 : Fin 16).val ∈ { stErr with remap := [5, 3] }.remap ∧
    ((0 : CtxId).core = (0 : CoreId).val ∧ (stErr.ctx 0).holds = true) := by
  and_intros <;> decide +kernel

theorem witness_ThermalReliefAndAgeing :
    State.reset.mxcapNow ≠ 0 ∧ { State.reset with mxcap := 0 }.mxcapNow = 0 ∧ State.reset.clkStepNew.getD State.reset.clkStep ≠ 3 ∧
    (let s := { State.reset with coolFrom := some 0, relief := true, timeU := 6000000 * 1000000000, mxcap := 0xFE }
     s.coolFrom = some 0 ∧ (0 : W64).toNat + 1000000000 ≤ s.now.toNat ∧ s.relief = true ∧ s.clkStepNew.getD s.clkStep = 0 ∧
       (s.clkStepNew.getD s.clkStep).toNat ≤ s.clkStepCfg.toNat ∧ s.mxcapNow.toNat / 4 ^ 0 % 4 < s.mxcapCfg.toNat / 4 ^ 0 % 4) ∧
    (let s := { State.reset with clkStepNew := some 2, clkStepCfg := 1 }; s.clkStepCfg.toNat < (s.clkStepNew.getD s.clkStep).toNat) ∧
    { State.reset with clkStepNew := some 2 }.clkStepNew = some 2 ∧ (0x8000 : BitVec 16).toInt < (State.reset.age 3).limit.toInt ∧
    (State.reset.age 3).fresh = true := by
  and_intros <;> decide +kernel

theorem witness_FirmwareCommandsAct :
    (stMin.cmdst = 1 → stMin.sby = 1) ∧ ¬ (copyOk stMin imgBad ∧ true = true) ∧
    (∀ image key sig, (Config.fuseSlot 0).1 = sm3 key → (Config.fuseSlot 0).2 = false → sm2Verify key image sig = true →
      copyOk stMin (imgOf image key sig)) ∧
    (let s := { stMin with newImg := some imgBad, sby := 3 }; s.newImg = some imgBad ∧ s.sby = 3 ∧ s.fwQuiet = true ∧ imgBad.raiseMin = true) ∧
    (let s := { stMin with fwbufN := 1, fwbufA := 0x400000 }
     s.cmdst ≠ 1 ∧ 0x400000 = s.fwbufA.toNat ∧ rangeInDevice 0x400000 (4096 * s.fwbufN.toNat) = true ∧ 1 ≤ s.fwbufN.toNat) ∧
    (∀ i, { stMin with fwbufN := 1, fwbufA := 0x400000 }.inSlot (0x400000 + i) = false) ∧
    { stMin with cmdst := 1 }.cmdst = 1 ∧ (List.replicate 32 (7 : Byte)).length = 32 := by
  refine ⟨?_, fun h => not_copyOk h.1, fun _ _ _ => copyOk_of, ?_, ?_, fun i => rfl, ?_, ?_⟩ <;> decide +kernel

theorem witness_RegistersReadAndWrite :
    State.reset.phaseDev ≠ 3 ∧ (0x00010010 : Nat) ∈ (regRows State.reset 0 0 0 0 0 0).map Prod.fst ∧ (255 : W64).toNat < 256 ∧
      (0xC002000000000031 : W64) &&& 0x0FF000F8FFFFFF88 = 0 ∧
      (bitsOf (0xC002000000000031 : W64).toNat 47 40 ≤ 192 ∧ bitsOf (0xC002000000000031 : W64).toNat 2 0 ≤ bitsOf (0xC002000000000031 : W64).toNat 6 4) ∧
      bitsOf (0xC002000000000012 : W64).toNat 6 4 < bitsOf (0xC002000000000012 : W64).toNat 2 0 := by
  and_intros <;> decide +kernel

/-- The last 2 MiB of the granary window readable and writable, and a staging buffer of one page. -/
def stHost : State := { State.reset with hostMap := [((0x10000000000 + 0x2FFFFF00) / 2 ^ 21, 3)], stageN := 1, stageA := 0x400000 }
theorem witness_HostAndUsbAccess :
    stHost.phaseDev ≠ 3 ∧ barNames .bar2 0x2FFFFF00 0x1002FFFFF00 ∧ 0x2FFFFF00 + 256 ≤ 0x30000000 ∧ granted stHost 0x1002FFFFF00 256 false ∧
      granted stHost 0x1002FFFFF00 256 true ∧ ¬ granted State.reset 0x1002FFFFF00 1 false ∧ ¬ granted State.reset 0x1002FFFFF00 1 true ∧
      (∀ i < 256, stHost.inSlot (0x1002FFFFF00 + i) = false ∧ stHost.inQueue (0x1002FFFFF00 + i) = false) ∧
      stHost.stageN.toNat ≤ (1 : BitVec 16).toNat ∧ (0 : BitVec 16).toNat < stHost.stageN.toNat ∧ rangeInDevice 0x400000 4096 = true := by
  and_intros <;> decide +kernel

/-! ### Encoding, steps -/

theorem witness_DecodeAndEncodeAgree :
    (Instr.add 3 4 5).wf = true ∧ encode (.add 3 4 5) = some (.sq32, 0x000A41C0) ∧ decode .sq32 0x000A41C0 = some (.add 3 4 5) ∧
      decode .slotD 0 = some .exNop := by
  and_intros <;> decide +kernel

/-- The device about to fetch `add s3, s4, s5`, and about to fetch a word that is no instruction. -/
def stStep (w : Nat) : State := st0.withFetchWord 32 w
theorem witness_StepRunsTheDecodedInstruction :
    (let s := stStep 0x000A41C0
     s.agenda = [] ∧ s.phase = 0 ∧ turnOpen s ∧ (cur s).pc.toNat % 4 = 0 ∧ decodeSeqBytes (memRead s.mem (cur s).pc.toNat 8) = some (.add 3 4 5, 4) ∧
       (cur s).inCode (cur s).pc.toNat 4 = true) ∧
    (let s := st0.withFetchWord 32 0x014061B8
     turnOpen s ∧ s.phase = 3 ∧ decodeSeqBytes (memRead s.mem (cur s).pc.toNat 8) = some (.semwait 3 6, 4)) ∧
    (let s := { State.reset with agenda := [.ev .holdoverEntry] }
     s.agenda = .ev .holdoverEntry :: [] ∧ Instr.holdoverEntry.wf = true ∧ (encode .holdoverEntry).isNone = true) ∧
    ({ State.reset with phase := 7 }.agenda = [] ∧ { State.reset with phase := 7 }.phase = 7) ∧ State.reset.acted = [] ∧
    (let m : State := { State.reset with agenda := [] }; m.evActor .holdoverEntry = none ∧ m.evActor (.blockStart 0) = some (.ev 0, 1)) ∧
    { State.reset with agenda := [.clock] }.agenda = .clock :: [] ∧
    (let s := stStep 0xFFFFFFFE
     turnOpen s ∧ decodeSeqBytes (memRead s.mem (cur s).pc.toNat 8) = none ∧ (cur s).inCode (cur s).pc.toNat 8 = true) := by
  and_intros <;> decide +kernel

/-- An engine's word at the head of its queue. -/
def wordOf (i : Instr) : BitVec 256 := BitVec.ofNat 256 ((encode i).getD (.mx, 0)).2
def stMxGo : State := onFocus { ctxMx [] with mxq := [⟨4, wordOf (.msem mxTail)⟩] }
def stCpGo : State := onFocus { ctxCp with cpq := [⟨0, wordOf (.cmpl tailCw)⟩] }
theorem witness_EnginesRunWhatTheyDecode :
    stMxGo.serves stMxGo.focus = true ∧
    ((stMxGo.ctx 0).mxHead.bind fun e => decode .mx e.w.toNat) = some (.msem mxTail) ∧
    (((stCpGo.cpWork 0).ctx 0).cpHead.bind fun e => decode .cp e.w.toNat) = some (.cmpl tailCw) ∧
    ((stLine proc0).serves 0 = true ∧ (stLine proc0).lnWord = some 0 ∧ decode .ln (0 : W64).toNat = some .lnNop) ∧
    (bundleInstrs block0.bundle = [some .exNop, some .exNop, some .exNop, some .exNop] ∧ stEx.exFreezes stEx.focus .exNop = false) := by
  and_intros <;> decide +kernel
theorem nop_runs : ∃ t, exec .exNop stEx = .next t ∧ t.faults = stEx.faults := ⟨_, rfl, rfl⟩

theorem witness_StepsKeepMemoryCanonical :
    Memory.wf (stStep 0x000A41C0).mem = true ∧ (match step (stStep 0x000A41C0) with | .next t => Memory.wf t.mem | _ => false) = true := by
  decide +kernel
theorem witness_DeviceTimeNeverGoesBack :
    timeSound State.reset ∧ (∀ i j, State.reset.agenda.head? ≠ some (.ev (.deviceReset i j))) ∧
      (match step { State.reset with phase := 7 } with | .next t => decide (0 < t.timeU ∧ t.clk = 1) | _ => false) = true :=
  ⟨by decide +kernel, by simp [State.reset], by decide +kernel⟩

/-! ## Witnesses of further clauses -/

/-- The second port wrote byte 0x703 in this clock, where an in-flight plane write will write byte 0x700; and a write held behind it. -/
def heldOp : InFlight := { InFlight.start 3 with bytes := [(0x703, 9)], hold := true }
def ctxHeld (pipe : List InFlight) : Context := { ctxEx with
  note := { ctxEx.note with clk := 5, prior := [(0x703, 1)], second := [(0x703, .cp 7)] }, cp := { ctxEx.cp with runs := [{ run0 with num := 7 }] }, ex := { ctxEx.ex with pipe := pipe, held := [⟨0x705, 4, .cp 7⟩] } }
theorem witness_PlaneWritesClaimBlocks :
    heldOp.hold = true ∧ (0x703, (9 : Byte)) ∈ heldOp.bytes ∧ (0x703, (1 : Byte)) ∈ ((ctxHeld []).noteAt 5).prior ∧
      0x703 ∉ ((ctxHeld []).noteAt 5).exw ∧ (∀ c ∈ ((ctxHeld []).noteAt 5).prior, c.1 = 0x703 → c.2 = 1) ∧ ((ctxHeld []).noteAt 6).prior = [] ∧
      ((ctxHeld []).noteAt 5).second.find? (fun c => c.1 == 0x703) = some (0x703, .cp 7) := by
  decide +kernel
theorem witness_HeldWritesLand :
    (⟨0x705, 4, .cp 7⟩ : HeldWrite) ∈ (ctxHeld []).ex.held ∧ (∀ g ∈ (ctxHeld []).ex.held, g.addr = 0x705 → g.byte = 4) ∧
      (∀ g ∈ (ctxHeld []).ex.held, g.addr / 64 = 0x705 / 64 → (ctxHeld []).heldByte g.addr = false) ∧
      (ctxHeld []).cp.runs[0]? = some { run0 with num := 7 } ∧
      ∃ g ∈ (ctxHeld [{ heldOp with bytes := [(0x705, 9)] }]).ex.held, g.addr / 64 = 0x705 / 64 ∧
        (ctxHeld [{ heldOp with bytes := [(0x705, 9)] }]).heldByte g.addr = true := by
  decide +kernel

theorem witness_FloatOrderResults :
    0x3F800000 < 2 ^ (1 + fp32.eb + fp32.mb) ∧ ((fp32.dec 0x7FC00000).isNaN || (fp32.dec 0).isNaN) = true ∧
      ((bf16.dec 0x3F80).isNaN || (bf16.dec 0x4000).isNaN) = false := by
  decide +kernel
/-- Signed zeros are in order, and an infinity is above a number. -/
theorem below0_zeros : below0 (.fin true 0 0) (.fin false 0 0) ∧ below (.fin false 1 0) (.inf false) :=
  ⟨Or.inr ⟨⟨_, _, _, rfl⟩, ⟨_, _, _, rfl⟩, by simp [ratio], by simp [ratio], rfl, rfl⟩, trivial⟩
theorem witness_FloatArithmeticIsExact :
    (∃ n m e, fp32.dec 0x3F800000 = .fin n m e) ∧ sumSpecial fp32 (.inf true) (.inf false) = some (nanResult fp32 true) ∧
      productSpecial bf16 (.inf true) (.fin false 0 3) = some (nanResult bf16 true) ∧
      fmaSpecial fp32 (.fin true 0 0) (.inf false) (.nan false) = some (nanResult fp32 true) := by
  refine ⟨⟨_, _, _, rfl⟩, rfl, rfl, rfl⟩
theorem witness_FloatEncodings :
    fp8 ∈ [fp32, bf16, fp8] ∧ 0xFF < 2 ^ (1 + fp8.eb + fp8.mb) ∧ 0xFF / 2 ^ fp8.mb % 2 ^ fp8.eb = 15 ∧ 0xFF % 2 ^ fp8.mb = 7 ∧
      0x7F80 / 2 ^ bf16.mb % 2 ^ bf16.eb = 2 ^ bf16.eb - 1 ∧ 0x0001 / 2 ^ bf16.mb % 2 ^ bf16.eb = 0 ∧ fp32 ≠ fp8 := by
  decide +kernel
theorem witness_ConversionsRoundOnce :
    (0x11 : Nat) ≠ 0x10 ∧ floatOf 0x10 = some bf16 ∧ decVal 0x11 0x7FC00000 = .nan false ∧ 0x7FC0 < 2 ^ (1 + bf16.eb + bf16.mb) := by
  decide +kernel
theorem witness_InterpolationValues :
    (∃ n m e, bf16.dec 0x3F80 = .fin n m e) ∧ (bf16.dec 0x3F80).isNaN = false ∧ (bf16.dec (0x7FC03F80 / 65536)).isNaN = true ∧
      ((bf16.dec (0x3F803F80 / 65536)).isNaN || (bf16.dec (0x3F803F80 % 65536)).isNaN) = false :=
  ⟨⟨_, _, _, rfl⟩, by decide +kernel, by decide +kernel, by decide +kernel⟩
theorem witness_AccumulatorSums :
    (5 : Int) ≠ 0 ∧ 0x3F800000 < 2 ^ 32 ∧ fp32.dec 0xFF800000 = .inf true ∧ fp32.dec 0x7F800001 = .nan true ∧
      [(0x7F800000, false), (0x3F800000, true)] ≠ [] ∧
      FVal.inf false ∈ [(0x7F800000, false), (0x3F800000, true)].map (fun p : Nat × Bool => if p.2 then (fp32.dec p.1).neg else fp32.dec p.1) ∧
      (∀ v ∈ [(0x7F800000, false), (0x7F800000, true)].map (fun p : Nat × Bool => if p.2 then (fp32.dec p.1).neg else fp32.dec p.1), v.isNaN = false) := by
  decide +kernel

/-- Empty and full ports, a full feedback queue. -/
def stFrozen : State := onFocus { ctxEx with
  ports := (ctxEx.ports.set 1 ⟨some false, true, [], 0, 2, 0x8000⟩).set 2 ⟨some true, true, [⟨List.replicate 256 7, 64, 0⟩], 0, 1, 0x8200⟩
  fb := List.replicate 16 (0, 0) }
def exInFz : ExIn := ⟨0, cur stFrozen, job0, block0, 0⟩
theorem witness_FrozenClocksCountSlips :
    slotReads stFrozen exInFz ∧ ((cur stFrozen).port 1).dir ≠ some true ∧ ((cur stFrozen).port 1).supply stFrozen.clk < 64 ∧
      ((cur stFrozen).port 1).supply stFrozen.clk < (maskLanes (exInFz.mask 1)).length ∧ ((cur stFrozen).port 0).dir = none ∧
      ((cur stFrozen).port 2).dir = some true ∧ ((cur stFrozen).port 2).depth ≤ ((cur stFrozen).port 2).entries.length ∧
      maskLanes (exInFz.mask 1) ≠ [] ∧ ((cur stFrozen).port 1).supply stFrozen.clk = 0 ∧ semOf (cur stFrozen) 3 < (1 : BitVec 14).toNat ∧
      (cur stFrozen).run ≠ .done ∧ 16 ≤ (cur stFrozen).fb.length := by
  decide +kernel
theorem witness_SecondBlockIsFetched :
    let x : Context := { ctx0 with exq := [⟨1, Vector.replicate 8 0⟩, ⟨0, Vector.replicate 8 0⟩], ex := { ExState.reset with buffer := [⟨1, [0]⟩] } }
    x.job = some job0 ∧ x.exq = ⟨1, Vector.replicate 8 0⟩ :: ⟨0, Vector.replicate 8 0⟩ :: [] ∧ (⟨1, [0]⟩ : BlockBuf) ∈ x.ex.buffer ∧
      ∀ v ∈ x.ex.buffer, v.blk ≠ 0 := by
  decide +kernel
theorem witness_SwapRetires :
    let o : InFlight := { InFlight.start 0 with swap := some 2 }
    o.swap = some 2 ∧ ({ ctxEx with ex := { ctxEx.ex with pipe := [o] } } : Context).banks[2]? = some Bank.reset ∧
      ({ ctxEx with ex := { ctxEx.ex with pipe := [o] } } : Context).banks[3]? = some Bank.reset := by
  decide +kernel

/-- A block whose slot B is no operation, and one with a counter active. -/
def blockBad : RunBlock := { block0 with bundles := [BitVec.ofNat 128 (2 ^ 32 * 0xFE000000)] }
def blockLoop : RunBlock := { block0 with lc := [⟨true, 2, 0, 1⟩, ⟨false, 0, 0, 0⟩, ⟨false, 0, 0, 0⟩, ⟨false, 0, 0, 0⟩] }
/-- A valid count of 0 in every bank and table, ports of either direction, invalid scale bytes in view 3. -/
def stExBad : State := onFocus { ctxEx with
  ports := (ctxEx.ports.set 1 ⟨some false, true, [], 0, 2, 0x8000⟩).set 2 ⟨some true, true, [], 0, 1, 0x8200⟩
  pool := memPutNat [] (exIn0.addr 3) 4 0xFFFFFFFF }
def exInBad : ExIn := ⟨0, cur stExBad, job0, block0, 0⟩
theorem witness_ViewRows :
    ((viewRow exIn0 (.vmov ⟨1, 8, 6, 0, false⟩)).map fun l => decide (l = [8, 6])) = some true ∧ ¬ viewsOk exIn0 [8, 6] := by
  decide +kernel
/-- Slot D waits for a semaphore of a halted matrix engine, and for a port whose binding a halted copy engine runs on. -/
theorem witness_SupplyOfASlot :
    supplyHalted { ctxEx with mxq := [⟨0, BitVec.ofNat 256 ((encode (.msem ⟨1, 0, 0, 0, 0⟩)).getD (.mx, 0)).2⟩], mx := { ctxEx.mx with halted := true } }
      (.semw ⟨0, 0, 1, false⟩) ∧
    supplyGoesOn { ctx0 with cp := { ctx0.cp with binds := [bound1], runs := [run0], halted := true } } (.vpop popForm) :=
  ⟨Or.inr (Or.inr (Or.inl ⟨_, rfl, by decide +kernel, rfl⟩)), Or.inr ⟨rfl, 1, bound1, run0, rfl, by decide +kernel, by decide +kernel⟩⟩
theorem witness_OtherExecuteFaults :
    illegalSlot (bundleInstrs blockBad.bundle) 0 = some 1 ∧
    (loopBreaks blockLoop 0 1 ∧ blockLoop.lc.length = 4) ∧
    slotReads stExBad exInBad ∧ ((cur stExBad).port 2).dir = some true ∧ ((cur stExBad).port 1).dir = some false ∧
      exInBad.b.loopBad 0 1 = false ∧
      (∃ f n w idx val, expandRow (.vcbxBf cbForm) = some (f, n, w, idx, val) ∧ 0 < n ∧ maskBit exInBad f.q (0 * 64 / n) ∧
        (exInBad.x.frontSide exInBad.clk (f.b.toNat % 4)).2 = 0) ∧
      (maskBit exInBad 1 0 ∧ scaleOf exInBad 3 0 = 0xFF) ∧
      (maskBit exInBad 1 (0 / 2) ∧ (bf16.dec (elem exInBad 6 2 0)).isNaN = false ∧ (exInBad.x.tables.getD 2 ITable.reset).valid ≤ itpIndex (bf16.dec (elem exInBad 6 2 0))) :=
  by
    refine ⟨by decide +kernel, ⟨Or.inl ⟨⟨true, 2, 0, 1⟩, rfl, rfl⟩, rfl⟩, ?_⟩
    and_intros <;> first | decide +kernel | exact ⟨_, _, _, _, _, rfl, by decide, by decide +kernel, by decide +kernel⟩

/-! ### Faults of commands as they would begin -/

def stCpBad : State := onFocus { ctxCp with cp := { ctxCp.cp with ckrm := 1 } }
def copyBadAddr : CopyForm := { copyForm with src := 0x100000, t := { noTail with spool := true } }
def copyOff : CopyForm := { copyForm with src := 0x2000000000 }
def unpackBad (rmax : BitVec 4) (fbuf : Byte) : UnpackForm := { unpackForm with rmax := rmax, fbuf := fbuf }
/-- A pattern with runs of one byte, which no element of two fits. -/
def stPat : State := onFocus { ctxCp with cp := { ctxCp.cp with pats := ctxCp.cp.pats.set 0 ⟨1, 4, 1, 1, 0, 0, 0⟩ } }
def bindOdd : BindForm := { bindForm with pat := 0, raw := false, efmt := 0x09, out := false }
/-- The same with runs of two bytes. -/
def stPat2 : State := onFocus { ctxCp with cp := { ctxCp.cp with pats := ctxCp.cp.pats.set 0 ⟨2, 4, 1, 1, 2, 0, 0⟩ } }
theorem witness_CopyCommandFaults :
    (cpNext stCp cpEntry copyBadAddr.t ∧ ¬ poolAddrs copyBadAddr.t copyBadAddr.src copyBadAddr.dst ∧
      (cur stCp).cpClash (moveItems copyBadAddr.t 1 1 [(0x100000, 256)] [(0xFFFF00, 256)]) = false) ∧
    (¬ formatsOk true 0x1F 0x10 ∧ cpNext stCp cpEntry { noTail with ckm := 3 }) ∧
    (cpNext stCpBad cpEntry { noTail with chain := true, ckm := 2 } ∧ (cur stCpBad).cp.ckrm ≠ 2) ∧
    countBad 6 (moveUnits true 0x11 0x10).1 (moveUnits true 0x11 0x10).2 = true ∧
    (cpNext stCp cpEntry copyOff.t ∧ countBad copyOff.len.toNat (moveUnits false 0 0).1 (moveUnits false 0 0).2 = false ∧
      (stCp.itemsFault (cur stCp) (moveItems copyOff.t 1 1 [(0x2000000000, 256)] [(0xFFFF00, 256)])).isSome = true) ∧
    (256 < { cbldForm with count := 257 }.count.toNat ∧ (∀ r ∈ (cur stCp).mx.runs, ((1 : Nat), true) ∉ r.reads) ∧
      (cur stCp).frontOf stCp.clk 1 = { cbldForm with side := false }.side ∧
      (cur stCp).cpClash (itemsOf false false 2 false [(0x2000, 2 * 257)] ++ tailItems tail0) = false) ∧
    (256 < { itldForm with count := 257 }.count.toNat ∧ (cur stCp).cpClash (itemsOf false false 4 false [(0x2000, 4 * 257)] ++ tailItems tail0) = false) ∧
    (cpMay stCp cpEntry noTail ∧ noTail.cw = false) ∧
    ((unpackBad 9 4).rmax.toNat = 9 ∧ (unpackBad 1 255).rmax.toNat = 1 ∧ (cur stCp).bufferOk ((unpackBad 1 255).fbuf.toNat * 4096) 8192 = false ∧
      (cur stCp).cpClash (⟨true, 255 * 4096, 8192, true, 1, true⟩ :: (itemsOf false false 1 false [(0x2000, 16)] ++ tailItems tail0)) = false) ∧
    (bindReason { bindForm with raw := false, efmt := 0x1F } ≠ none ∧ ((cur stPat).port 1).bound = false ∧ (cur stPat).cp.binds.length < 8 ∧
      (cpMay stPat2 cpEntry (bindCvt false).t ∧ bindReason (bindCvt false) = none ∧
        (∀ ch, bindChain (bindCvt false) = some ch → ((cur stPat2).pat (bindCvt false).pat).run % (bindSizes (bindCvt false) ch.2).1 = 0) ∧
        (cur stPat2).bufferOk (256 * (bindCvt false).buf.toNat) (256 * ((bindCvt false).depthM1.toNat + 1)) = true ∧
        (stPat2.itemsFault (cur stPat2) (bindItems stPat2 { bindCvt false with addr := 0x2001 })).isSome = true) ∧
      bindReason bindOdd = none ∧ (∃ ch, bindChain bindOdd = some ch ∧ ((cur stPat).pat bindOdd.pat).run % (bindSizes bindOdd ch.2).1 ≠ 0)) :=
  by and_intros <;> decide +kernel

/-! ### Matrix commands -/

/-- A drain to BP8 planes. -/
def drainPlanes : W64 := 0x08000000
/-- Two members of a crier group at the end of their setup, the sender in context 0. -/
def crierRun (bsel : BitVec 2) (num : W32) : MxRun := { bareRun (.mmul (crierForm bsel 5)) 64 32 with num := num, group := [0, 2] }
def stGroup (due : Nat) : State :=
  (onFocus { ctxMx [] with mx := { MxState.reset with runs := [crierRun 2 4] } }).setCtx 2
    { ctxMx [] with mx := { MxState.reset with runs := [{ crierRun 1 4 with due := due }] } }
/-- A group in compute. -/
theorem witness_OperandReadsRefused :
    let r : MxRun := { crierRun 2 4 with stage := .compute, due := 9 }
    let s : State := onFocus { ctxMx [] with mx := { MxState.reset with runs := [r] } }
    ((0 : CtxId).val, s.ctx 0) ∈ s.ctxs ∧ (s.ctx 0).mx.runs = [r] ∧ r.stage = .compute ∧ s.clk < r.due ∧ r.i = multiply false (crierForm 2 5) := by
  and_intros <;> decide +kernel
theorem witness_GroupsComputeTogether :
    (let s := stGroup 0
     let l := s.groupRuns (crierRun 2 4).group
     (s.ctx 0).mxSetup = some (crierRun 2 4) ∧ (crierRun 2 4).group ≠ [] ∧ l.length = (crierRun 2 4).group.length ∧ (l.map Prod.fst).Nodup ∧
       (∀ m ∈ l, m.2.due ≤ s.clk ∧ (∀ v ∈ (s.ctx m.1).mx.runs, v.stage ≠ .compute) ∧ 1 ≤ m.2.fold) ∧
       l.filter (fun m => isSender m.2.i) = [(0, crierRun 2 4)] ∧ (crierForm 1 5).bsel ≠ 0 ∧ (crierForm 1 5).kbm1 = (crierForm 2 5).kbm1) ∧
    (let s := stGroup 1; ∃ m ∈ s.groupRuns (crierRun 2 4).group, s.clk < m.2.due) ∧
    fmtIsPlane (fwOfmt drainPlanes) = true ∧ drainWordOk drainPlanes = true ∧ drainWordOk drainWord = true := by
  decide +kernel
theorem witness_CrierAwaitsMember :
    let s := onFocus (crierCtx 2 5)
    ((crierSet 0 3).filterMap s.crier).length < (crierSet 0 3).length ∧
      ((s.crier 0).map fun m => decide (m.f.cmask = 3 ∧ (m.early s).isNone = true ∧ (m.late s).isNone = true)) = some true := by
  decide +kernel

def mulAt (bop aop : BitVec 9) (acc : Byte) : MulForm := { mulForm with bop := bop, aop := aop, acc := acc }
abbrev nextFor (fw : W64) (f : MulForm) : Prop := mxNext (stMx [fw]) mxE job1 (planOf (stMx [fw]) f 1 job1)
/-- The pool full of 0xFF at 0x18000. -/
def stScales (fw : W64) : State := onFocus { ctxMx [fw] with pool := memWrite [] 0x18000 (List.replicate 256 0xFF) }
def mulScaled : MulForm := { mulAt 15 0 0 with asca := 0x18000, bsca := 0x18040 }
theorem witness_MatrixBeginFaults :
    (mxNext (stMx []) mxE job1 (planOf (stMx []) mulForm 2 job1) ∧ (cur (stMx [])).fq = []) ∧
    (nextFor 1 (mulAt 15 0 0) ∧ mulWordOk (2 ^ 63) = false ∧ mulWordOk 0 = true) ∧
    (nextFor 0 (mulAt 15 16 0) ∧ job1.k.mn ≤ 16 + (32 * 1 * (infoA 0).stride - 1) / 2048) ∧
    (nextFor 0 (mulAt 16 0 0) ∧ job1.k.mn ≤ 16 + (32 * 1 * (infoB 0).stride - 1) / 2048) ∧
    (nextFor 0 (mulAt 15 0 2) ∧ job1.k.an ≤ 2) ∧ (nextFor 0 (mulAt 15 0 1) ∧ fwMode 0 = false ∧ job1.k.an = 1 + 1) ∧
    (nextFor 0 (mulAt 0 0 0) ∧ (∀ u ∈ (planOf (stMx [0]) (mulAt 0 0 0) 1 job1).chk, poolFault job1.cv1 job1.cv2 job1.cv3 pathMX u.1 u.2.1 = none ∧
      u.1 % u.2.2.2 = 0) ∧ 2048 * (job1.k.mbase + 0) / 2 ^ 14 % 4 = 2048 * (job1.k.mbase + 0) / 2 ^ 14 % 4) ∧
    (mxEarly (cur (stMx [0x13])) job1 (planOf (stMx [0x13]) (mulAt 15 0 0) 1 job1) = none ∧
      indexFails (stMx [0x13]) (infoA 0x13) (fwAcbk 0x13) (2048 * (job1.k.mbase + 0), 32) 0) ∧
    indicesOk (stMx [0]) (infoA 0) 0 (2048 * job1.k.mbase, 32) ∧
    (let fw : W64 := 0x104000000
     mxNext (stScales fw) mxE job1 (planOf (stScales fw) mulScaled 1 job1) ∧ mxEarly (cur (stScales fw)) job1 (planOf (stScales fw) mulScaled 1 job1) = none ∧
       fwAsc fw = true ∧ firstBad ((cur (stScales fw)).poolGet 0 0x18000 32) 0) ∧
    (mxNext (stMx [drainWord]) mxE job1 drainPlan ∧ drainWordOk 1 = false ∧ firstBad [0, 0xFF] 1) :=
  by and_intros <;> first | decide +kernel | exact fun _ _ _ => Nat.zero_le _ | exact fun h => absurd rfl h

/-! ### Alignment commands, mill records, the scheduler -/

/-- Rules with exactly the defect of each check of R343. -/
def ruleBad (k : Nat) : Rule :=
  match k with
  | 1 => { rule0 with members := [none, some 0, some 5] ++ List.replicate 13 none }
  | 2 => { rule0 with members := [some 5, some 5] ++ List.replicate 14 none }
  | 3 => { rule0 with refpos := 2 }
  | 4 => { rule0 with dead := 0 }
  | 5 => { rule0 with cntSet := false }
  | _ => { rule0 with cnt := 0x10000000FFC }
theorem shifted_members : ¬ ∃ (ms : List Nat) (n : Nat), (ruleBad 1).members = ms.map some ++ List.replicate n none := by
  rintro ⟨ms, n, h⟩
  cases ms with
  | cons a l => cases h
  | nil => have := congrArg (·[1]?) h; simp [ruleBad, List.getElem?_replicate] at this
theorem packed_members : ∀ k, 2 ≤ k → k ≤ 6 → ¬ defect (ruleBad k) 1
  | 2, _, _ => by
    rintro (h | h | h)
    · exact h ⟨[5, 5], 14, rfl⟩
    · exact absurd (h.1 (some 5) (by decide)) (by decide)
    · exact absurd h.2 (by decide)
  | 3, _, _ | 4, _, _ | 5, _, _ | 6, _, _ => by
    rintro (h | h | h)
    · exact h ⟨[0, 5], 14, rfl⟩
    · exact absurd (h.1 (some 5) (by decide)) (by decide)
    · exact absurd h.2 (by decide)
  | 0, h, _ | 1, h, _ => absurd h (by decide)
  | _ + 7, _, h => absurd h (by omega)
theorem witness_EachCheckFailsAlone :
    defect (ruleBad 1) 1 ∧ defect (ruleBad 2) 2 ∧ (ruleBad 2).streams.count 5 = 2 ∧
    (defect (ruleBad 3) 3 ∧ ¬ defect (ruleBad 3) 2) ∧ (defect (ruleBad 4) 4 ∧ ¬ defect (ruleBad 4) 2 ∧ ¬ defect (ruleBad 4) 3) ∧
    (defect (ruleBad 5) 5 ∧ ¬ defect (ruleBad 5) 2 ∧ ¬ defect (ruleBad 5) 3 ∧ ¬ defect (ruleBad 5) 4) ∧
    (defect (ruleBad 6) 6 ∧ ¬ defect (ruleBad 6) 2 ∧ ¬ defect (ruleBad 6) 3 ∧ ¬ defect (ruleBad 6) 4 ∧ ¬ defect (ruleBad 6) 5) := by
  refine ⟨Or.inl shifted_members, ?_, by decide, ?_, ?_, ?_, ?_⟩ <;> (simp only [defect]; decide)
/-- The work item of the alignment tests with leases, and a read-only range over the ring of rule 63. -/
def stFarm (ls : List Lease) (ro : List RoRange) : State := { (stRule rule0).setCtx 0 { ctx0 with job := some { job0 with leases := ls } } with ro := ro }
/-- The ring of rule 63 leased whole, and its counter's page read only. -/
def ringLease (w : Bool) : List Lease := [⟨0x10000000000, 1, true, true⟩, ⟨0x10000001000, 1, w, true⟩]
theorem witness_ArmingFaults :
    (let s := stFarm [] []; s.rule 63 = rule0 ∧ s.granted 63 = true ∧ (leaseFault (cur s).leases false true rule0.ring.toNat (1024 * rule0.nrec)).isSome = true) ∧
    (let s := stFarm (ringLease false) []
     leaseFault (cur s).leases false true rule0.ring.toNat (1024 * rule0.nrec) = none ∧ leaseFault (cur s).leases false true rule0.cnt.toNat 4 = some 0x10000001000) ∧
    (let s := stFarm (ringLease true) [⟨0x10000000800, 4⟩]
     leaseFault (cur s).leases false true rule0.ring.toNat (1024 * rule0.nrec) = none ∧ leaseFault (cur s).leases false true rule0.cnt.toNat 4 = none ∧
       roFault s.ro rule0.ring.toNat (1024 * rule0.nrec) = some 0x10000000800) ∧
    (let s := stFarm (ringLease true) [⟨0x10000001000, 4⟩]
     roFault s.ro rule0.ring.toNat (1024 * rule0.nrec) = none ∧ roFault s.ro rule0.cnt.toNat 4 = some 0x10000001000) ∧
    roFault (stFarm (ringLease true) []).ro rule0.cnt.toNat 4 = none ∧
    regionOf (0x2000000000 : Addr).toNat = none ∧ regionOf (0x1FFFFFFC00 : Addr).toNat = some (.dram, 0x2000000000) ∧
      (0x2000000000 : Nat) < 0x1FFFFFFC00 + 2048 ∧ regionOf (0x1002FFFFC00 : Addr).toNat = some (.granary, 0x10030000000) ∧ 0x1002FFFFA00 % 1024 ≠ 0 := by
  and_intros <;> decide +kernel

/-- Rule 63 with a match open whose deadline the last tick passed: device time runs a microsecond a clock from clock 2. -/
def stPast : State := { State.reset with rules := [(63, { ruleOpen with dlAt := none })], clk := 4, timeU := 6000000000 * 3, timeLog := [(2, 6000000000, 6000000000)] }
theorem witness_DeadlineNoted :
    (63, { ruleOpen with dlAt := none }) ∈ stPast.rules ∧ (∀ p ∈ stPast.rules, p.1 = 63 → p.2 = { ruleOpen with dlAt := none }) ∧
      ({ ruleOpen with dlAt := none } : Rule).dl.toNat < stPast.now.toNat ∧ 6000000000 + (stPast.clk - 2) * 6000000000 = stPast.timeU ∧ 2 ≤ stPast.clk := by
  decide +kernel

/-- A mill record at the head of queue 2, of stream 0 as `u` has it. -/
def stMill (dw : List W64) (u : Stream) : State :=
  { (stImg.setQueue 2 (queue0 5 6)).setStream 0 u with mem := placeDwords imgMem (dw.zipIdx.map fun p => (0x300280 + 8 * p.2, p.1.toNat)) }
/-- The record for stream 0 as a record of a queue, on, off, and with dword 14 not zero. -/
def millRec : List W64 := (millDw.set 0 0x0103).set 5 0x104000
def millOff : List W64 := [0x0103, 0, 0, 0, 0, 0x104000, 0, 0, 0, 9, 0, 0, 0, 0, 0, 0]
def atHead (s : State) : List W64 :=
  (List.range 16).map fun i => BitVec.ofNat 64 (memNat s.mem ((s.queue 2).base + 128 * ((s.queue 2).head.toNat % (s.queue 2).size) + 8 * i) 8)
theorem witness_MillRecordsAdmitted :
    (let s := stMill millRec Stream.reset
     atHead s = millRec ∧ recOk millRec = true ∧ recOp millRec = 3 ∧ s.heldBack 2 millRec = false ∧ millReady s (recDw millRec 8) ∧ recStream millRec = 0 ∧
       (s.stream 0).pending = [] ∧ (s.stream 0).cfg = none ∧ applies (s.millCheck millRec) = true) ∧
    (let s := stMill millOff Stream.reset
     atHead s = millOff ∧ recOk millOff = true ∧ recOp millOff = 3 ∧ s.heldBack 2 millOff = false ∧ s.millCheck millOff = .off) ∧
    (let dw := millRec.set 14 1; let s := stMill dw Stream.reset; atHead s = dw ∧ recOk dw = true ∧ s.millCheck dw = .bad (millBad 1)) ∧
    (let s := stMill millOff { stream0 with frames := [frame0 false 0] }
     (s.stream 0).cfg ≠ none ∧ (s.stream 0).frames ≠ [] ∧ s.heldBack 2 millOff = false ∧ s.millCheck millOff = .off) := by
  and_intros <;> decide +kernel

/-! ### The scheduler's other clauses -/

theorem witness_PointersInService :
    State.reset.phaseDev ≠ 3 ∧ { State.reset with phaseDev := 3 }.phaseDev = 3 ∧
    (let s := stQ { queue0 5 5 with xtail := 15 }; let u := s.queue 2
     plainRange s (u.xbase + 64 + 64 * (u.xtail.toNat % u.xsize)) 64 ∧ plainRange s u.xbase 64) ∧
    (let s := { State.reset with msixDue := [7], msix := [(15, 0)] }; s.msixDue = [7] ∧ s.msixMask = false ∧ (s.msixCtl 7).getLsbD 32 = false) := by
  and_intros <;> decide +kernel

/-- A launch that ends with two successors, at 0x106000 and 0x106040, of a graph record at 0x105000; the first has one dependence left
and a launch that waits for it. -/
def endLaunch : Launch := { launch0 .completing with dw := kernDw 0x105000, code := 0x0804, tend := some 5 }
def waitLaunch : Launch := { launch0 .waiting with lseq := 8, dw := kernDw 0x106000 }
def stGraph : State := { stLaunches [endLaunch, waitLaunch] with
  mem := placeDwords imgMem [(0x105008, 0x0002000000107000), (0x107000, 0x106000), (0x107008, 0x106040), (0x106000, 1), (0x106040, 0x0302_0000_0003)] }
theorem witness_SuccessorsCountDown :
    let s := stGraph; let l := endLaunch
    s.launchOf 2 7 = some l ∧ l.st = .completing ∧ l.tend ≠ none ∧ recDw l.dw 8 = 0x105000 ∧ memNat s.mem (0x105000 + 8) 8 / 2 ^ 48 % 2 ^ 12 = 2 ∧
      memNat s.mem (0x105000 + 8) 8 % 2 ^ 48 = 0x107000 ∧ recDw l.dw 5 = 0x104000 ∧ rangeInDevice 0x107000 16 = true ∧ plainRange s 0x104000 32 ∧
      disjoint 0x104000 32 0x105008 8 ∧ disjoint 0x104000 32 0x107000 16 ∧
      (∀ i < 2, let a := memNat s.mem (0x107000 + 8 * i) 8
        a % 64 = 0 ∧ plainRange s a 64 ∧ disjoint 0x104000 32 a 8 ∧ disjoint a 8 0x107000 16 ∧ ∀ j < i, memNat s.mem (0x107000 + 8 * j) 8 ≠ a) ∧
      (waitLaunch ∈ s.launches ∧ waitLaunch.st = .waiting ∧ waitLaunch.d 8 = 0x106000 ∧ waitLaunch.d 8 ≠ 0 ∧
        ∀ k ∈ s.launches, k.q = 2 → k.lseq = 8 → k = waitLaunch) ∧ memNat s.mem 0x106000 4 = 1 ∧ memNat s.mem 0x106044 4 = 0x302 := by
  decide +kernel
theorem witness_CompletionAwaited :
    (let l := launch0 .completing; l.st = .completing ∧ l.tend = none ∧ (stLaunches [l]).launchOf 2 7 = some l) ∧
    (let l := { launch0 .running with items := [⟨0, .dispatched, 0⟩] }; l.st = .running ∧ l.finished = false) := by
  decide +kernel

/-- Cluster 0 taken from the partition of the discarded item. -/
def stMoved : State := { stDisp [{ launch0 .running with items := [⟨0, .discarded, 0⟩] }] [(0, idleCtx)] with parts := [] }
theorem witness_SwapsAndRestarts :
    (let s := stSwap idleCtx [(0, 2, 8)]
     s.victimOk launchSwap 0 = true ∧ s.nextRestart = none ∧ s.barredBy launchSwap 0 = false ∧ launchSwap.kernel = some (bareKernel 0x1000)) ∧
    (let s := stSwap { ctx0 with job := none } [(0, 2, 8)]; s.launchOf 2 8 = some launchSwap ∧ s.victimOk launchSwap 0 = false) ∧
    (stMoved.waitsHere 0 = some idleCtx ∧ (stMoved.launchFor idleCtx).isSome = true ∧ (stMoved.part (stMoved.queue 2).part).pclu.getLsbD 0 = false) ∧
    (let s := stSwap idleCtx [(0, 2, 8)]; s.waitsHere 0 = some idleCtx ∧ (s.launchFor idleCtx).isSome = true ∧ ∃ r ∈ s.swapReq, r.1 = 0) := by
  and_intros <;> decide +kernel

/-- A STATE 3 record of queue 2. -/
def queueFault (code : Nat) : FaultEntry := { faultOf 6 code 3 (some 0) with src := .queue 2 }
def foundIn (s : State) (e : FaultEntry) : Prop := s.faults.find? (fun e => e.q == 2 && e.rseq == some 0 && !e.dead) = some e
theorem witness_QueueAnswers :
    (let e := queueFault 0x0801; let s := { stAdm 0 0 with faults := [e] }
     foundIn s e ∧ e.r.state = 3 ∧ (∀ l ∈ s.launches, ¬ (l.q = 2 ∧ l.lseq = e.r.lseq)) ∧ atHead s = kernDw 0 ∧ recDw (atHead s) 8 % 2 ^ 48 = 0 ∧
       recDw (atHead s) 5 % 2 ^ 48 % 32 = 0 ∧ plainRange s (recDw (atHead s) 5 % 2 ^ 48) 32) ∧
    (let s := stMill (millOff.set 5 0x104008) Stream.reset; recDw (atHead s) 8 % 2 ^ 48 = 0 ∧ recDw (atHead s) 5 % 2 ^ 48 % 32 ≠ 0) ∧
    (let e := queueFault 0x0601; let s := { stLaunches [launch0 .ready] with faults := [e] }
     foundIn s e ∧ e.r.code = 0x0601 ∧ s.launchOf 2 e.r.lseq = some (launch0 .ready)) ∧
    (let e := queueFault 0x0802; foundIn { stQ (queue0 5 6) with faults := [e] } e ∧ e.r.state = 3 ∧ e.r.code = 0x0802) ∧
    (let e := queueFault 0x0809; foundIn { stQ (queue0 5 6) with faults := [e] } e ∧ e.r.state = 3 ∧ e.r.code = 0x0809) ∧
    (let e := { faultOf 1 0x0302 0 (some 0) with src := .old 0 }
     foundIn (stAns e ctx0) e ∧ e.src = .old (0 : CtxId).val ∧ e.r.state = 0 ∧ ctx0.seqLate = []) := by
  unfold foundIn
  and_intros <;> decide +kernel

/-! ### Time, service, turns -/

theorem witness_TimeSteps :
    { State.reset with timeStep := some 9 }.timeStep = some 9 ∧ State.reset.timeStep = none ∧ State.reset.lock = false ∧
      (-101 : Int) < -100 ∧ (2000000 : Int) > 1000000 ∧ (2000000 : W64).toNat - State.reset.now.toNat = 2000000 := by
  decide +kernel
theorem witness_LostItemsAndRemaps :
    ((0 : CtxId).core = 0 ∧ ({ stErr with cores := [(0, errCore)] }.ctx 0).holds = true ∧ windowOf { stErr with cores := [(0, errCore)] } 0 1 = 3) ∧
    ({ stErr with remap := [5] }.remap ≠ [] ∧ (stErr.channel 3).winMax < 4 ∧
      ∃ p ∈ { stErr with channels := (7, { Channel.reset with ret := true }) :: stErr.channels }.channels, p.2.ret = true) := by
  decide +kernel

/-- Two contexts with a command of the alignment unit, the one in context 4 pushed first. -/
def fdisWord : BitVec 128 := 0x3F07
def alEntry (born : Nat) : AlEntry := { num := 0, w := fdisWord, born := born, after := 0 }
def stAl : State := { State.reset with ctxs := [(0, { ctx0 with alq := [alEntry 3] }), (4, { ctx0 with alq := [alEntry 2] })], clk := 9, alTake := true }
theorem witness_AlignmentTurn :
    stAl.alTake = true ∧ stAl.alEvents = [] ∧ stAl.alNext = some 4 ∧ (stAl.ctx 4).alq.head? = some (alEntry 2) ∧ (stAl.ctx 0).alq.head? = some (alEntry 3) ∧
      (alEntry 3).born < stAl.clk ∧ (stAl.ctx 0).alHalted = false ∧ (stAl.ctx 0).pushedAfter (alEntry 3) = true ∧
      (∀ p ∈ stAl.ctxs, p.1 < 384 ∧ stAl.ctx (ctxOf p.1) = p.2) ∧ stAl.alWrites = [] ∧ (∀ e ∈ stAl.alEvents, stAl.alReady e = false) ∧
      fdisWord.toNat < 2 ^ 128 ∧ decodeAl fdisWord.toNat = some (.fdis 63) ∧ decodeAl (stAl.ctx 4).alWord = some (.fdis 63) := by
  and_intros <;> decide +kernel

/-! ### Mill records, launch records, images: each clause -/

/-- The image of `imgMem`. -/
def img0 : Image := ⟨0x100000, 4096, 1, [⟨1, 128, 64⟩, ⟨8, 192, 64⟩, ⟨5, 256, 136⟩, ⟨9, 448, 256⟩]⟩
/-- The reason applies to a record of that image, and no lower one does. -/
def onlyReason (m : Mem) (dw : List W64) (k : Nat) : Prop :=
  let s := { stImg with mem := m }
  imageAt m (fld dw 2 47 0) = some img0 ∧ millRefused s dw img0 0x100100 0x88 k ∧ ∀ j, 1 ≤ j → j < k → ¬ millRefused s dw img0 0x100100 0x88 j
theorem no_reason_eight {s : State} {dw : List W64} {g : Image} {b len : Nat} {ls : List Lease}
    (h : leaseList s.mem (dw.getD 6 0).toNat = some ls) (h' : leaseFault ls false true (slotsOf dw).1 (slotsOf dw).2 = none ∧
      roFault (s.ro ++ [⟨g.base, g.size⟩]) (slotsOf dw).1 (slotsOf dw).2 = none ∧ leaseFault ls true false g.base g.size = none ∧
      s.imageOf g.base ≠ none) : ¬ millRefused s dw g b len 8 := by
  simp only [millRefused, h, Option.mem_def, Option.some.injEq]
  rintro (h₁ | ⟨l, rfl, h₂⟩)
  · cases h₁
  · simp [h'] at h₂
set_option synthInstance.maxSize 4000 in
set_option synthInstance.maxHeartbeats 400000 in
theorem witness_MillRecordsRefused :
    (fld [3] 1 7 7 = 0 ∧ fld [3] 1 63 8 = 0 ∧ (∀ i ∈ [3, 4, 7, 10, 11, 12, 13, 14, 15], fld [3] i 63 0 = 0)) ∧
    (fld (millDw.set 1 0) 1 7 7 = 0 ∧ fld (millDw.set 1 0) 4 63 0 ≠ 0) ∧
    (fld (millDw.set 2 0x200000) 1 7 7 = 1 ∧ imageAt imgMem (fld (millDw.set 2 0x200000) 2 47 0) = none ∧ ¬ recordBad (millDw.set 2 0x200000) ∧
      recordBad ((millDw.set 2 0x200000).set 14 1)) ∧
    img0.sec 5 = ⟨0x100100, 0x88⟩ ∧ fld millDw 1 7 7 = 1 ∧
    onlyReason imgMem (millDw.set 14 1) 1 ∧ onlyReason imgMem (millDw.set 1 0x0000003000800080) 2 ∧
    onlyReason imgMem (millDw.set 1 0x0000002A01700080) 3 ∧ onlyReason (placeDwords imgMem [(0x100180, 0xFF)]) millDw 4 ∧
    onlyReason (placeDwords imgMem [(0x100148, 0x0001010000012000)]) (millDw.set 1 0x0000002A04000080) 5 ∧
    onlyReason imgMem (millDw.set 4 0x0002000400000001) 6 ∧ onlyReason imgMem (millDw.set 10 0x0001000000001000) 7 ∧
    onlyReason imgMem (millDw.set 6 0) 8 ∧ imageAt imgMem (fld millDw 2 47 0) = some img0 ∧
    ∀ k, ¬ millRefused stImg millDw img0 0x100100 0x88 k := by
  and_intros
  rotate_right
  · intro k
    by_cases h8 : k = 8
    · subst h8
      exact no_reason_eight (ls := [⟨0x10000000000, 16, true, false⟩, ⟨0x100000, 1, false, true⟩]) (by decide +kernel) (by decide +kernel)
    by_cases h : 1 ≤ k ∧ k ≤ 7
    · obtain ⟨h₁, h₂⟩ := h
      interval_cases k <;> simp only [millRefused] <;> decide +kernel
    · unfold millRefused
      split <;> first | omega | exact id
  all_goals first
    | decide +kernel
    | (simp only [millRefused]; decide +kernel)
    | (intro j h₁ h₂; interval_cases j <;> simp only [millRefused] <;> decide +kernel)

def stFull (e : FaultEntry) : State := { stQ { queue0 5 5 with xtail := 16 } with faults := [e], clk := 4 }
theorem witness_ExceptionQueueFull :
    fits (faultOf 1 0x0302 0 none).r ∧
    (let e := { faultOf 1 0x0302 0 none with counted := true }; let s := stFull e; let u := s.queue 2
     s.nextFault 2 = some e ∧ e.clk < s.clk ∧ u.xsize ≤ (u.xtail - u.xhead).toNat ∧ (s.faults.filter (waitsUncounted s 2)).length = 0) ∧
    (let e := faultOf 1 0x0302 0 none; let s := stFull e; let u := s.queue 2
     s.nextFault 2 = some e ∧ e.clk < s.clk ∧ u.xsize ≤ (u.xtail - u.xhead).toNat ∧ (s.faults.filter (waitsUncounted s 2)).length = 1 ∧
      (1 : BitVec 16).toNat = Nat.min (u.ovf.toNat + 1) 0xFFFF ∧ plainRange s u.xbase 64) := by
  and_intros <;> decide +kernel

/-- A record that only signals. -/
def nullDw : List W64 := [0x0102, 0, 0, 0, 0, 0x104000, 0, 0, 0, 9, 0, 0, 0, 0, 0, 0]
set_option synthInstance.maxSize 4000 in
set_option synthInstance.maxHeartbeats 400000 in
theorem witness_RecordsAdmit :
    ¬ launchBad (kernDw 0) ∧ ¬ launchBad (kernDw 0x105000) ∧ ¬ launchBad nullDw ∧ ¬ launchBad millRec ∧ launchBad ((kernDw 0).set 4 0x0001000000040400) ∧
      launchBad (nullDw.set 6 1) ∧ launchBad (millRec.set 0 0x0203) ∧ launchBad ((kernDw 0).set 0 0x0104) ∧ recOp nullDw = 2 ∧
    (let s := stAdm 0x105008 0; atHead s = kernDw 0x105008 ∧ launchBad (kernDw 0x105008)) ∧
    (let s := stAdm 0x7FFFFFFFFFC0 0; atHead s = kernDw 0x7FFFFFFFFFC0 ∧ ¬ launchBad (kernDw 0x7FFFFFFFFFC0) ∧ s.heldBack 2 (kernDw 0x7FFFFFFFFFC0) = false ∧
      s.graphOk 0x7FFFFFFFFFC0 = false ∧ ∀ l ∈ s.launches, ¬ (l.q = 2 ∧ l.lseq = (s.queue 2).head)) ∧
    (let dw := millRec.set 8 0x105000; let s := { stMill dw Stream.reset with mem := placeDwords (stMill dw Stream.reset).mem [(0x105000, 1)] }
     atHead s = dw ∧ ¬ launchBad dw ∧ s.heldBack 2 dw = false ∧ s.graphOk 0x105000 = true ∧ memNat s.mem (recDw dw 8) 4 ≠ 0 ∧
      applies (s.millCheck dw) = true) := by
  and_intros <;> decide +kernel

theorem signed_lease : leaseList imgMem 0x0002000000102000 = some [⟨0x10000000000, 16, true, false⟩, ⟨0x100000, 1, false, true⟩] := by decide +kernel
def badKernel : Mem := placeDwords imgMem [(0x1000E8, 1)]
set_option synthInstance.maxSize 4000 in
set_option synthInstance.maxHeartbeats 400000 in
theorem witness_ImagesAndLeasesVerify :
    rangeInDevice 0x102000 32 = true ∧ (∀ i < 2, ¬ leaseBad imgMem 0x102000 i) ∧
    (∃ i < 2, leaseBad (placeDwords imgMem [(0x102018, 0x000000001)]) 0x102000 i) ∧
    imageBad [] 0x100000 ∧ imageBad (placeDwords imgMem [(0x100048, 0xC0)]) 0x100000 ∧ ¬ imageBad imgMem 0x100000 ∧
    4096 = dwAt imgMem 0x100000 1 63 0 ∧ rangeInDevice 0x100000 4096 = true ∧ (⟨0x100000, 4096⟩ : RoRange) ∈ stImg.verified ∧
    ¬ imageBad badKernel 0x100000 ∧ (⟨0x100000, 4096⟩ : RoRange) ∉ ({ State.reset with mem := badKernel } : State).verified ∧
    4096 = dwAt badKernel 0x100000 1 63 0 ∧
    sectionIs badKernel 0x100000 8 0x1000C0 64 ∧ ∃ k < dwAt badKernel 0x100000 2 15 0, entryBad badKernel 0x100000 (0x1000C0 + 64 * k) := by
  and_intros
  rotate_right
  · exact ⟨0, by decide +kernel, .inr (.inr (.inr (.inr (.inr (.inl ⟨5, by decide, by decide, by decide +kernel⟩)))))⟩
  all_goals first | decide +kernel | exact ⟨1, by decide +kernel, by decide +kernel, by decide +kernel, by decide +kernel⟩

theorem witness_LaunchesPrepare :
    let l := launch0 .preparing; let s := stLaunches [l]; let ls := [(⟨0x10000000000, 16, true, false⟩ : Lease), ⟨0x100000, 1, false, true⟩]
    s.launchOf (2 : QId).val 7 = some l ∧ l.st = .preparing ∧
      leaseList (placeDwords imgMem [(0x102018, 1)]) (lr l.dw 6 63 0) = none ∧ leaseList s.mem (lr l.dw 6 63 0) = some ls ∧
      s.imageOf (lr (l.dw.set 2 0x200000) 2 63 0) = none ∧ s.imageOf (lr l.dw 2 63 0) = some img0 ∧ img0.nkern ≤ lr (l.dw.set 3 1) 3 15 0 ∧
      lr l.dw 3 15 0 < img0.nkern ∧ img0.sec 8 = ⟨0x1000C0, 64⟩ ∧ viewsLeave (placeDwords imgMem [(0x1000D0, 0x81000)]) 0x1000C0 (lr l.dw 4 8 0) ∧
      ¬ viewsLeave s.mem 0x1000C0 (lr l.dw 4 8 0) ∧ (s.queue l.q).fg = false ∧ bitsOf (s.part (s.queue l.q).part).pclu.toNat 63 48 = 0 ∧
      lr (l.dw.set 4 0x0002000000040201) 4 63 48 = 2 ∧ bitsOf ({ Part.reset with pclu := 0x0001000000000001 } : Part).pclu.toNat 63 48 = 1 := by
  unfold viewsLeave
  and_intros <;> decide +kernel

/-! ### Answers, measurements, waits in their order -/

/-- A record of an item that has left its context, which holds it again, or which firmware's store holds. -/
def oldFault : FaultEntry := { faultOf 1 0x0302 0 (some 0) with src := .old 0 }
theorem witness_ResumesCount :
    (let s := stAns oldFault { ctx0 with job := some heldJob }; foundIn s oldFault ∧ holdsItem (s.ctx 0) 2 7 oldFault.r.wid) ∧
    (let s := { stAns oldFault ctx0 with swapped := [(5, { idleCtx with job := some heldJob })] }
     foundIn s oldFault ∧ ¬ holdsItem (s.ctx 0) 2 7 oldFault.r.wid ∧ ∃ p ∈ s.swapped, holdsItem p.2 2 7 oldFault.r.wid) ∧
    (let s := stSwap idleCtx [(0, 2, 8)]; 0 < 4096 * (s.ctx 0).heldCv3 ∧ 4096 * (s.ctx 0).heldCv3 ≤ 2 ^ 20) := by
  unfold foundIn
  and_intros <;> decide +kernel
theorem witness_MeasurementsAndRecovery :
    (173 : Byte).toNat < 174 ∧ 174 ≤ (183 : Byte).toNat ∧ (183 : Byte).toNat < 184 ∧ State.reset.relief = false ∧ State.reset.phaseDev ≠ 3 ∧
      { State.reset with phaseDev := 3 }.phaseDev = 3 ∧ (State.reset.cmdst = 1 ∨ (4 : BitVec 3) ≠ 1 ∧ (4 : BitVec 3) ≠ 2) := by
  and_intros <;> decide +kernel
theorem witness_WatchdogAndDoorbellWrites :
    (queue0 5 6).hostFed = true ∧ (State.reset.queue 3).hostFed = false ∧
    (let s := stDog 0; bitsOf (s.queue 2).qwda.toNat 31 0 = 1 ∧ bitsOf (s.queue 2).qwda.toNat 63 32 = 2 ∧ (0x100000003 : W64).toNat < 2 ^ 33 ∧
      bitsOf (0x100000003 : W64).toNat 31 0 = 3 ∧ (0x100000003 : W64).getLsbD 32 = true) ∧ bitsOf (0 : W64).toNat 31 0 = 0 := by
  and_intros <;> decide +kernel
/-- The sequencer at a `semwait` of semaphore 3 while the matrix engine's next command waits for it, or the execute core's next slot D. -/
def stRace : State := ((onFocus { ctxMx [] with mxq := [⟨4, wordOf (.msem mxTail)⟩] }).withFetchWord 32 0x014061B8)
def stRaceEx : State := (onFocus { ctxEx with
  sem := ctxEx.sem.set 3 3, ex := { ctxEx.ex with block := some { block0 with bundles := [0x40018004 <<< 96, 0] } } }).withFetchWord 32 0x014061B8
/-- A turn's next state has a property. -/
def turnTo (a : Answer) (p : State → Bool) : Bool := match a with | .next t => p t | _ => false
theorem witness_WaitsInOrder :
    (let s := stRace; s.sqSem 0 = some 3 ∧ s.serves 0 = true ∧ (s.ctx 0).mxHead = some ⟨4, wordOf (.msem mxTail)⟩ ∧
      decode .mx (wordOf (.msem mxTail)).toNat = some (.msem mxTail) ∧
      goesTo (.msem mxTail) { s with focus := 0 } (fun t => decide (semOf (t.ctx 0) 3 < semOf (s.ctx 0) 3)) = true ∧ s.outranked (.sq 0) = true ∧ s.acted = []) ∧
    (let s := stRaceEx; s.sqSem 0 = some 3 ∧ s.exSem 0 = some 3 ∧ (∀ b ∈ s.acted, b.1 ≠ .ex 0) ∧
      turnTo { s with focus := 0 }.exTurn (fun t => decide (semOf (t.ctx 0) 3 < semOf (s.ctx 0) 3)) = true) ∧
    State.reset.outranked (.sq 0) = false ∧ State.reset.sqSem 0 = none ∧ State.reset.exSem 0 = none := by
  and_intros <;> decide +kernel

/-- The digest of "abc" that the standard gives as its first example. -/
theorem test_sm3_abc : leNat (sm3 [0x61, 0x62, 0x63]).reverse = 0x66c7f0f462eeedd9d1f2d46bdc10e4e24167c4875cf2f7a2297da02b8f4ba8e0 := by decide +kernel

/-! ## What WellFormed refuses: one ill-formed term for each check -/

def badTail : CpTail := { noTail with expect := 1 }
def badMx : MxTail := ⟨0, 0, 0, 0, 1⟩
def mulBad (bsel : BitVec 2) (cmask : BitVec 16) (bop : BitVec 9) : MulForm := ⟨bop, 0, 0, 0, bsel, false, 0, 0, 0, cmask, ⟨0, 0, 0, 0, 0⟩⟩
theorem test_wf_sequencer :
    [Instr.shlImm 1 2 64, .shrImm 1 2 64, .sarImm 1 2 64, .fenceC .dev 0, .fenceX .dev 4, .ld ⟨.n64, 0, 1, 2, 0⟩, .st ⟨.n64, 0, 1, 2, 0⟩,
      .ldp ⟨.n64, 0, 1, 2, 0⟩, .stp ⟨.n64, 0, 1, 2, 0⟩, .ldAcq ⟨.n64, .dev, 1, 2, 1, 0⟩, .stRel ⟨.n64, .dev, 1, 2, 1, 0⟩, .ldAcq ⟨.i64, .dev, 1, 2, 0, 0⟩, .stRel ⟨.i64, .dev, 1, 2, 0, 0⟩, .ldSc ⟨.n64, 1, 2, 0⟩,
      .stSc ⟨.n64, 1, 2, 0⟩, .waitge ⟨.i64, .dev, 1, 2, 3, 4, 0⟩, .waiteq ⟨.n16, .dev, 1, 2, 3, 4, 0⟩, .atmAdd ⟨.n64, 0, .dev, 1, 2, 3, 0⟩,
      .atmCas ⟨.i16, 0, .dev, 1, 2, 3, 0⟩ 4, .atmCasSc ⟨.i8, 1, 2, 3, 0⟩ 4].all (fun i => !i.wf) = true := by decide +kernel
theorem test_wf_pushes :
    [Instr.pushtMx ⟨1, 2, 3, 15, 0⟩, .pushtCp ⟨1, 0, 0, 0, 0⟩, .pushtAl ⟨1, 0, 0, 4, 0⟩, .pushtMx ⟨1, 2, 0, 1, 0⟩, .pushtMx ⟨1, 2, 3, 3, 0⟩,
      .pushrMx 0, .pushrMx 6, .pushrCp 0, .pushrAl 0, .pushrAl 7].all (fun i => !i.wf) = true := by decide +kernel
theorem test_wf_slots :
    [Instr.vshli ⟨0, 1, 2, 32, false⟩, .vceqI32 ⟨0, 8, 1, 2, false⟩, .vcltF32 ⟨0, 8, 1, 2, false⟩, .vpladd ⟨0, 1, 2, 1, false⟩,
      .vpladd ⟨0, 1, 2, 2, false⟩, .vcvtF32 ⟨0, 1, 2, 0x0B, false⟩, .vcvtF32 ⟨0, 1, 2, 0x31, false⟩, .vcvtBf ⟨0, 1, 2, 0x50, false⟩,
      .vitpBf ⟨0, 1, 2, 4, false⟩, .vcbxBp16 ⟨0, 1, 2, 0x0C, false⟩, .vcbxBp16 ⟨0, 1, 2, 0x54, false⟩, .vcbxBf ⟨0, 1, 2, 0x40, false⟩,
      .cbswap ⟨0, 4, 0, false⟩, .vslu ⟨0, 1, 2, 64, false⟩, .qand ⟨1, 1, 2, 3, false⟩, .qnot ⟨0, 1, 2, 3, false⟩, .qleni ⟨0, 1, 65, false⟩,
      .qset ⟨1, 1, 2, 0, false⟩, .vraddI32 ⟨0, 1, 2, 3, false⟩].all (fun i => !i.wf) = true := by decide +kernel
theorem test_wf_slot_d :
    [Instr.vpop ⟨0, 1, 16, 0, false⟩, .vpush ⟨1, 1, 2, 0, false⟩, .vpushc ⟨0, 16, 2, 0, false⟩, .vpopx ⟨0, 1, 2, 1, false⟩, .vmov ⟨0, 1, 2, 3, false⟩,
      .vmovmb ⟨0, 1, 8, 0, false⟩, .vmovlc ⟨0, 1, 4, 0, false⟩, .loop ⟨0, 0, 1⟩, .loopm ⟨0, 1, 8⟩, .loopc ⟨0, 1, 16⟩, .vxi ⟨0, 0, 128, false⟩,
      .vxa ⟨0, 0, 128, false⟩, .semw ⟨0, 16, 1, false⟩, .sems ⟨0, 1, 8192, false⟩, .fbput ⟨0, 1, 2, 3, false⟩].all (fun i => !i.wf) = true := by
  decide +kernel
theorem test_wf_copy :
    [Instr.copy ⟨1, false, 1, 0, 0, 0, noTail⟩, .copy ⟨1, false, 0, 0, 0, 0, badTail⟩, .copya ⟨0, 0, false, 0, 1, 0, 0, noTail⟩, .gather ⟨0, 0, 0, 0, 0, badTail⟩,
      .scatter ⟨0, 0, 0, 0, 0, { noTail with cval := 1 }⟩, .fill ⟨1, 0, 0, { noTail with check := true }⟩, .bind ⟨0, 0, 1, true, 0, false, 0, 0, 0, noTail⟩,
      .bind ⟨0, 0, 0, false, 0, true, 0, 0, 0, { noTail with spool := true }⟩, .unbind 1 { noTail with ckm := 1 }, .unpack ⟨1, 0, 0, 0, 0, { noTail with spool := true }⟩,
      .cbld ⟨1, false, 0, 0, { noTail with dpool := true }⟩, .itld ⟨1, 0, 0, { noTail with dpool := true }⟩, .cmpl { noTail with chain := true },
      .ckst 0 { noTail with spool := true }].all (fun i => !i.wf) = true := by decide +kernel
theorem test_wf_matrix :
    [Instr.mmul (mulBad 3 0 0), .mmul (mulBad 0 1 0), .mmul (mulBad 1 1 1), .mmul { mulBad 0 0 0 with mdat := 1 }, .mmuls (mulBad 3 0 0), .hrot 0 false false badMx,
      .drain ⟨0, 0, false, false, false, 0, 1, ⟨0, 0, 0, 0, 0⟩⟩, .drain ⟨0, 0, false, false, false, 1, 0, ⟨0, 0, 0, 0, 0⟩⟩, .acclr 0 false badMx,
      .accadd 0 0 false badMx, .mxCbswap 0 badMx, .msem ⟨1, 0, 1, 0, 0⟩].all (fun i => !i.wf) = true := by decide +kernel
theorem test_wf_line :
    [Instr.lnVadd ⟨2, 1, 2, 3, 0, 0⟩, .lnVadd ⟨0, 1, 2, 3, 1, 0⟩, .lnVadd ⟨0, 1, 2, 3, 0, 1⟩, .lnVadd ⟨1, 1, 2, 3, 0, 1⟩, .lnVshl ⟨0, 1, 2, 0, 0, 32⟩, .lnVabs ⟨0, 1, 2, 1, 0, 0⟩,
      .lnVsel ⟨1, 1, 2, 3, 4, 0⟩, .lnVsel ⟨0, 1, 2, 3, 8, 0⟩, .lnVidx ⟨0, 1, 1, 0, 0, 0⟩, .lnVlut ⟨0, 1, 2, 0, 0, 1⟩, .lnVrsum ⟨0, 8, 2, 0, 0, 0⟩, .lld ⟨4, 1, 8, 0, 0, 0⟩, .lld ⟨0, 1, 1, 0, 0, 0⟩,
      .lst ⟨0, 1, 8, 2, 0, 0⟩, .kadd ⟨0, 8, 1, 0, 0, 0⟩, .ksr ⟨0, 1, 0, 0, 0, 7⟩, .ksr ⟨0, 1, 0, 0, 0, 16⟩, .rstat ⟨0, 0, 7, 0, 0, 0⟩].all (fun i => !i.wf) = true := by
  decide +kernel
theorem test_wf_alignment_fmem : (Instr.fmem 1 false 0x01).wf = false := by decide +kernel
theorem test_wf_alignment_fpeer : (Instr.fpeer 1 2 0 false).wf = false ∧ (Instr.fpeer 1 0 3 false).wf = false := by decide +kernel
theorem test_wf_events :
    [Instr.flitReceive 1 ⟨true, false, .lkWrite 33, 0⟩, .lkPeerAccess 1 ⟨false, true, 0x10, 257⟩, .gptpSync ⟨0, 0⟩ 501, .hostBarRead .bar0 0xFFFFF ⟨2, 0⟩,
      .registerWrite 0 2 0, .attest [], .readreg 0x100000, .stage 0 [0], .usbRequestStall 3].all (fun i => !i.wf) = true := by decide +kernel
theorem test_wf_event_write : (Instr.hostBarWrite .bar0 0 []).wf = false := by decide +kernel
theorem test_wf_event_lanes : (Instr.thrumolPortTrained 0 9).wf = false := by decide +kernel

/-! ## Words of the spec's encodings: R115, R127, R145, R148, R195, R201, R208, R217, R226 and the layouts of R234, R268, R319, R340 -/

theorem test_decode_sequencer :
    decode .sq32 0x000A41C0 = some (.add 3 4 5) ∧ decode .sq32 0xFFFA02A2 = some (.brNe 5 0 (-3)) ∧ decode .sq32 0x01000230 = some (.crr 4 0x010) ∧
      decode .sq32 0x00052034 = some (.fenceX .dev 5) ∧ decode .sq32 0x01D6A038 = some (.launch 10 11) := by decide +kernel
theorem test_decode_long :
    decodeSeqWords 0x4C0CB00B 0x00020000 = some (.stRel ⟨.i64, .dev, 6, 11, 2, 0⟩, 8) ∧
      decodeSeqWords 0x580CC391 0x0000000D = some (.waitge ⟨.n32, .dev, 7, 12, 6, 13, 0⟩, 8) ∧
      decodeSeqWords 0x4C8A8215 0x00104806 = some (.atmCas ⟨.i64, 2, .dev, 4, 8, 5, 16⟩ 6, 8) := by decide +kernel
theorem test_decode_pushes :
    decodeSeqWords 0x00000031 3 = some (.pushbEx 3, 8) ∧ decodeSeqWords 0x00008035 0 = some (.pushrMx 8, 8) ∧
      decodeSeqWords 0x000004A1 0x12345678 = some (.li 9 0x12345678, 8) := by decide +kernel
theorem test_decode_slot_a :
    decode .slotA 0x06048914 = some (.vaddsI32 ⟨0, 9, 9, 10, false⟩) ∧ decode .slotA 0x2402050C = some (.vaddminI32 ⟨0, 4, 5, 6, false⟩) ∧
      decode .slotA 0x400081FE = some (.vaddiI32 ⟨0, 1, 1, 0x7F, false⟩) ∧ decode .slotA 0x4401030E = some (.vshri ⟨0, 2, 3, 7, false⟩) := by
  decide +kernel
theorem test_decode_slot_b :
    decode .slotB 0x0803040A = some (.vfmaF32 ⟨0, 6, 4, 5, false⟩) ∧ decode .slotB 0x32038662 = some (.vcvtBf ⟨0, 7, 6, 0x31, false⟩) ∧
      decode .slotB 0x30040990 = some (.vcvtF32 ⟨0, 8, 9, 0x48, false⟩) ∧ decode .slotB 0x46010102 = some (.vcbxVq4 ⟨0, 2, 1, 1, false⟩) := by
  decide +kernel
theorem test_decode_slots_c_d :
    decode .slotC 0x02838300 = some (.vsel ⟨2, 7, 3, 0, false⟩) ∧ decode .slotD 0x02040000 = some (.vpop ⟨0, 8, 0, 0, false⟩) ∧
      decode .slotD 0x06418700 = some (.vpushc ⟨1, 3, 7, 0, false⟩) ∧ decode .slotD 0x08430200 = some (.vpopx ⟨1, 6, 2, 0, false⟩) := by decide +kernel
theorem test_decode_slot_d_loops :
    decode .slotD 0x203FFFFE = some (.loop ⟨3, 1023, 511⟩) ∧ decode .slotD 0x24201002 = some (.loopc ⟨2, 4, 1⟩) ∧
      decode .slotD 0x3000000A = some (.vxi ⟨0, 0, 5, false⟩) ∧ decode .slotD 0x32007FFC = some (.vxa ⟨0, 0, -2, false⟩) ∧
      decode .slotD 0x40020004 = some (.semw ⟨0, 4, 2, false⟩) ∧ decode .slotD 0x44800312 = some (.fbput ⟨2, 0, 3, 9, false⟩) := by decide +kernel
/-- `cmpl` with CW and CVAL 5 to 0x3000; `copy` of 256 bytes; `unbind` of port 9; `ckst` to 0x40. -/
theorem test_decode_copy :
    decode .cp (0x10C + 2 ^ 192 * (5 * 2 ^ 48 + 0x3000)) = some (.cmpl { noTail with cw := true, cval := 5, caddr := 0x3000 }) ∧
      decode .cp (0x02 + 256 * 2 ^ 32 + 2 ^ 64 * 0x2000 + 2 ^ 128 * 0x3000) = some (.copy ⟨256, false, 0, 0, 0x2000, 0x3000, noTail⟩) ∧
      decode .cp (0x08 + 9 * 2 ^ 16) = some (.unbind 9 noTail) ∧ decode .cp (0x0D + 2 ^ 128 * 0x40) = some (.ckst 0x40 noTail) ∧ decode .cp 0 = none := by
  decide +kernel
/-- `msem` with every field of dword 3; `acclr` of a-view 7 with KIND 0 and no signal; `drain` to 0x1C000. -/
theorem test_decode_matrix :
    decode .mx (8 + 2 ^ 192 * (0x0002_0003_0000_0103)) = some (.msem ⟨2, 3, 0, 1, 3⟩) ∧ decode .mx (5 + 7 * 2 ^ 16) = some (.acclr 7 false ⟨0, 0, 0, 0, 0⟩) ∧
      decode .mx (4 + 0x1C000 * 2 ^ 24 + 2 ^ 8) = some (.drain ⟨0x1C000, 0, false, false, true, 0, 0, ⟨0, 0, 0, 0, 0⟩⟩) ∧ decode .mx 0 = none := by
  decide +kernel
theorem test_decode_line :
    decode .ln 0x0101230000000000 = some (.lnVadd ⟨0, 1, 2, 3, 0, 0⟩) ∧ decode .ln 0x310129000000FFFF = some (.kadd ⟨0, 1, 2, 9, 0, 0xFFFF⟩) ∧
      decode .ln 0x20118030FFFFFFFC = some (.lld ⟨1, 1, 8, 0, 3, 0xFFFFFFFC⟩) ∧ decode .ln 0x3C05000000000007 = none := by decide +kernel
/-- `fmem` of rule 5, part 1, with streams 3 and 4 in its first bytes; `ftol` of rule 2 with REFPOS 1, DELTA 100 and DEAD 1000; `farm`. -/
theorem test_decode_alignment_members : decodeAl (0x10501 + 2 ^ 64 * 0x8483) = some (.fmem 5 true 0x8483) := rfl
theorem test_decode_alignment :
    decodeAl (0x10202 + 2 ^ 64 * (100 * 2 ^ 32 + 1000)) = some (.ftol 2 1 100 1000) ∧ decodeAl 0x0706 = some (.farm 7) ∧ decodeAl 0x4006 = none :=
  ⟨rfl, rfl, rfl⟩
theorem test_table_word : decodeTableWord 32 0x000A41C0 = some (.add 3 4 5) := by decide +kernel
/-- 7 + (−3), by R120, from the word above at the pc. -/
theorem test_step_runs_the_word :
    (match step (st0.withFetchWord 32 0x000A41C0) with | .next t => decide ((cur t).reg 3 = 4 ∧ (cur t).pc = 0x1004) | _ => false) = true := by
  decide +kernel

/-! ## One step each -/

/-- s4 and s5 hold the operands. -/
def stRegs (a b : W64) : State := onFocus { ctx0 with x := (ctx0.x.set 4 a).set 5 b }
def leaves (i : Instr) (a b v : W64) : Bool := goesTo i (stRegs a b) fun t => decide ((cur t).reg 3 = v)
/-- The value of the division under way. -/
def divides (i : Instr) (a b v : W64) : Bool := goesTo i (stRegs a b) fun t => decide ((cur t).divs.map (·.val) = [v])
/-- The examples of R121. -/
theorem test_div : divides (.div 3 4 5) 7 (-2) (-3) = true ∧ divides (.div 3 4 5) 12 0 0 = true := by decide +kernel
theorem test_rem : divides (.rem 3 4 5) (-7) 2 (-1) = true ∧ divides (.rem 3 4 5) 12 0 12 = true := by decide +kernel
theorem test_divU : divides (.divU 3 4 5) (-7) 2 0x7FFFFFFFFFFFFFFC = true ∧ divides (.remU 3 4 5) (-7) 2 1 = true := by decide +kernel
theorem test_div_corner : divides (.div 3 4 5) 0x8000000000000000 (-1) 0x7FFFFFFFFFFFFFFF = true := by decide +kernel

/-- Lane 0, alone selected, of views 7 (the old destination), 6 and 5. -/
def stLane (d a b : Nat) : State := onFocus { ctxEx with
  pool := memPutNat (memPutNat (memPutNat [] (exIn0.addr 5) 4 b) (exIn0.addr 6) 4 a) (exIn0.addr 7) 4 d
  ex := { ctxEx.ex with q := (Vector.replicate 8 0).set 1 1 } }
/-- The first bytes an operation is to write, and its flags. -/
def lane (i : Instr) (d a b v : Nat) (fl : BitVec 5) : Bool := goesTo i (stLane d a b) fun t =>
  match (cur t).ex.pipe with | [o] => decide (o.bytes.length < 9) && decide (leNat (o.bytes.map (·.2)) = v) && decide (o.flags = fl) | _ => false
/-- The lane values of R195. -/
theorem test_vadd : lane (.vaddI32 vForm) 0 0x7FFFFFF0 0x20 0x80000010 0 = true := by decide +kernel
theorem test_vadds : lane (.vaddsI32 vForm) 0 0x7FFFFFF0 0x20 0x7FFFFFFF 16 = true := by decide +kernel
theorem test_vmul : lane (.vmulI32 vForm) 0 0xFFFFFFF9 3 0xFFFFFFEB 0 = true := by decide +kernel
theorem test_vmulh : lane (.vmulhI32 vForm) 0 0x10000 0x10000 1 0 = true ∧ lane (.vmulhI32 vForm) 0 0xFFFFFFF9 3 0xFFFFFFFF 0 = true := by decide +kernel
theorem test_vshr : lane (.vshr vForm) 9 0x80000000 40 0 0 = true := by decide +kernel
theorem test_vsra : lane (.vsra vForm) 9 0x80000000 40 0xFFFFFFFF 0 = true := by decide +kernel
theorem test_vmin : lane (.vminI32 vForm) 0 0xFFFFFFFF 1 0xFFFFFFFF 0 = true ∧ lane (.vminN32 vForm) 0 0xFFFFFFFF 1 1 0 = true := by decide +kernel
theorem test_vaddmin : lane (.vaddminI32 vForm) 5 0x7FFFFFFF 1 5 16 = true := by decide +kernel
/-- One rounding: the exact value is −2^-46. -/
theorem test_vfma : lane (.vfmaF32 vForm) 0xBF800000 0x3F800001 0x3F7FFFFE 0xA8800000 0 = true := by decide +kernel
/-- The conversions worked after R202: to BF16 part 1 (element 64, governed by mask bit 0), and to BP16. -/
theorem test_vcvtBf : lane (.vcvtBf ⟨1, 7, 6, 0x31, false⟩) 0 0x3F818000 0 0x3F82 1 = true := by decide +kernel
theorem test_vcvtBp : lane (.vcvtBp ⟨1, 7, 6, 0x11, false⟩) 0 0x447A0000 0 0x04F8 0 = true ∧
    lane (.vcvtBp ⟨1, 7, 6, 0x11, false⟩) 0 0x42530000 0 0x0035 1 = true ∧ lane (.vcvtBp ⟨1, 7, 6, 0x11, false⟩) 0 0x471C4000 0 0x7777 17 = true := by
  decide +kernel
theorem test_vcvtF32 : lane (.vcvtF32 ⟨1, 7, 6, 0x08, false⟩) 0 0xF6 0 0xC1200000 0 = true := by decide +kernel
/-! ## Litmus: the examples after R87 -/

/-- X, Y, F and the sequencers of cores 0.1 and 4.2. -/
def litX : Nat := 0x10000001000
def litY : Nat := 0x10000002000
def litF : Nat := 0x10000003000
def p0 : Agent := .eng 2 0
def p1 : Agent := .eng 132 0
/-- An access of one byte. -/
def evOf (g : Agent) (k : Kind) (rd : Bool) (a : Nat) : Ev := ⟨g, k, rd, !rd, a, 1, [], none, none, none, false, 0⟩
def plainEv (g : Agent) (rd : Bool) (a : Nat) (c : BitVec 4) : Ev := evOf g (.plain c) rd a
def relEv (g : Agent) (a : Nat) (s : Scope) (m : BitVec 16) : Ev := evOf g (.release s m) false a
def acqEv (g : Agent) (a : Nat) (s : Scope) (m : BitVec 16) : Ev := evOf g (.acquire s m) true a
def scEv (g : Agent) (rd : Bool) (a : Nat) (t : Nat) : Ev := evOf g (.wheel t) rd a
def noEv (g : Agent) (k : Kind) : Ev := ⟨g, k, false, false, 0, 0, [], none, none, none, false, 0⟩
def fenceEv (g : Agent) : Ev := noEv g .silent
def fenceCEv (g : Agent) (s : Scope) (m : BitVec 16) : Ev := noEv g (.fenceC s m)
def fenceXEv (g : Agent) (s : Scope) (m : BitVec 8) : Ev := noEv g (.fenceX s m)
def run (evs : List Ev) (rf : List ((Nat × Nat) × Option Nat)) (co : List (Nat × List Nat)) : Bool := (Execution.mk evs rf co).allowed
/-- Message passing with s7 = 1 and s8 = 0, with the release's and the acquire's scope and mask, and a fence or none. -/
def mp (s : Scope) (m n : BitVec 16) (f : Bool) : Bool :=
  run [plainEv p0 false litX 1, if f then fenceCEv p0 s 6 else fenceEv p0, relEv p0 litF s m, acqEv p1 litF s n, plainEv p1 true litX 2]
    [((3, litF), some 2), ((4, litX), none)] [(litX, [0]), (litF, [2])]
theorem litmus_message_passing :
    mp .dev 2 4 false = false ∧ mp .dev 4 4 false = true ∧ mp .dev 4 4 true = false ∧ mp .dev 2 2 false = true ∧ mp .clu 2 4 false = true := by decide +kernel
/-- Store buffering: both loads return 0. -/
def sb (e0 e1 e2 e3 : Ev) : Bool := run [e0, e1, e2, e3] [((1, litY), none), ((3, litX), none)] [(litX, [0]), (litY, [2])]
theorem litmus_store_buffering :
    sb (scEv p0 false litX 5) (scEv p0 true litY 9) (scEv p1 false litY 7) (scEv p1 true litX 11) = false ∧
      sb (plainEv p0 false litX 0) (plainEv p0 true litY 0) (plainEv p1 false litY 0) (plainEv p1 true litX 0) = true ∧
      sb (relEv p0 litX .dev 1) (acqEv p0 litY .dev 1) (relEv p1 litY .dev 1) (acqEv p1 litX .dev 1) = true := by decide +kernel
/-- A copy's payload X and completion word F, the wait for it, the push and the matrix engine's read of the old X. -/
def cpAgent : Agent := .eng 70 3
def sqAgent : Agent := .eng 70 0
def mxAgent : Agent := .eng 70 2
def cpMx (first : Bool) (w : Ev) : Bool :=
  let push := fenceEv sqAgent
  run [evOf cpAgent .other false litX, evOf cpAgent (.copyDone false) false litF,
      if first then w else push, if first then push else w, { evOf mxAgent .other true litX with pushed := some (if first then 3 else 2) }]
    [((if first then 2 else 3, litF), some 1), ((4, litX), none)] [(litX, [0]), (litF, [1])]
theorem litmus_copy_feeds_matrix :
    cpMx true (acqEv sqAgent litF .dev 0xFFFF) = false ∧ cpMx false (acqEv sqAgent litF .dev 0xFFFF) = true ∧
      cpMx true (plainEv sqAgent true litF 0) = true ∧ cpMx true (acqEv sqAgent litF .core 0xFFFF) = false := by decide +kernel
/-- A mill's tile row X and row counter F, the wait at scope `s`, the push of the binding, the copy engine's read of the old X. -/
def rowCounter (s : Scope) : Bool :=
  run [evOf (.mill 1) (.tile 3 9) false litX, evOf (.mill 1) (.rowCount 3 9) false litF,
      acqEv sqAgent litF s 0xFFFF, fenceEv sqAgent, { evOf cpAgent .other true litX with pushed := some 3 }]
    [((2, litF), some 1), ((4, litX), none)] [(litX, [0]), (litF, [1])]
theorem litmus_row_counter : rowCounter .dev = false ∧ rowCounter .clu = true := by decide +kernel
/-- A pool store, a fence, the push and the matrix engine's read of the byte before the store. -/
def handOff (f : Ev) : Bool :=
  run [plainEv sqAgent false litX 3, f, fenceEv sqAgent, { evOf mxAgent .other true litX with pushed := some 2 }] [((3, litX), none)] [(litX, [0])]
theorem litmus_pool_hand_off :
    handOff (fenceEv sqAgent) = true ∧ handOff (fenceXEv sqAgent .core 5) = false ∧ handOff (fenceXEv sqAgent .core 6) = true ∧ handOff (fenceCEv sqAgent .core 8) = true := by decide +kernel
/-- A store and a later load of another class that overlaps it, which returns the old value. -/
theorem litmus_overlap :
    run [plainEv p0 false litX 1, plainEv p0 true litX 9] [((1, litX), none)] [(litX, [0])] = false := by decide +kernel
/-- A whole-block read takes one plane of a whole-block write and one from before it (R43). -/
theorem litmus_block :
    (Execution.mk [{ evOf cpAgent .other false litX with len := 64 }, { evOf mxAgent .other true litX with len := 64 }]
      ((span litX 64).map fun b => ((1, b), if b = litX then some 0 else none)) ((span litX 64).map fun b => (b, [0]))).atomic = false := by decide +kernel
/-- Message passing, its data read twice, then two `.sc` loads of a byte that a `.sc` store of an earlier clock made. -/
def litRun : Execution := sequential [plainEv p0 false litX 1, relEv p0 litF .dev 2, acqEv p1 litF .dev 4, plainEv p1 true litX 2,
  plainEv p1 true litX 2, scEv p0 false litY 5, scEv p1 true litY 9, scEv p1 true litY 10]
/-- Four accesses of four bytes whose reads of `a` and `b` return what event 1 wrote, or nothing. -/
def litFour (evs : List Ev) (rf : List ((Nat × Nat) × Option Nat)) : Execution := ⟨evs, rf, []⟩
theorem witness_RuledOutExecutions :
    (litRun.allowed = true ∧ litRun.po 3 4 = true ∧ litX ∈ (litRun.ev 3).reads ∧ litX ∈ (litRun.ev 4).reads ∧ 4 < litRun.evs.length) ∧
    (litRun.src 3 litX = some 0 ∧ litRun.hb [p1, p0, p0] 1 3 = true ∧ (litRun.ev 1).agent = p0 ∧ (litRun.ev 0).agent = p0 ∧ (litRun.ev 3).agent = p1) ∧
    ((litRun.ev 6).kind = .wheel 9 ∧ (litRun.ev 7).kind = .wheel 10 ∧ litY ∈ (litRun.ev 6).reads ∧ litY ∈ (litRun.ev 7).reads ∧
      (litRun.ev 5).kind = .wheel 5 ∧ litY ∈ (litRun.ev 5).writes ∧ ∀ k < litRun.evs.length, (litRun.ev k).agent ≠ .outside) ∧
    inScope .dev (.eng 2 0) (.eng 132 0) = true ∧ (2 : BitVec 16).getLsbD (1 : BitVec 4).toNat = true ∧
    (let x := litFour [access 2 (.plain 1) true litX, access 2 (.release .dev 2) true litF, access 132 (.acquire .dev 2) false litF,
        access 132 (.plain 1) false litX] [((2, litF), some 1), ((3, litX), none)]
     x.src 2 litF = some 1 ∧ x.src 3 litX = none) ∧
    (let x := litFour [access 2 (.wheel 1) true litX, access 2 (.wheel 3) false litY, access 132 (.wheel 2) true litY, access 132 (.wheel 4) false litX]
       [((1, litY), none), ((3, litX), none)]
     x.src 1 litY = none ∧ x.src 3 litX = none) ∧
    (let x := litFour [blockAccess cpAgent true (64 * 3) 64, blockAccess mxAgent false (64 * 3) 64] [((1, 194), some 0), ((1, 200), none)]
     64 ∈ [16, 32, 64] ∧ x.src 1 (64 * 3 + 2) = some 0 ∧ x.src 1 (64 * 3 + 8) = none) := by
  and_intros <;> decide +kernel
theorem witness_SequentialExecutionsAreAllowed :
    forward [plainEv p0 false litX 1, relEv p0 litF .dev 2, acqEv p1 litF .dev 4, plainEv p1 true litX 2, scEv p1 true litY 9] = true := by decide +kernel

end Sys2Proof.Tests
end

/-! Settles O47: what a device reset, reduced service and full service do. -/

namespace Sys2Proof.Proofs

open Sys2Proof.Machine Sys2Proof.Claims

/-! ## Events of bring-up are run by their meanings -/

theorem exec_deviceReset (i j : FwImage) (s : State) : exec (.deviceReset i j) s = execDeviceReset i j s := rfl
theorem exec_reducedService (s : State) : exec .reducedService s = execReducedService s := rfl
theorem exec_fullService (c : ServiceCfg) (s : State) : exec (.fullService c) s = execFullService c s := rfl

/-! ## The host access map (R384) -/

/-- Writing a list of entries leaves every index it does not name. -/
theorem tabGet_foldl_tabSet_of_not_mem {α : Type} (d : α) {n : Nat} {l : List (Nat × α)} (h : ∀ p ∈ l, p.1 ≠ n) (t : Tab α) :
    tabGet d (l.foldl (fun t p => tabSet t p.1 p.2) t) n = tabGet d t n := by
  induction l generalizing t with
  | nil => rfl
  | cons p r ih =>
    rw [List.foldl_cons, ih fun q hq => h q (by simp [hq]), tabGet_tabSet_ne _ _ _ (h p (by simp)).symm]

/-- An index that a list names with one value only reads that value. -/
theorem tabGet_foldl_tabSet_of_mem {α : Type} (d : α) {n : Nat} {v : α} {l : List (Nat × α)} (hm : (n, v) ∈ l)
    (hu : ∀ w, (n, w) ∈ l → w = v) (t : Tab α) : tabGet d (l.foldl (fun t p => tabSet t p.1 p.2) t) n = v := by
  induction l generalizing t with
  | nil => simp at hm
  | cons p r ih =>
    rw [List.foldl_cons]
    by_cases hr : (n, v) ∈ r
    · exact ih hr (fun w hw => hu w (by simp [hw])) _
    · have hp : p = (n, v) := by simpa [hr, eq_comm] using hm
      have hn : ∀ q ∈ r, q.1 ≠ n := by
        rintro ⟨k, w⟩ hq rfl
        exact hr (hu w (by simp [hq]) ▸ hq)
      rw [tabGet_foldl_tabSet_of_not_mem d hn, hp, tabGet_tabSet_same]

/-- A state that holds the map of firmware has the host access map the spec describes. -/
theorem mapIs_of_hostMap {t : State} {map : List (Nat × BitVec 2)} (h : t.hostMap = hostMapOf map) : mapIs t map := by
  refine ⟨fun n v hm hu => ?_, fun n hn => ?_⟩
  · rw [h]; exact tabGet_foldl_tabSet_of_mem 0 hm hu []
  · rw [h]; exact tabGet_foldl_tabSet_of_not_mem 0 (fun p hp e => hn p.2 (by rw [← e]; exact hp)) []

/-! ## Booting (R387, R389) -/

/-- The boot ROM takes a copy exactly when it passes the checks of R387 and R389. -/
theorem imgOk_iff_copyOk (s : State) (i : FwImage) : s.imgOk i = true ↔ copyOk s i := by
  have h : s.imgOk i = true ↔ (((Config.fuseSlot 0).2 = false ∧ (Config.fuseSlot 0).1 = sm3 i.key) ∧
      sm2Verify i.key i.image i.sig = true) ∧ s.fuseMin.toNat ≤ i.ver.toNat := by
    simp only [State.imgOk, fwSigned, slotKey, Bool.and_eq_true, Bool.not_eq_true', beq_iff_eq, decide_eq_true_eq]
  rw [h, copyOk, State.fuseMin]
  tauto

/-- What a table reads at a listed index after every value of it was changed. -/
theorem tabGet_map_of_mem {α : Type} (d : α) (f : α → α) {t : Tab α} {i : Nat} (h : ∃ a, (i, a) ∈ t) :
    tabGet d (t.map fun p => (p.1, f p.2)) i = f (tabGet d t i) := by
  induction t with
  | nil => simp at h
  | cons p r ih =>
    obtain ⟨j, u⟩ := p
    simp only [List.map_cons, tabGet]
    split
    · rfl
    · next hj => exact ih (by obtain ⟨a, ha⟩ := h; exact ⟨a, by simpa [Ne.symm hj] using ha⟩)

/-- Every part at its reset value, but for the fuses and what was measured; the model's own fields stay (R4, R396). -/
def resetState (s : State) : State :=
  { State.reset with
    agenda := s.agenda, phase := s.phase, focus := s.focus, lnFocus := s.lnFocus, free := s.free, out := s.out, minVer := s.minVer,
    tj := s.tj, ages := s.ages.map fun a => (a.1, a.2.kept) }

/-- The state after a boot of copy `n`, with image `i`. -/
def bootedState (s : State) (n : BitVec 3) (i : FwImage) : State :=
  { resetState s with boot := n, imgver := i.ver, tsver := i.tsver, fwdig := sm3 i.image, hostMap := hostMapOf i.map }

/-- The state in which no copy passed (R389). -/
def recoveryState (s : State) : State := { resetState s with boot := 7, phaseDev := 3 }

theorem execDeviceReset_eq (i j : FwImage) (s : State) :
    execDeviceReset i j s =
      .next (if s.imgOk i then bootedState s 1 i else if s.imgOk j then bootedState s 2 j else recoveryState s) := rfl

/-- What every outcome of a device reset has in common (R4). -/
structure IsReset (s t : State) : Prop where
  mem : t.mem = []
  ctxs : t.ctxs = []
  timeU : t.timeU = 0
  hold : t.hold = true
  lock : t.lock = false
  queues : t.queues = []
  launches : t.launches = []
  faults : t.faults = []
  streams : t.streams = []
  rules : t.rules = []
  almanac : t.almanac = []
  cores : t.cores = []
  links : t.links = []
  mxcap : t.mxcap = 0xFF
  sint : t.sint = 0
  rsvw : t.rsvw = 0
  minVer : t.minVer = s.minVer
  tj : t.tj = s.tj
  ages : t.ages = s.ages.map fun a => (a.1, a.2.kept)

theorem isReset_bootedState (s : State) (n : BitVec 3) (i : FwImage) : IsReset s (bootedState s n i) := by
  constructor <;> rfl

theorem isReset_recoveryState (s : State) : IsReset s (recoveryState s) := by constructor <;> rfl

theorem isReset_outcome (s : State) (i j : FwImage) :
    IsReset s (if s.imgOk i then bootedState s 1 i else if s.imgOk j then bootedState s 2 j else recoveryState s) := by
  split
  · exact isReset_bootedState s 1 i
  · split
    · exact isReset_bootedState s 2 j
    · exact isReset_recoveryState s

/-- A reset keeps the margins measured and resets the limit (R4, R396). -/
theorem IsReset.age {s t : State} (h : IsReset s t) {cl : Nat} (hc : ∃ a, (cl, a) ∈ s.ages) : t.age cl = (s.age cl).kept := by
  rw [State.age, h.ages, tabGet_map_of_mem _ _ hc]; rfl

/-! ## Service (R392) -/

/-- Firmware gives cluster 0 to partition 0 and none to any other. -/
def clusterPart (s : State) (p : Nat) : State :=
  s.setPart p { s.part p with pclu := (s.part p).pclu &&& ~~~(0xFFF : W64) ||| (if p = 0 then 1 else 0) }

theorem clusterPart_part_ne (s : State) {p k : Nat} (h : k ≠ p) : (clusterPart s p).part k = s.part k :=
  tabGet_tabSet_ne _ _ _ h

theorem clusterPart_clust (s : State) (p : Nat) : ((clusterPart s p).part p).clust = if p = 0 then 1 else 0 := by
  have low (x c : W64) : bitsOf (x &&& ~~~(0xFFF : W64) ||| c).toNat 11 0 = (c.setWidth 12).toNat := by
    have h : (x &&& ~~~(0xFFF : W64) ||| c).setWidth 12 = c.setWidth 12 := by
      rw [BitVec.setWidth_or, BitVec.setWidth_and, show (~~~(0xFFF : W64)).setWidth 12 = 0#12 from rfl, BitVec.and_zero,
        BitVec.zero_or]
    rw [← h, BitVec.toNat_setWidth, bitsOf, Nat.pow_zero, Nat.div_one]
  rw [clusterPart, State.part_setPart_same, Part.clust, low]
  split <;> rfl

/-- The passes over partitions give each its clusters. -/
theorem foldl_clusterPart_clust {l : List Nat} (hl : l.Nodup) {p : Nat} (s : State) (hp : p ∈ l) :
    ((l.foldl clusterPart s).part p).clust = if p = 0 then 1 else 0 := by
  have keep : ∀ (r : List Nat) (s : State), p ∉ r → (r.foldl clusterPart s).part p = s.part p := by
    intro r
    induction r with
    | nil => intros; rfl
    | cons k r ih =>
      intro s h
      obtain ⟨hk, hr⟩ := (by simpa using h : ¬ p = k ∧ p ∉ r)
      rw [List.foldl_cons, ih _ hr, clusterPart_part_ne _ hk]
  induction l generalizing s with
  | nil => simp at hp
  | cons k r ih =>
    obtain ⟨hk, hr⟩ := List.nodup_cons.mp hl
    rw [List.foldl_cons]
    rcases List.mem_cons.mp hp with rfl | hm
    · rw [keep r _ hk, clusterPart_clust]
    · exact ih hr _ hm

/-- The passes over partitions change nothing but the partitions. -/
theorem foldl_clusterPart_eq (l : List Nat) (s : State) : l.foldl clusterPart s = { s with parts := (l.foldl clusterPart s).parts } := by
  induction l generalizing s with
  | nil => rfl
  | cons k r ih => rw [List.foldl_cons, ih]; rfl

/-- Reduced service after a boot (R392). -/
theorem reducedService_runs {s : State} (h0 : s.phaseDev = 0) (h7 : s.boot ≠ 7) :
    ∃ t, exec .reducedService s = .next t ∧ t.hostMap = s.hostMap ∧ t.phaseDev = 1 ∧ t.mxcapNow = 0 ∧ t.clkStep = 0 ∧ t.mem = s.mem ∧
      ∀ p < 8, (t.part p).clust = if p = 0 then 1 else 0 := by
  have hrun : execReducedService s = .next { (List.range 8).foldl clusterPart s with
      phaseDev := 1, mxcap := 0, mxcapNew := none, mxcapCfg := 0, clkStep := 0, clkStepNew := none, clkStepCfg := 0 } :=
    if_pos ⟨h0, h7⟩
  refine ⟨_, (exec_reducedService s).trans hrun, ?_, rfl, rfl, rfl, ?_, fun p hp => ?_⟩
  · rw [foldl_clusterPart_eq]
  · rw [foldl_clusterPart_eq]
  · exact foldl_clusterPart_clust List.nodup_range s (List.mem_range.mpr hp)

/-- Full service after reduced service (R384, R392). -/
theorem fullService_runs {s : State} (h1 : s.phaseDev = 1) (v : Byte) (map : List (Nat × BitVec 2)) :
    ∃ t, exec (.fullService ⟨v, map⟩) s = .next t ∧ mapIs t map ∧ t.phaseDev = 2 ∧ t.mxcapNow = v ∧ t.mem = s.mem ∧
      t.parts = s.parts := by
  have hrun : execFullService ⟨v, map⟩ s =
      .next { s.setMxcap v with phaseDev := 2, mxcapCfg := v, hostMap := hostMapOf map } := by
    rw [execFullService, if_pos h1]
  exact ⟨_, (exec_fullService _ s).trans hrun, mapIs_of_hostMap rfl, rfl, rfl, rfl, rfl⟩

/-- A device reset: every part at its reset value but the measured ones, and the boot's outcome (R4, R387, R389). -/
theorem deviceReset_runs (s : State) (i j : FwImage) :
    ∃ t, exec (.deviceReset i j) s = .next t ∧ IsReset s t ∧
      (copyOk s i → t = bootedState s 1 i) ∧ (¬ copyOk s i → copyOk s j → t = bootedState s 2 j) ∧
      (¬ copyOk s i → ¬ copyOk s j → t = recoveryState s) := by
  refine ⟨_, (exec_deviceReset i j s).trans (execDeviceReset_eq i j s), isReset_outcome s i j, ?_, ?_, ?_⟩ <;> simp only [← imgOk_iff_copyOk]
  · intro hi; rw [if_pos hi]
  · intro hi hj; rw [if_neg hi, if_pos hj]
  · intro hi hj; rw [if_neg hi, if_neg hj]

/-- Settles O47: the reset's outcome by the two copies' checks, then one lemma for each of the two service phases. -/
theorem resetBootsAndBringsUp : Obligations.ResetBootsAndBringsUp := by
  unfold Obligations.ResetBootsAndBringsUp
  refine fun s => ⟨fun i j => ?_, reducedService_runs, fun v map h1 => fullService_runs h1 v map⟩
  obtain ⟨t, hrun, hr, h1, h2, h7⟩ := deviceReset_runs s i j
  refine ⟨t, hrun, hr.mem, hr.ctxs, hr.timeU, hr.hold, hr.lock, hr.queues, hr.launches, hr.faults, hr.streams, hr.rules, hr.almanac,
    hr.cores, hr.links, hr.mxcap, hr.sint, hr.rsvw, hr.minVer, hr.tj, fun cl hc => ?_, fun hi => ?_, fun hi hj => ?_, fun hi hj => ?_⟩
  · rw [hr.age hc]
    exact ⟨rfl, rfl, rfl⟩
  · rw [h1 hi]
    exact ⟨rfl, rfl, rfl, rfl, rfl, mapIs_of_hostMap rfl⟩
  · rw [h2 hi hj]
    exact ⟨rfl, rfl, rfl, rfl, rfl, mapIs_of_hostMap rfl⟩
  · rw [h7 hi hj]
    exact ⟨rfl, rfl⟩

end Sys2Proof.Proofs


/-! Settles O51: what the registers of BAR0 read as and what a write does. -/

namespace Sys2Proof.Proofs

open Sys2Proof.Machine Sys2Proof.Claims

/-! ## Events of the host and of firmware are run by their meanings -/

theorem exec_hostBarRead (bar : Bar) (off : Nat) (len : HostLen) (s : State) :
    exec (.hostBarRead bar off len) s = execHostBarRead bar off len s := rfl
theorem exec_hostBarWrite (bar : Bar) (off : Nat) (data : List Byte) (s : State) :
    exec (.hostBarWrite bar off data) s = execHostBarWrite bar off data s := rfl
theorem exec_registerWrite (fw : Bool) (off : BitVec 20) (v : W64) (s : State) :
    exec (.registerWrite fw off v) s = execRegisterWrite fw off v s := rfl
theorem exec_readreg (off : W32) (s : State) : exec (.readreg off) s = execReadreg off s := rfl
theorem exec_doorbell (q : QId) (v : W32) (s : State) : exec (.doorbell q v) s = execDoorbell q v s := rfl
theorem exec_xheadWrite (q : QId) (v : W32) (s : State) : exec (.xheadWrite q v) s = execXheadWrite q v s := rfl

/-! ## Bytes of words (R1) -/

/-- The little-endian bytes of a number, by their places. -/
theorem leBytes_eq_map (n x : Nat) : leBytes n x = (List.range n).map fun i => BitVec.ofNat 8 (x / 256 ^ i) := by
  induction n generalizing x with
  | zero => rfl
  | succ n ih =>
    rw [leBytes, ih, List.range_succ_eq_map, List.map_cons, List.map_map, Nat.pow_zero, Nat.div_one]
    congr 1
    refine List.map_congr_left fun i _ => ?_
    rw [Function.comp_apply, Nat.pow_succ', Nat.div_div_eq_div_mul]

/-- Eight bytes of a number are those of its low 64 bits. -/
theorem leBytes_eight_ofNat (v : Nat) : leBytes 8 (BitVec.ofNat 64 v).toNat = leBytes 8 v := by
  rw [leBytes_eq_map, leBytes_eq_map]
  refine List.map_congr_left fun i hi => BitVec.eq_of_toNat_eq ?_
  have : i < 8 := List.mem_range.mp hi
  simp only [BitVec.toNat_ofNat]
  interval_cases i <;> omega

/-- A word of two fields as a number. -/
theorem append_eq_ofNat {n m : Nat} (hi : BitVec n) (lo : BitVec m) :
    hi ++ lo = BitVec.ofNat (n + m) (2 ^ m * hi.toNat + lo.toNat) := by
  apply BitVec.eq_of_toNat_eq
  have hlt : 2 ^ m * hi.toNat + lo.toNat < 2 ^ (n + m) := by
    have h := (hi ++ lo).isLt
    rwa [BitVec.toNat_append, ← Nat.shiftLeft_add_eq_or_of_lt lo.isLt, Nat.shiftLeft_eq, Nat.mul_comm] at h
  rw [BitVec.toNat_append, ← Nat.shiftLeft_add_eq_or_of_lt lo.isLt, Nat.shiftLeft_eq, Nat.mul_comm, BitVec.toNat_ofNat,
    Nat.mod_eq_of_lt hlt]

/-! ## Where registers lie (R385) -/

theorem regAt_queue {q r : Nat} (hq : q < 64) (hr : r < 0x100) : regAt (0x10000 + r + 0x100 * q) = queueReg q r := by
  have h1 : (0x10000 + r + 0x100 * q) / 0x10000 = 1 := by omega
  have h2 : (0x10000 + r + 0x100 * q) % 0x10000 = r + 0x100 * q := by omega
  have h3 : r + 0x100 * q < 0x4000 := by omega
  simp only [regAt, h1, h2, schedReg, if_pos h3]
  congr 1 <;> omega

theorem regAt_core {g : Nat} (hg : g < 192) : regAt (0x20100 + 8 * g) = some (.mxcore g) := by
  have h1 : (0x20100 + 8 * g) / 0x10000 = 2 := by omega
  have h2 : (0x20100 + 8 * g) % 0x10000 = 0x100 + 8 * g := by omega
  have h3 : 0x100 ≤ 0x100 + 8 * g ∧ 0x100 + 8 * g < 0x700 := by omega
  simp only [regAt, h1, h2, if_pos h3, show ¬ 0x100 + 8 * g = 0 by omega, if_false,
    show (0x100 + 8 * g - 0x100) / 8 = g by omega]

theorem regAt_age {c : Nat} (hc : c < 12) : regAt (0x70900 + 8 * c) = some (.age c) := by
  have h1 : (0x70900 + 8 * c) / 0x10000 = 7 := by omega
  have h2 : (0x70900 + 8 * c) % 0x10000 = 0x900 + 8 * c := by omega
  have h3 : 0x900 ≤ 0x900 + 8 * c ∧ 0x900 + 8 * c < 0x960 := by omega
  simp only [regAt, h1, h2, healthReg, if_pos h3, show ¬ 0x900 + 8 * c = 0 by omega, show ¬ 0x900 + 8 * c < 0x700 by omega,
    show ¬ 0x900 + 8 * c < 0x880 by omega, and_false, if_false, show (0x900 + 8 * c - 0x900) / 8 = c by omega]

/-- The registers of a stream (R333). -/
theorem regAt_stream {i : Nat} (hi : i < 128) :
    regAt (0x30000 + 0x40 * i) = some (.sframe i) ∧ regAt (0x30008 + 0x40 * i) = some (.scnta i) ∧
      regAt (0x30018 + 0x40 * i) = some (.scntc i) ∧ regAt (0x30028 + 0x40 * i) = some (.sstat i) := by
  have block (r : Nat) (hr : r < 0x40) : regAt (0x30000 + r + 0x40 * i) = ingressReg (r + 0x40 * i) := by
    have h1 : (0x30000 + r + 0x40 * i) / 0x10000 = 3 := by omega
    have h2 : (0x30000 + r + 0x40 * i) % 0x10000 = r + 0x40 * i := by omega
    simp only [regAt, h1, h2]
  have place (r : Nat) (hr : r < 0x40) : (r + 0x40 * i) / 0x40 = i ∧ (r + 0x40 * i) % 0x40 = r := by omega
  have hi' : ¬ 128 ≤ i := by omega
  refine ⟨(block 0 (by decide)).trans ?_, (block 8 (by decide)).trans ?_, (block 0x18 (by decide)).trans ?_,
    (block 0x28 (by decide)).trans ?_⟩ <;>
  simp only [ingressReg, place, Nat.reduceLT, hi', if_false]

/-- The registers of a fuse rule (R352). -/
theorem regAt_rule {q : Nat} (hq : q < 64) :
    regAt (0x40108 + 0x20 * q) = some (.alrb q) ∧ regAt (0x40110 + 0x20 * q) = some (.alrc q) ∧
      regAt (0x40118 + 0x20 * q) = some (.alrd q) := by
  have block (r : Nat) (hr : r < 0x20) : regAt (0x40100 + r + 0x20 * q) = alignReg (0x100 + r + 0x20 * q) := by
    have h1 : (0x40100 + r + 0x20 * q) / 0x10000 = 4 := by omega
    have h2 : (0x40100 + r + 0x20 * q) % 0x10000 = 0x100 + r + 0x20 * q := by omega
    simp only [regAt, h1, h2]
  have place (r : Nat) (hr : r < 0x20) : (0x100 + r + 0x20 * q - 0x100) / 0x20 = q ∧ (0x100 + r + 0x20 * q) % 0x20 = r ∧
      ¬ 0x100 + r + 0x20 * q = 0 ∧ 0x100 ≤ 0x100 + r + 0x20 * q ∧ 0x100 + r + 0x20 * q < 0x900 := by omega
  refine ⟨(block 8 (by decide)).trans ?_, (block 0x10 (by decide)).trans ?_, (block 0x18 (by decide)).trans ?_⟩ <;>
  simp only [alignReg, place, Nat.reduceLT, and_self, if_true, if_false]

/-- Word `w` of an almanac entry (R352). -/
theorem regAt_almanac {i e w : Nat} (hi : i < 128) (he : e < 4) (hw : w < 6) :
    regAt (0x41000 + (0x40 * e + 8 * w) + 0x100 * i) = some (.alme i e w) := by
  have h1 : (0x41000 + (0x40 * e + 8 * w) + 0x100 * i) / 0x10000 = 4 := by omega
  have h2 : (0x41000 + (0x40 * e + 8 * w) + 0x100 * i) % 0x10000 = 0x1000 + (0x40 * e + 8 * w) + 0x100 * i := by omega
  generalize ho : 0x1000 + (0x40 * e + 8 * w) + 0x100 * i = o at h2
  have h3 : ¬ o = 0 ∧ ¬ o < 0x900 ∧ 0x1000 ≤ o ∧ o < 0x9000 := by omega
  have h4 : o % 0x40 < 0x30 ∧ (o - 0x1000) / 0x100 = i ∧ o % 0x100 / 0x40 = e ∧ o % 0x40 / 8 = w := by omega
  simp only [regAt, h1, h2, alignReg, h3, h4, and_false, and_self, if_true, if_false]

/-- The registers of a Thrumol port (R266). -/
theorem regAt_link {p : Nat} (hp : p < 2) :
    regAt (0x50000 + 0x100 * p) = some (.lkstat p) ∧ regAt (0x50008 + 0x100 * p) = some (.lkcnt p) ∧
      regAt (0x50018 + 0x100 * p) = some (.lkinjc p) := by
  have : p = 0 ∨ p = 1 := by omega
  rcases this with rfl | rfl <;> exact ⟨rfl, rfl, rfl⟩

/-! ## What registers read as -/

/-- A row of the statement: the eight bytes at BAR0 offset `row.1` read as the number `row.2`. -/
def ReadsAs (s : State) (row : Nat × Nat) : Prop := row.1 % 8 = 0 ∧ row.1 < 2 ^ 20 ∧ s.barWord row.1 = BitVec.ofNat 64 row.2

/-- A register reads as its value. -/
theorem readsAs_reg {s : State} {off v : Nat} {r : BarReg} (h8 : off % 8 = 0) (hlt : off < 2 ^ 20) (hr : regAt off = some r)
    (hv : s.regRead r = BitVec.ofNat 64 v) : ReadsAs s (off, v) :=
  ⟨h8, hlt, by simp only [State.barWord, hr, hv]⟩

/-- What no block defines reads as zero (R385). -/
theorem readsAs_none {s : State} {off : Nat} (h8 : off % 8 = 0) (hlt : off < 2 ^ 20) (hr : regAt off = none) : ReadsAs s (off, 0) :=
  ⟨h8, hlt, by simp only [State.barWord, hr]; rfl⟩

/-- A register that holds a word of its own. -/
theorem word_eq_ofNat (v : W64) : v = BitVec.ofNat 64 v.toNat := by simp

theorem zeroExtend_eq_ofNat {n : Nat} (v : BitVec n) : v.zeroExtend 64 = BitVec.ofNat 64 v.toNat := by simp

/-- Every register listed reads as the statement says (R3, R18, R266, R277, R333, R352, R355, R381, R386, R396). -/
theorem regRows_readAs (s : State) (q : QId) (i : Fin 128) (r : Fin 64) (p : Fin 2) (g : CoreId) (c : Fin 12) :
    ∀ row ∈ regRows s q i r p g c, ReadsAs s row := by
  have hq := q.isLt
  have hi := i.isLt
  have hg : g.val < 192 := g.isLt
  obtain ⟨hs0, hs1, hs2, hs3⟩ := regAt_stream i.isLt
  obtain ⟨hrb, hrc, hrd⟩ := regAt_rule r.isLt
  obtain ⟨hl0, hl1, hl2⟩ := regAt_link p.isLt
  simp only [regRows, List.forall_mem_cons, List.not_mem_nil, false_implies, implies_true, and_true]
  refine ⟨readsAs_reg rfl (by decide) (r := .tbnow) rfl (word_eq_ofNat _),
    readsAs_reg rfl (by decide) (r := .tbstat) rfl (congrArg (BitVec.ofNat 64) (by ring)),
    readsAs_reg (by omega) (by omega) (regAt_queue (r := 0) hq (by decide)) (word_eq_ofNat _),
    readsAs_reg (by omega) (by omega) (regAt_queue (r := 0x18) hq (by decide)) (append_eq_ofNat _ _),
    readsAs_reg (by omega) (by omega) (regAt_queue (r := 0x38) hq (by decide)) (zeroExtend_eq_ofNat _),
    readsAs_reg (by omega) (by omega) (regAt_queue (r := 0x10) hq (by decide)) rfl,
    readsAs_reg (by omega) (by omega) (regAt_queue (r := 0x50) hq (by decide)) (word_eq_ofNat _),
    readsAs_reg rfl (by decide) (r := .fwst) rfl (congrArg (BitVec.ofNat 64) (by ring)),
    readsAs_reg rfl (by decide) (r := .mxcap) rfl (zeroExtend_eq_ofNat _),
    readsAs_reg (by omega) (by omega) (regAt_core hg) (congrArg (BitVec.ofNat 64) (by ring)),
    readsAs_reg (by omega) (by omega) hs0 (word_eq_ofNat _),
    readsAs_reg (by omega) (by omega) hs1 (append_eq_ofNat _ _),
    readsAs_reg (by omega) (by omega) hs2 (append_eq_ofNat _ _),
    readsAs_reg (by omega) (by omega) hs3 (congrArg (BitVec.ofNat 64) (by ring)),
    readsAs_reg rfl (by decide) (r := .alstat) rfl (append_eq_ofNat _ _),
    readsAs_reg (by omega) (by omega) hrb (word_eq_ofNat _),
    readsAs_reg (by omega) (by omega) hrc (word_eq_ofNat _),
    readsAs_reg (by omega) (by omega) hrd (append_eq_ofNat _ _),
    readsAs_reg (by omega) (by omega) (regAt_almanac (e := 0) (w := 0) hi (by decide) (by decide)) (word_eq_ofNat _),
    readsAs_reg (by omega) (by omega) (regAt_almanac (e := 1) (w := 1) hi (by decide) (by decide)) (word_eq_ofNat _),
    readsAs_reg (by omega) (by omega) hl0 (congrArg (BitVec.ofNat 64) (by ring)),
    readsAs_reg (by omega) (by omega) hl1 (append_eq_ofNat _ _),
    readsAs_reg (by omega) (by omega) hl2 (zeroExtend_eq_ofNat _),
    readsAs_reg rfl (by decide) (r := .dstat) rfl (congrArg (BitVec.ofNat 64) (by ring)),
    readsAs_reg rfl (by decide) (r := .dcnt) rfl (append_eq_ofNat _ _),
    readsAs_reg rfl (by decide) (r := .sint) rfl (zeroExtend_eq_ofNat _),
    readsAs_reg rfl (by decide) (r := .sien) rfl (congrArg (BitVec.ofNat 64) (by ring)),
    readsAs_reg rfl (by decide) (r := .hwbase) rfl (word_eq_ofNat _),
    readsAs_reg rfl (by decide) (r := .hcnt) rfl (zeroExtend_eq_ofNat _),
    readsAs_reg rfl (by decide) (r := .stageReg) rfl ((append_eq_ofNat _ _).trans (congrArg (BitVec.ofNat 64) (by ring))),
    readsAs_reg rfl (by decide) (r := .clkst) rfl (congrArg (BitVec.ofNat 64) (by ring)),
    readsAs_reg (by omega) (by omega) (regAt_age c.isLt) (congrArg (BitVec.ofNat 64) (by ring)),
    readsAs_none rfl (by decide) rfl,
    readsAs_none rfl (by decide) rfl⟩

/-- Eight aligned bytes of BAR0 are those of its word there. -/
theorem barBytes_word {s : State} {off : Nat} (h8 : off % 8 = 0) : s.barBytes off 8 = leBytes 8 (s.barWord off).toNat := by
  rw [leBytes_eq_map]
  refine List.map_congr_left fun i hi => ?_
  have : i < 8 := List.mem_range.mp hi
  have h1 : (off + i) % 8 = i := by omega
  rw [h1, Nat.add_sub_cancel]

theorem barBytes_readsAs {s : State} {row : Nat × Nat} (h : ReadsAs s row) : s.barBytes row.1 8 = leBytes 8 row.2 := by
  obtain ⟨h8, -, hv⟩ := h
  rw [barBytes_word h8, hv, leBytes_eight_ofNat]

/-- A host read of a register block outside recovery, other than a half of NOW (R18, R384). -/
theorem hostBarRead_block {s : State} (hp : s.phaseDev ≠ 3) (off who : Nat) {n : Nat} (hn : n ≠ 4) :
    exec (.hostBarRead .bar0 off ⟨n, who⟩) s = .next (s.send (.barData (s.barBytes off n))) := by
  have hr : ¬ (s.phaseDev = 3 ∧ off / 0x10000 ≠ 6) := fun h => hp h.1
  simp only [exec_hostBarRead, execHostBarRead, reduceCtorEq, if_neg hr, hn, and_false, if_true, if_false]

theorem readreg_block {s : State} (hp : s.phaseDev ≠ 3) {off : Nat} (h : off < 2 ^ 20) :
    exec (.readreg (BitVec.ofNat 32 off)) s = .next (s.send (.usb (s.barBytes off 8))) := by
  have ho : (BitVec.ofNat 32 off).toNat = off := by rw [BitVec.toNat_ofNat]; omega
  have hr : ¬ (s.phaseDev = 3 ∧ off / 0x10000 ≠ 6) := fun h => hp h.1
  simp only [exec_readreg, execReadreg, ho, if_neg hr]

/-- A row reads as its number, by the host and by firmware's service port. -/
theorem reads_of_readsAs {s : State} (hp : s.phaseDev ≠ 3) {row : Nat × Nat} (h : ReadsAs s row) (who : Nat) :
    exec (.hostBarRead .bar0 row.1 ⟨8, who⟩) s = .next (s.send (.barData (leBytes 8 row.2))) ∧
      exec (.readreg (BitVec.ofNat 32 row.1)) s = .next (s.send (.usb (leBytes 8 row.2))) := by
  rw [hostBarRead_block hp _ _ (by decide), readreg_block hp h.2.1, barBytes_readsAs h]
  exact ⟨rfl, rfl⟩

/-! ## Fields of a written word -/

/-- A value whose bits lie in a mask sets none outside a wider one. -/
theorem and_not_eq_zero {v a b : W64} (h : v &&& a = v) (hab : a &&& ~~~b = 0) : v &&& ~~~b = 0 := by
  rw [← h, BitVec.and_assoc, hab]; exact BitVec.and_zero

/-- A value of `k` bits lies in the mask of its low `k` bits. -/
theorem and_lowMask {v : W64} {k : Nat} (hk : k < 64) (h : v.toNat < 2 ^ k) : v &&& BitVec.ofNat 64 (2 ^ k - 1) = v := by
  have hp : 2 ^ k < 2 ^ 64 := Nat.pow_lt_pow_right (by decide) hk
  apply BitVec.eq_of_toNat_eq
  rw [BitVec.toNat_and, BitVec.toNat_ofNat, Nat.mod_eq_of_lt (by omega), Nat.and_two_pow_sub_one_eq_mod, Nat.mod_eq_of_lt h]

/-- A value with no bit in the complement of a mask lies in the mask. -/
theorem and_eq_self_of_disjoint {v a b : W64} (h : v &&& b = 0) (hab : a ||| b = BitVec.allOnes 64) : v &&& a = v := by
  have : v &&& (a ||| b) = v := by rw [hab, BitVec.and_allOnes]
  rw [BitVec.and_or_distrib_left, h] at this
  exact (BitVec.or_zero).symm.trans this

/-- A field in its place lies in the mask of its place. -/
theorem field_and_mask {n : Nat} (v : BitVec n) (k : Nat) :
    v.setWidth 64 <<< k &&& (BitVec.allOnes n).setWidth 64 <<< k = v.setWidth 64 <<< k := by
  rw [← BitVec.shiftLeft_and_distrib, ← BitVec.setWidth_and, BitVec.and_allOnes]

/-! ## Register writes (R3, R5) -/

/-- The fields a writer may write. -/
def mayWrite (fw : Bool) (r : BarReg) : W64 := if fw then r.host ||| r.fw else r.host

@[simp] theorem countRsvw_false (s : State) : s.countRsvw false = s := rfl
@[simp] theorem countRsvw_true (s : State) : s.countRsvw true = { s with rsvw := satInc s.rsvw } := rfl

/-- A write where no block defines a register counts, and no more (R5, R385). -/
theorem regWrite_none {s : State} {fw : Bool} {off : Nat} {m v : W64} (hr : regAt off = none) :
    s.regWrite fw off m v = { s with rsvw := satInc s.rsvw } := by
  simp only [State.regWrite, hr, countRsvw_true]

/-- A write to QDB of a device-fed queue counts, and no more (R353). -/
theorem regWrite_fedByDevice {s : State} {fw : Bool} {off : Nat} {m v : W64} {r : BarReg} (hr : regAt off = some r)
    (hd : s.fedByDevice r = true) : s.regWrite fw off m v = { s with rsvw := satInc s.rsvw } := by
  simp only [State.regWrite, hr, hd, if_true, countRsvw_true]

/-- A write that reaches no field its writer may write changes no field; its reserved bits count (R3, R5). -/
theorem regWrite_discarded {s : State} {fw : Bool} {off : Nat} {m v : W64} {r : BarReg} (hr : regAt off = some r)
    (hd : s.fedByDevice r = false) (hm : mayWrite fw r &&& m = 0) :
    s.regWrite fw off m v = s.countRsvw (v &&& m &&& ~~~(mayWrite fw r ||| r.ro) != 0) := by
  unfold mayWrite at *
  simp only [State.regWrite, hr, hd, hm, if_true, Bool.false_eq_true, if_false]

/-- A whole register written by one who may write all its fields but the RO ones: reserved bits count, and the register takes the
value's own fields unless firmware's limits refuse them (R3, R5). -/
theorem regWrite_whole {s : State} {fw : Bool} {off : Nat} {v : W64} {r : BarReg} (hr : regAt off = some r)
    (hd : s.fedByDevice r = false) (hm : mayWrite fw r = r.host ||| r.fw) (h0 : r.host ||| r.fw ≠ 0) :
    s.regWrite fw off (BitVec.allOnes 64) v =
      let t := s.countRsvw (v &&& ~~~(r.host ||| r.fw ||| r.ro) != 0)
      if fw && !t.fwOk r (v &&& (r.host ||| r.fw)) then t else t.regPut r (v &&& (r.host ||| r.fw)) := by
  have hk (w x : W64) : w ||| (if r.keeps then x &&& (r.host ||| r.fw) &&& ~~~(r.host ||| r.fw) else 0) = w := by
    simp [BitVec.and_assoc]
  unfold mayWrite at hm
  simp only [State.regWrite, hr, hd, hm, BitVec.and_allOnes, if_neg h0, hk, Bool.false_eq_true, if_false]

/-- The same for a value with writable fields only. -/
theorem regWrite_fields {s : State} {fw : Bool} {off : Nat} {v : W64} {r : BarReg} (hr : regAt off = some r)
    (hd : s.fedByDevice r = false) (hm : mayWrite fw r = r.host ||| r.fw) (h0 : r.host ||| r.fw ≠ 0) (hv : v &&& (r.host ||| r.fw) = v) :
    s.regWrite fw off (BitVec.allOnes 64) v = if fw && !s.fwOk r v then s else s.regPut r v := by
  have hz : v &&& ~~~(r.host ||| r.fw ||| r.ro) = 0 := and_not_eq_zero hv (by
    generalize r.host ||| r.fw = a
    simp [BitVec.not_or, ← BitVec.and_assoc])
  rw [regWrite_whole hr hd hm h0, hz, hv]
  rfl

/-- A register without fields of firmware's alone and without limits takes a value of its fields from any writer. -/
theorem regWrite_shared {s : State} {fw : Bool} {off : Nat} {v M : W64} {r : BarReg} (hr : regAt off = some r)
    (hd : s.fedByDevice r = false) (hh : r.host = M) (hf : r.fw = 0) (h0 : M ≠ 0) (hv : v &&& M = v) (hok : s.fwOk r v = true) :
    s.regWrite fw off (BitVec.allOnes 64) v = s.regPut r v := by
  have hM : r.host ||| r.fw = M := by rw [hh, hf]; exact BitVec.or_zero
  have hm : mayWrite fw r = r.host ||| r.fw := by
    cases fw
    · exact hh.trans hM.symm
    · rfl
  rw [regWrite_fields hr hd hm (hM ▸ h0) (hM ▸ hv), hok, Bool.not_true, Bool.and_false, if_neg Bool.false_ne_true]

/-- A register of firmware's alone takes from it a value of its fields that keeps the register's limits. -/
theorem regWrite_firmware {s : State} {off : Nat} {v M : W64} {r : BarReg} (hr : regAt off = some r)
    (hd : s.fedByDevice r = false) (hh : r.host = 0) (hf : r.fw = M) (h0 : M ≠ 0) (hv : v &&& M = v) :
    s.regWrite true off (BitVec.allOnes 64) v = if s.fwOk r v then s.regPut r v else s := by
  have hM : r.host ||| r.fw = M := by rw [hh, hf]; exact BitVec.zero_or
  rw [regWrite_fields hr hd rfl (hM ▸ h0) (hM ▸ hv)]
  cases s.fwOk r v <;> rfl

/-- REGISTER_WRITE of a whole register outside recovery. -/
theorem registerWrite_whole {s : State} (hp : s.phaseDev ≠ 3) (fw : Bool) {off : Nat} (h8 : off % 8 = 0) (hlt : off < 2 ^ 20)
    (v : W64) : exec (.registerWrite fw (BitVec.ofNat 20 off) v) s = .next (s.regWrite fw off (BitVec.allOnes 64) v) := by
  have ho : (BitVec.ofNat 20 off).toNat = off := by rw [BitVec.toNat_ofNat, Nat.mod_eq_of_lt hlt]
  have hr : ¬ (s.phaseDev = 3 ∧ off / 0x10000 ≠ 6) := fun h => hp h.1
  simp only [exec_registerWrite, execRegisterWrite, ho, if_neg hr, h8, if_true]

/-! ## Doorbells, firmware's limits and halves of registers -/

section
variable {s : State}

theorem qidOf_val (q : QId) : qidOf q.val = q := Fin.ext (Nat.mod_eq_of_lt q.isLt)

/-- A doorbell always answers a next state (R353, R354). -/
theorem execDoorbell_next (q : QId) (v : W32) (s : State) : ∃ t, execDoorbell q v s = .next t := by
  simp only [execDoorbell]
  repeat' split
  all_goals exact ⟨_, rfl⟩

/-- A doorbell of a device-fed queue counts as a reserved write (R353). -/
theorem execDoorbell_deviceFed (hp : s.phaseDev ≠ 3) {q : QId} (v : W32) (h : (s.queue q.val).hostFed = false) :
    execDoorbell q v s = .next { s with rsvw := satInc s.rsvw } := by
  simp only [execDoorbell, if_neg hp, h, Bool.not_false, if_true, countRsvw_true]

/-- What QWDB asks of its value (R355, log entry 45). -/
theorem fwOk_qwdb_iff (q : Nat) (v : W64) : s.fwOk (.qwdb q) v = true ↔
    1 ≤ bitsOf v.toNat 31 0 ∧ bitsOf (s.queue q).qwda.toNat 63 32 ≤ bitsOf v.toNat 31 0 ∧
      (v.getLsbD 32 = true → 1 ≤ bitsOf (s.queue q).qwda.toNat 31 0 ∧
        bitsOf (s.queue q).qwda.toNat 31 0 ≤ bitsOf (s.queue q).qwda.toNat 63 32) := by
  cases h : v.getLsbD 32 with
  | false =>
    simp only [State.fwOk, h, t3Ok, Bool.and_eq_true, decide_eq_true_eq, Bool.false_eq_true, if_false, false_implies, and_true]
  | true =>
    simp only [State.fwOk, h, wdOk, t3Ok, Bool.and_eq_true, decide_eq_true_eq, if_true, true_implies]
    tauto

theorem qcfgOk_iff (v : W64) : qcfgOk v = true ↔ bitsOf v.toNat 47 40 ≤ 192 ∧ bitsOf v.toNat 2 0 ≤ bitsOf v.toNat 6 4 := by
  simp only [qcfgOk, Bool.and_eq_true, decide_eq_true_eq]

/-- The bytes of a word that a 4-byte write of its upper half brings. -/
theorem upperBytes_sum (b : Nat) (g : Nat → Nat) (f : Byte → Nat) (x0 x1 x2 x3 : Byte) :
    (((List.range 8).map fun i => if b + 4 ≤ b + i ∧ b + i < b + 4 + [x0, x1, x2, x3].length then
      f ([x0, x1, x2, x3].getD (b + i - (b + 4)) 0) * g i else 0).foldl (· + ·) 0) =
      f x0 * g 4 + f x1 * g 5 + f x2 * g 6 + f x3 * g 7 := by
  have h (i : Nat) : (b + 4 ≤ b + i ∧ b + i < b + 4 + [x0, x1, x2, x3].length) = (4 ≤ i ∧ i < 8) := by
    simp only [List.length_cons, List.length_nil, eq_iff_iff]; omega
  have h' (i : Nat) : b + i - (b + 4) = i - 4 := by omega
  simp only [h, h', show List.range 8 = [0, 1, 2, 3, 4, 5, 6, 7] from rfl, List.map_cons, List.map_nil, List.foldl_cons,
    List.foldl_nil, Nat.reduceLeDiff, Nat.reduceLT, Nat.reduceSub, false_and, and_self, if_true, if_false, List.getD_cons_zero,
    List.getD_cons_succ, Nat.zero_add]

/-- A 4-byte host write 4 bytes into an aligned register is a write of its upper half (R3, R5). -/
theorem barWrite_upper {b : Nat} (h8 : b % 8 = 0) (v : W32) :
    s.barWrite (b + 4) (leBytes 4 v.toNat) = s.regWrite false b 0xFFFFFFFF00000000 (v.setWidth 64 <<< 32) := by
  have hv := v.isLt
  have hw : ((List.range (leBytes 4 v.toNat).length).map fun i => (b + 4 + i) / 8).eraseDups = [b / 8] := by
    have hc : ((List.range (leBytes 4 v.toNat).length).map fun i => (b + 4 + i) / 8) = (List.range 4).map fun _ => b / 8 := by
      refine List.map_congr_left fun i hi => ?_
      have : i < 4 := List.mem_range.mp hi
      omega
    rw [hc]
    simp [List.range_succ, List.eraseDups_cons]
  have hb : 8 * (b / 8) = b := by omega
  simp only [State.barWrite, hw, List.foldl_cons, List.foldl_nil, hb]
  have hmask : BitVec.ofNat 64 (255 * 256 ^ 4 + 255 * 256 ^ 5 + 255 * 256 ^ 6 + 255 * 256 ^ 7) = 0xFFFFFFFF00000000 := by decide
  have hval : BitVec.ofNat 64 ((BitVec.ofNat 8 v.toNat).toNat * 256 ^ 4 + (BitVec.ofNat 8 (v.toNat / 256)).toNat * 256 ^ 5 +
      (BitVec.ofNat 8 (v.toNat / 256 / 256)).toNat * 256 ^ 6 + (BitVec.ofNat 8 (v.toNat / 256 / 256 / 256)).toNat * 256 ^ 7) =
      v.setWidth 64 <<< 32 := by
    apply BitVec.eq_of_toNat_eq
    simp only [BitVec.toNat_ofNat, BitVec.toNat_shiftLeft, BitVec.toNat_setWidth, Nat.shiftLeft_eq]
    omega
  refine congrArg₂ (s.regWrite false b) ?_ ?_
  · rw [← hmask]
    exact congrArg (BitVec.ofNat 64) (upperBytes_sum b (256 ^ ·) (fun _ => 255) _ _ _ _)
  · rw [← hval]
    exact congrArg (BitVec.ofNat 64) (upperBytes_sum b (256 ^ ·) (fun x => x.toNat) _ _ _ _)

/-- Every bit of the upper half of QDB is reserved (R355). -/
theorem upperHalf_reserved (q : Nat) (v : W32) :
    ((v.setWidth 64 <<< 32) &&& 0xFFFFFFFF00000000 &&& ~~~(mayWrite false (.qdb q) ||| BarReg.ro (.qdb q)) != 0) = (v != 0) := by
  have hv := v.isLt
  have hm : mayWrite false (.qdb q) ||| BarReg.ro (.qdb q) = 0xFFFFFFFF := by simp [mayWrite, BarReg.host, BarReg.ro]
  have hu : v.setWidth 64 <<< 32 &&& (0xFFFFFFFF00000000 : W64) = v.setWidth 64 <<< 32 := field_and_mask v 32
  have hs : (v.setWidth 64 <<< 32 : W64) = 0 ↔ v = 0 := by
    rw [← BitVec.toNat_inj, ← BitVec.toNat_inj, BitVec.toNat_shiftLeft, BitVec.toNat_setWidth, Nat.shiftLeft_eq]
    change _ = 0 ↔ _ = 0
    omega
  rw [hm, hu, show ~~~(0xFFFFFFFF : W64) = 0xFFFFFFFF00000000 by decide, hu, Bool.eq_iff_iff, bne_iff_ne, bne_iff_ne, Ne, hs]

theorem now_high (v : W64) : (v.extractLsb' 32 32).toNat = v.toNat / 2 ^ 32 := by
  have := v.isLt
  rw [BitVec.extractLsb'_toNat, Nat.shiftRight_eq_div_pow, Nat.mod_eq_of_lt (by omega)]

end

/-! ## Single registers -/

section
variable {s : State} (hp : s.phaseDev ≠ 3) (fw : Bool)
include hp

theorem write_tbnow (v : W64) : exec (.registerWrite fw 0x00000 v) s = .next s := by
  refine (registerWrite_whole hp fw (off := 0) rfl (by decide) v).trans ?_
  rw [regWrite_discarded (r := .tbnow) rfl rfl (by cases fw <;> rfl)]
  cases fw <;> simp [mayWrite, BarReg.host, BarReg.fw, BarReg.ro]

theorem write_sint {v : W64} (h : v.toNat < 256) : exec (.registerWrite fw 0x60010 v) s =
    .next (if v = 0 then s else { s with sint := s.sint &&& ~~~(v.setWidth 8 &&& ~~~s.sintNow) }) := by
  refine (registerWrite_whole hp fw (off := 0x60010) rfl (by decide) v).trans (congrArg _ ?_)
  rw [regWrite_shared (r := .sint) rfl rfl rfl rfl (by decide) (and_lowMask (k := 8) (by decide) h) rfl]
  split
  · next h0 =>
    subst h0
    rw [State.regPut, State.sintClear, show (0 : W64).setWidth 8 = 0#8 from rfl, BitVec.zero_and,
      show ~~~(0#8) = BitVec.allOnes 8 from rfl, BitVec.and_allOnes]
  · rfl

theorem write_sien {v : W64} (h : v.toNat < 256) :
    exec (.registerWrite fw 0x60018 v) s = .next { s with sien := v.setWidth 8, svec := 0 } := by
  have hv : v &&& 0xFF = v := and_lowMask (k := 8) (by decide) h
  refine (registerWrite_whole hp fw (off := 0x60018) rfl (by decide) v).trans (congrArg _ ?_)
  rw [regWrite_shared (r := .sien) rfl rfl rfl rfl (by decide)
    (and_eq_self_of_disjoint (b := ~~~0x7FF000000FF) (and_not_eq_zero hv (by decide)) (by decide)) rfl]
  have hx : v.extractLsb' 32 11 = 0 := by
    apply BitVec.eq_of_toNat_eq
    simp only [BitVec.extractLsb'_toNat, Nat.shiftRight_eq_div_pow]
    rw [Nat.div_eq_of_lt (by omega)]; rfl
  rw [State.regPut, hx]

/-- A reserved bit of SIEN counts; the fields take their values (R5, R386). -/
theorem write_sien_reserved (v : W64) : exec (.registerWrite fw 0x60018 (v ||| 0x100)) s =
    .next { s with rsvw := satInc s.rsvw, sien := v.setWidth 8, svec := v.extractLsb' 32 11 } := by
  refine (registerWrite_whole hp fw (off := 0x60018) rfl (by decide) _).trans (congrArg _ ?_)
  rw [regWrite_whole (r := .sien) rfl rfl (by cases fw <;> rfl) (by decide)]
  have hc : ((v ||| 0x100) &&& ~~~(BarReg.host .sien ||| BarReg.fw .sien ||| BarReg.ro .sien) != 0) = true := by
    have hb : ((v ||| 0x100) &&& ~~~(BarReg.host .sien ||| BarReg.fw .sien ||| BarReg.ro .sien)).getLsbD 8 = true := by
      simp [BarReg.host, BarReg.fw, BarReg.ro]
    refine bne_iff_ne.mpr fun hz => ?_
    rw [hz] at hb
    simp at hb
  have h8 : ((v ||| 0x100) &&& (BarReg.host .sien ||| BarReg.fw .sien)).setWidth 8 = v.setWidth 8 := by
    rw [BitVec.setWidth_and, BitVec.setWidth_or]
    exact (congrArg (· &&& 0xFF#8) BitVec.or_zero).trans BitVec.and_allOnes
  have h11 : ((v ||| 0x100) &&& (BarReg.host .sien ||| BarReg.fw .sien)).extractLsb' 32 11 = v.extractLsb' 32 11 := by
    rw [BitVec.extractLsb'_and, BitVec.extractLsb'_or]
    exact (congrArg (· &&& 0x7FF#11) BitVec.or_zero).trans BitVec.and_allOnes
  have hok : (fw && !State.fwOk { s with rsvw := satInc s.rsvw } .sien ((v ||| 0x100) &&& (BarReg.host .sien ||| BarReg.fw .sien))) = false := by
    cases fw <;> rfl
  simp only [hc, countRsvw_true, hok, Bool.false_eq_true, if_false, State.regPut, h8, h11]

theorem write_mxcap {v : W64} (h : v.toNat < 256) :
    exec (.registerWrite fw 0x20000 v) s = .next { s.setMxcap (v.setWidth 8) with mxcapCfg := v.setWidth 8 } := by
  refine (registerWrite_whole hp fw (off := 0x20000) rfl (by decide) v).trans (congrArg _ ?_)
  rw [regWrite_shared (r := .mxcap) rfl rfl rfl rfl (by decide) (and_lowMask (k := 8) (by decide) h) rfl]
  rfl

theorem write_undefined (v : W64) : exec (.registerWrite fw 0x90000 v) s = .next { s with rsvw := satInc s.rsvw } :=
  (registerWrite_whole hp fw (off := 0x90000) rfl (by decide) v).trans (congrArg _ (regWrite_none rfl))

/-- Only firmware writes STAGE (R386). -/
theorem write_stage_host (v : W64) : exec (.registerWrite false 0x60030 v) s = .next s := by
  refine (registerWrite_whole hp false (off := 0x60030) rfl (by decide) v).trans (congrArg _ ?_)
  rw [regWrite_discarded (r := .stageReg) rfl rfl rfl]
  simp [mayWrite, BarReg.host, BarReg.ro]

/-- LIMIT takes any writer's value (R396). -/
theorem write_age {c : Nat} (hc : c < 12) (n : BitVec 16) :
    exec (.registerWrite fw (BitVec.ofNat 20 (0x70900 + 8 * c)) (n.setWidth 64 <<< 32)) s =
      .next { s with ages := tabSet s.ages c { s.age c with limit := n } } := by
  have hv : (n.setWidth 64 <<< 32 : W64) &&& (0xFFFF00000000 : W64) = n.setWidth 64 <<< 32 :=
    field_and_mask n 32
  refine (registerWrite_whole hp fw (by omega) (by omega) _).trans (congrArg _ ?_)
  rw [regWrite_shared (M := 0xFFFF00000000) (regAt_age hc) rfl rfl rfl (by decide) hv rfl, State.regPut]
  have hx : (n.setWidth 64 <<< 32 : W64).extractLsb' 32 16 = n := by
    ext i hi
    simp [show 32 + i < 64 by omega, BitVec.getLsbD_eq_getElem hi]
  rw [hx]

/-! ## The queue registers (R353, R355, R371) -/

/-- A write of QDB is the doorbell event (R353). -/
theorem write_qdb (q : QId) {v : W64} (h : v.toNat < 2 ^ 32) :
    exec (.registerWrite fw (BitVec.ofNat 20 (0x10010 + 0x100 * q.val)) v) s = exec (.doorbell q (v.setWidth 32)) s := by
  have hq := q.isLt
  have hr : regAt (0x10010 + 0x100 * q.val) = some (.qdb q.val) := regAt_queue (r := 0x10) q.isLt (by decide)
  rw [registerWrite_whole hp fw (by omega) (by omega), exec_doorbell]
  cases hf : (s.queue q.val).hostFed with
  | false =>
    rw [execDoorbell_deviceFed hp _ hf, regWrite_fedByDevice hr (by simp [State.fedByDevice, hf])]
  | true =>
    obtain ⟨t, ht⟩ := execDoorbell_next q (v.setWidth 32) s
    rw [regWrite_shared (M := 0xFFFFFFFF) hr (by simp [State.fedByDevice, hf]) rfl rfl (by decide)
      (and_lowMask (k := 32) (by decide) h) rfl, State.regPut, qidOf_val, ht, Answer.stateOr_next]

/-- A write of QXHEAD is the event of R371. -/
theorem write_qxhead (q : QId) {v : W64} (h : v.toNat < 2 ^ 32) :
    exec (.registerWrite fw (BitVec.ofNat 20 (0x10038 + 0x100 * q.val)) v) s = exec (.xheadWrite q (v.setWidth 32)) s := by
  have hq := q.isLt
  have hr : regAt (0x10038 + 0x100 * q.val) = some (.qxhead q.val) := regAt_queue (r := 0x38) q.isLt (by decide)
  rw [registerWrite_whole hp fw (by omega) (by omega), exec_xheadWrite, execXheadWrite, if_neg hp,
    regWrite_shared (M := 0xFFFFFFFF) hr rfl rfl rfl (by decide) (and_lowMask (k := 32) (by decide) h) rfl]
  rfl

/-- QCFG is firmware's: another writer's value is discarded and counted (R5, R355). -/
theorem write_qcfg_host (q : QId) {v : W64} (h0 : v ≠ 0) :
    exec (.registerWrite false (BitVec.ofNat 20 (0x10000 + 0x100 * q.val)) v) s = .next { s with rsvw := satInc s.rsvw } := by
  have hq := q.isLt
  have hr : regAt (0x10000 + 0x100 * q.val) = some (.qcfg q.val) := regAt_queue (r := 0) q.isLt (by decide)
  have hb : v &&& BitVec.allOnes 64 &&& ~~~(mayWrite false (.qcfg q.val) ||| BarReg.ro (.qcfg q.val)) = v := by
    have hm : ~~~(mayWrite false (.qcfg q.val) ||| BarReg.ro (.qcfg q.val)) = BitVec.allOnes 64 := by
      simp [mayWrite, BarReg.host, BarReg.ro]
    rw [hm, BitVec.and_allOnes, BitVec.and_allOnes]
  rw [registerWrite_whole hp false (by omega) (by omega), regWrite_discarded hr rfl BitVec.zero_and, hb, bne_iff_ne.mpr h0,
    countRsvw_true]

/-- Firmware's write of QCFG stands where it keeps R355, and changes nothing where not. -/
theorem write_qcfg_fw (q : QId) {v : W64} (hv : v &&& 0x0FF000F8FFFFFF88 = 0) :
    exec (.registerWrite true (BitVec.ofNat 20 (0x10000 + 0x100 * q.val)) v) s =
      .next (if qcfgOk v then s.setQueue q.val { s.queue q.val with qcfg := v } else s) := by
  have hq := q.isLt
  have hr : regAt (0x10000 + 0x100 * q.val) = some (.qcfg q.val) := regAt_queue (r := 0) q.isLt (by decide)
  rw [registerWrite_whole hp true (by omega) (by omega), regWrite_firmware (M := 0xF00FFF0700000077) hr rfl rfl rfl (by decide)
    (and_eq_self_of_disjoint hv (by decide))]
  rfl

/-- Firmware's write of QWDB stands where it keeps the order of the watchdog's times, and changes nothing where not (R355). -/
theorem write_qwdb_fw (q : QId) {v : W64} (hv : v.toNat < 2 ^ 33) :
    exec (.registerWrite true (BitVec.ofNat 20 (0x10028 + 0x100 * q.val)) v) s =
      .next (if s.fwOk (.qwdb q.val) v then s.setQueue q.val { s.queue q.val with qwdb := v } else s) := by
  have hq := q.isLt
  have hr : regAt (0x10028 + 0x100 * q.val) = some (.qwdb q.val) := regAt_queue (r := 0x28) q.isLt (by decide)
  rw [registerWrite_whole hp true (by omega) (by omega), regWrite_firmware (M := 0x1FFFFFFFF) hr rfl rfl rfl (by decide)
    (and_lowMask (k := 33) (by decide) hv)]
  rfl

/-- A host write of the upper half of QDB (R5, R353): it counts where the queue is device-fed or a reserved bit is set. -/
theorem write_qdb_upper (q : QId) (v : W32) :
    exec (.hostBarWrite .bar0 (0x10014 + 0x100 * q.val) (leBytes 4 v.toNat)) s =
      .next (s.countRsvw (!(s.queue q.val).hostFed || v != 0)) := by
  have hq := q.isLt
  have hr : regAt (0x10010 + 0x100 * q.val) = some (.qdb q.val) := regAt_queue (r := 0x10) q.isLt (by decide)
  have hb : ¬ (s.phaseDev = 3 ∧ (0x10014 + 0x100 * q.val) / 0x10000 ≠ 6) := fun h => hp h.1
  have ho : 0x10014 + 0x100 * q.val = 0x10010 + 0x100 * q.val + 4 := by omega
  rw [exec_hostBarWrite]
  simp only [execHostBarWrite, reduceCtorEq, if_true, if_false, if_neg hb]
  rw [ho, barWrite_upper (by omega)]
  cases hf : (s.queue q.val).hostFed with
  | false => rw [regWrite_fedByDevice hr (by simp [State.fedByDevice, hf])]; rfl
  | true =>
    rw [regWrite_discarded hr (by simp [State.fedByDevice, hf]) (by simp [mayWrite, BarReg.host]), upperHalf_reserved, Bool.not_true,
      Bool.false_or]

/-! ## The halves of NOW (R18) -/

/-- A 4-byte read of TBNOW returns the low half and latches the high one for the requester. -/
theorem read_nowLow (who : Nat) : exec (.hostBarRead .bar0 0 ⟨4, who⟩) s =
    .next ({ s with latches := tabSet s.latches who (s.now.extractLsb' 32 32) }.send
      (.barData (leBytes 4 (s.now.toNat % 2 ^ 32)))) := by
  have hb : ¬ (s.phaseDev = 3 ∧ 0 / 0x10000 ≠ 6) := fun h => hp h.1
  simp only [exec_hostBarRead, execHostBarRead, reduceCtorEq, if_false, if_true, if_neg hb, execTbnowLowRead, if_neg hp,
    OfNat.zero_ne_ofNat, and_true]

/-- The requester's next read at offset 4 returns what was latched, or the present high half. -/
theorem read_nowHigh (who : Nat) : exec (.hostBarRead .bar0 4 ⟨4, who⟩) s =
    .next ({ s with latches := s.latches.filter fun p => p.1 != who }.send
      (.barData (leBytes 4 (tabGet (s.now.extractLsb' 32 32) s.latches who).toNat))) := by
  have hb : ¬ (s.phaseDev = 3 ∧ 4 / 0x10000 ≠ 6) := fun h => hp h.1
  simp only [exec_hostBarRead, execHostBarRead, reduceCtorEq, if_false, if_true, if_neg hb, and_true]

end

/-! ## The function mask of MSI-X (R384, log entry 23) -/

/-- Messages sent one after the other add to what went out, and change nothing else. -/
theorem foldl_send (f : Nat → Out) (l : List Nat) (s : State) :
    l.foldl (fun t k => t.send (f k)) s = { s with out := s.out ++ l.map f } := by
  induction l generalizing s with
  | nil => simp
  | cons k r ih => rw [List.foldl_cons, ih]; simp [State.send]

theorem exec_msixControl (b : Byte) (s : State) : exec (.hostBarWrite .msixControl 1 [b]) s = .next (s.msixControl b) := rfl

theorem msixControl_set {s : State} {b : Byte} (h : b.getLsbD 6 = true) : s.msixControl b = { s with msixMask := true } := by
  simp only [State.msixControl, h, if_true]

/-- Clearing the mask sends the interrupts that waited for it and whose own entries are not masked. -/
theorem msixControl_clear {s : State} {b : Byte} (h : b.getLsbD 6 = false) :
    (s.msixControl b).msixMask = false ∧
      (s.msixControl b).out = s.out ++ (s.msixPend.filter fun k => !(s.msixCtl k).getLsbD 32).map .msix := by
  simp only [State.msixControl, h, Bool.false_eq_true, if_false, foldl_send, and_self]

theorem read_msixControl {s : State} (h : s.msixMask = true) (who : Nat) :
    exec (.hostBarRead .msixControl 0 ⟨2, who⟩) s = .next (s.send (.barData [0, 0x40])) := by
  rw [exec_hostBarRead]
  simp only [execHostBarRead, if_true, h]
  rfl

/-- Settles O51: the rows by where each register lies and what it reads as, the writes by the fields that each writer may write. -/
theorem registersReadAndWrite : Obligations.RegistersReadAndWrite := by
  unfold Obligations.RegistersReadAndWrite
  intro s hp
  refine ⟨fun q i r p g c who row hrow => reads_of_readsAs hp (regRows_readAs s q i r p g c row hrow) who,
    fun fw v => ⟨write_tbnow hp fw v, write_sint hp fw, fun h => ⟨_, write_sien hp fw h, rfl⟩,
      ⟨_, write_sien_reserved hp fw v, rfl, rfl, rfl, rfl⟩, fun h => ⟨_, write_mxcap hp fw h, rfl, rfl, rfl, rfl⟩,
      write_undefined hp fw v, fun q => write_qdb hp fw q, fun q => write_qxhead hp fw q⟩,
    write_stage_host hp, fun fw c n => ⟨_, write_age hp fw c.isLt n, rfl, ?_, fun d hd => ?_⟩, fun who => ?_, fun who => ?_,
    fun q v h0 hv => ⟨write_qcfg_host hp q h0, fun h => ?_, fun h => ?_⟩, fun q v => ⟨fun h => ?_, fun h h0 => ?_⟩,
    fun q v hv => ⟨fun h => ?_, fun h => ?_⟩⟩
  · exact tabGet_tabSet_same _ _ _ _
  · exact tabGet_tabSet_ne _ _ _ hd
  · refine ⟨_, _, read_nowLow hp who, rfl, rfl, read_nowHigh (s := { s with latches := _ }.send _) hp who, ?_⟩
    simp only [State.send, tabGet_tabSet_same, now_high]
  · refine ⟨_, _, (exec_msixControl _ s).trans (congrArg _ (msixControl_set rfl)), rfl, rfl, exec_msixControl _ _,
      (msixControl_clear rfl).1, fun k => ?_, read_msixControl rfl who⟩
    rw [(msixControl_clear rfl).2, List.drop_left]
    simp only [List.mem_map, List.mem_filter, Out.msix.injEq, exists_eq_right, Bool.not_eq_true']
    rfl
  · rw [write_qcfg_fw hp q hv, if_pos ((qcfgOk_iff v).mpr h)]
  · rw [write_qcfg_fw hp q hv, if_neg fun hk => ?_]
    have := (qcfgOk_iff v).mp hk
    omega
  · have hc : (!(s.queue q.val).hostFed || v != 0) = true := by simpa using h
    rw [write_qdb_upper hp, hc, countRsvw_true]
  · rw [write_qdb_upper hp, h, h0]; rfl
  · rw [write_qwdb_fw hp q hv, if_pos ((fwOk_qwdb_iff q v).mpr h)]
  · rw [write_qwdb_fw hp q hv, if_neg fun hk => h ((fwOk_qwdb_iff q v).mp hk)]

end Sys2Proof.Proofs


/-! The copy engine's shared steps, for O31: the begin of a command, its run, and a fault raised at the begin. -/

namespace Sys2Proof.Proofs

open Sys2Proof.Machine Sys2Proof.Claims

/-! ## Copy commands are run by their meanings -/

theorem exec_pat (f : PatForm) (s : State) : exec (.pat f) s = execPat f s := rfl
theorem exec_cmpl (t : CpTail) (s : State) : exec (.cmpl t) s = execCmpl t s := rfl

/-! ## The context in focus -/

@[simp] theorem modCtx_ctx (s : State) (c : CtxId) (f : Context → Context) : (s.modCtx c f).ctx c = f (s.ctx c) := by
  simp [State.modCtx]
@[simp] theorem modCtx_focus (s : State) (c : CtxId) (f : Context → Context) : (s.modCtx c f).focus = s.focus := rfl

theorem cur_modCtx (s : State) (f : Context → Context) : cur (s.modCtx s.focus f) = f (cur s) := modCtx_ctx s s.focus f

/-! ## Runs of begun commands (R233) -/

variable {x : Context} {e : CpEntry} {tl : CpTail} {k : CpKind} {src dst : List (Nat × Nat)} {num : W32} {r : CpRun}

/-- The entry that may begin next has no run. -/
theorem cpRun_of_cpHead (h : x.cpHead = some e) : x.cpRun e.num = none := by
  simpa using List.find?_some h

theorem cpRun_num (h : x.cpRun num = some r) : r.num = num := by simpa using List.find?_some h

/-- Every begun command has moved or is a binding: the next may begin. -/
theorem cpFree_of_allMoved (h : allMoved x) : x.cpFree = true := by
  refine List.all_eq_true.mpr fun r hr => ?_
  rcases h r hr with ⟨hm, hh⟩ | ⟨hm, hk⟩
  · simpa [hm, Context.heldCp] using hh
  · simp [hm, hk]

/-- The run of a command that has just begun. -/
def freshRun (x : Context) (e : CpEntry) (tl : CpTail) (k : CpKind) (src dst : List (Nat × Nat)) : CpRun :=
  ⟨e.num, e.w.setWidth 64, tl, k, src, dst, false, [], [], [], false, [], if tl.chain then x.cp.ckr else 0, 0, 0, 0, false, none, false⟩

theorem runs_newRun : (x.newRun e tl k src dst).cp.runs = x.cp.runs ++ [freshRun x e tl k src dst] := rfl

theorem cpRun_newRun (h : x.cpRun e.num = none) : (x.newRun e tl k src dst).cpRun e.num = some (freshRun x e tl k src dst) := by
  unfold Context.cpRun at h ⊢
  rw [runs_newRun, List.find?_append, h]
  simp [freshRun]

/-- A change of a run that keeps its number is what a look at that number finds. -/
theorem cpRun_modRun {f : CpRun → CpRun} (hf : ∀ r, (f r).num = r.num) (num n : W32) (x : Context) :
    (x.modRun num f).cpRun n = (x.cpRun n).map fun r => if r.num == num then f r else r := by
  have hp : ((fun r : CpRun => r.num == n) ∘ fun r => if r.num == num then f r else r) = fun r => r.num == n := by
    funext r
    simp only [Function.comp_apply]
    split <;> simp [hf]
  simp only [Context.cpRun, Context.modRun, List.find?_map, hp]

theorem cpRun_modRun_same {f : CpRun → CpRun} (hf : ∀ r, (f r).num = r.num) (h : x.cpRun num = some r) :
    (x.modRun num f).cpRun num = some (f r) := by
  rw [cpRun_modRun hf, h, Option.map_some, if_pos (by simp [cpRun_num h])]

theorem cpRun_modRun_none {f : CpRun → CpRun} (hf : ∀ r, (f r).num = r.num) (n : W32) (h : x.cpRun num = none) :
    (x.modRun n f).cpRun num = none := by
  rw [cpRun_modRun hf, h, Option.map_none]

/-- A command with no move of its own is done with its moves as it begins. -/
theorem cpRun_marked (h : x.cpRun e.num = none) :
    ∃ r, ((x.newRun e tl k src dst).markMoved e.num).cpRun e.num = some r ∧ r.moved = true ∧ r.t = tl :=
  ⟨_, cpRun_modRun_same (fun _ => rfl) (cpRun_newRun h), rfl, rfl⟩

/-- A command with a fresh run has begun, with its moves to come. -/
theorem begun_of_freshRun {t : State} (h : (cur t).cpRun e.num = some (freshRun x e tl k src dst)) : begun t e tl k :=
  ⟨_, h, rfl, rfl, rfl, rfl, rfl⟩

theorem begun_of_newRun {t : State} (ht : cur t = x.newRun e tl k src dst) (h : x.cpRun e.num = none) : begun t e tl k :=
  begun_of_freshRun (x := x) (by rw [ht]; exact cpRun_newRun h)

/-! ## Reasons of an illegal command (R234, R257, R259) -/

/-- A pool address of the command's fields has a bit that must be zero. -/
theorem poolHigh_eq_false_iff {tl : CpTail} {src dst : Addr} : poolHigh tl src dst = false ↔ poolAddrs tl src dst := by
  simp only [poolHigh, poolAddrs, Bool.or_eq_false_iff, Bool.and_eq_false_imp, decide_eq_false_iff_not, not_le]

theorem poolHigh_eq_true_iff {tl : CpTail} {src dst : Addr} : poolHigh tl src dst = true ↔ ¬ poolAddrs tl src dst := by
  rw [← poolHigh_eq_false_iff, Bool.not_eq_false]

/-- The checksum mode is none of R257. -/
abbrev modeBad (tl : CpTail) : Prop := tl.ckm = 3 ∨ ((tl.chain = true ∨ tl.check = true) ∧ tl.ckm = 0)

theorem modeBad_iff : modeBad tl ↔ tl.ckm = 3 ∨ ((tl.chain || tl.check) && tl.ckm == 0) = true := by simp [modeBad]

theorem tailReason_of_modeBad (h : modeBad tl) : x.tailReason tl = some 4 := if_pos (modeBad_iff.mp h)

theorem tailReason_of_modeOk (h : ¬ modeBad tl) :
    x.tailReason tl = if tl.chain = true ∧ x.cp.ckrm ≠ tl.ckm then some 5 else none := by
  rw [Context.tailReason, if_neg (mt modeBad_iff.mpr h)]
  simp only [Bool.and_eq_true, bne_iff_ne]

theorem not_modeBad (h3 : tl.ckm ≠ 3) (h0 : tl.chain = true ∨ tl.check = true → tl.ckm ≠ 0) : ¬ modeBad tl :=
  fun h => h.elim h3 fun h => h0 h.1 h.2

/-! ## The fault of a begin (R259) -/

variable {s : State} {b : CpBegin}

/-- The reason for which a command is illegal, if any, in the model's order (log entry 80). -/
def illegalReason (x : Context) (b : CpBegin) : Option Nat := (if b.high then some 2 else none).or (b.reason.or (x.tailReason b.t))

theorem cpBeginFault_illegal {n : Nat} (h : illegalReason x b = some n) :
    s.cpBeginFault x e b = some (cpFault 0x0401 0 0 (e.w.setWidth 64) (BitVec.ofNat 64 n)) := by
  unfold illegalReason at h
  simp only [State.cpBeginFault, h]

theorem cpBeginFault_early {f : Bool × Nat × W64} (h : illegalReason x b = none) (hf : b.early.find? (·.1) = some f) :
    s.cpBeginFault x e b = some (cpFault f.2.1 0 0 (e.w.setWidth 64) f.2.2) := by
  unfold illegalReason at h
  simp only [State.cpBeginFault, h, hf]

theorem cpBeginFault_items (h : illegalReason x b = none) (hf : b.early.find? (·.1) = none) :
    s.cpBeginFault x e b = s.itemsFault x b.items := by
  unfold illegalReason at h
  simp only [State.cpBeginFault, h, hf]

theorem illegalReason_high (h : b.high = true) : illegalReason x b = some 2 := by simp [illegalReason, h]

theorem illegalReason_own {n : Nat} (hh : b.high = false) (h : b.reason = some n) : illegalReason x b = some n := by
  simp [illegalReason, hh, h]

theorem illegalReason_tail (hh : b.high = false) (h : b.reason = none) : illegalReason x b = x.tailReason b.t := by
  simp [illegalReason, hh, h]

/-! ## What lets a command begin (R233) -/

/-- A command with modes of R257 has no reason in its common fields. -/
theorem tailReason_of_cpMay (h : cpMay s e tl) : (cur s).tailReason tl = none := by
  obtain ⟨-, -, -, -, h3, h0, hc⟩ := h
  rw [tailReason_of_modeOk (not_modeBad h3 h0), if_neg fun h => h.2 (hc h.1)]

theorem cpNext_of_cpMay (h : cpMay s e tl) : cpNext s e tl := by
  obtain ⟨he, hh, hm, hc, -⟩ := h
  exact ⟨he, hh, hm, hc⟩

variable {plan : Context → CpEntry → CpBegin} {go : CtxId → CpEntry → State → State}

/-- The next command begins when nothing it asks for is missing and it meets no fault. -/
theorem cpOp_begins_of_cpMay (h : cpMay s e (plan (cur s) e).t) (hh : (plan (cur s) e).high = false)
    (hr : (plan (cur s) e).reason = none) (hy : (plan (cur s) e).ready = true) (hk : (cur s).cpClash (plan (cur s) e).clash = false)
    (hf : (plan (cur s) e).early.find? (·.1) = none) (hi : s.itemsFault (cur s) (plan (cur s) e).items = none) :
    s.cpOp plan go = .next (go s.focus e s) := by
  have ht := tailReason_of_cpMay h
  obtain ⟨he, hhalt, hm, hc, -⟩ := h
  refine cpOp_begins he hhalt (cpFree_of_allMoved hm) hc hy hk ?_
  rw [cpBeginFault_items ((illegalReason_tail hh hr).trans ht) hf, hi]

/-- The next command meets its fault as it would begin. -/
theorem cpOp_faults {f : FaultInfo} (h : cpNext s e (plan (cur s) e).t) (hy : (plan (cur s) e).ready = true)
    (hk : (cur s).cpClash (plan (cur s) e).clash = false) (hf : s.cpBeginFault (cur s) e (plan (cur s) e) = some f) :
    s.cpOp plan go = .next (s.cpRaise s.focus e.num f) := by
  obtain ⟨he, hh, hm, hc⟩ := h
  have hw : ((plan (cur s) e).t.chain && !(cur s).cp.cks.isEmpty) = false := by
    cases h : (plan (cur s) e).t.chain
    · rfl
    · simp [hc h]
  simp only [cur] at *
  simp [State.cpOp, he, hh, cpFree_of_allMoved hm, hw, hy, hk, hf]

/-! ## A fault at the begin (R258, R259) -/

@[simp] theorem endItem_fcnt (x : Context) (eng : Nat) : (x.endItem eng).fcnt = x.fcnt := by
  unfold Context.endItem
  dsimp only
  repeat' split
  all_goals rfl

@[simp] theorem haltEng_fcnt (x : Context) (eng : Nat) : (x.haltEng eng).fcnt = x.fcnt := by
  unfold Context.haltEng
  repeat' split
  all_goals rfl

/-- Every fault counts in FCNT of its context (R91). -/
theorem raise_fcnt (s : State) (c : CtxId) (eng unit : Nat) (loc : W64) (f : FaultInfo) :
    ((s.raise c eng unit loc f).ctx c).fcnt = satInc (s.ctx c).fcnt := by
  simp only [State.raise, State.raiseAt, modCtx_ctx]
  split
  · rw [endItem_fcnt]; rfl
  · rw [haltEng_fcnt]; rfl

/-- A fault of the copy engine leaves its record. -/
theorem recorded_cpRaise (s : State) (num : W32) (f : FaultInfo) :
    recorded s (s.cpRaise s.focus num f) s.focus 3 f.code f.st f.addr f.det0 f.det1 := by
  obtain ⟨r, hr, hsrc, hclk, hseq, -, hcode, hst, heng, hcore, hctx, -, haddr, hd0, hd1, htime⟩ :=
    raise_faults s s.focus 3 0 (cpWhere num) f
  exact ⟨r, hr, hsrc, heng, hcode, hst, haddr, hd0, hd1, hcore, hctx, htime, hclk, hseq, raise_fcnt _ _ _ _ _ _⟩

/-- A command that raises a fault of STATE 0 as it would begin halts its engine and moves nothing. -/
theorem cpFaulted_of_raise {i : Instr} {code det1 : Nat}
    (h : exec i s = .next (s.cpRaise s.focus e.num (cpFault code 0 0 (e.w.setWidth 64) (BitVec.ofNat 64 det1)))) :
    cpFaulted s i e code det1 := by
  have hx : cur (s.cpRaise s.focus e.num (cpFault code 0 0 (e.w.setWidth 64) (BitVec.ofNat 64 det1))) =
      ({ cur s with fcnt := satInc (cur s).fcnt } : Context).haltEng 3 := raise_ctx (show (0 : Nat) ≠ 2 by decide)
  refine ⟨_, h, recorded_cpRaise _ _ _, ?_, ?_, ?_, mem_raise _ _ _ _ _ _, ?_⟩ <;> rw [hx] <;> rfl

end Sys2Proof.Proofs


/-! What the copy commands that move no bytes at once do as they begin (R240, R245, R248, R251 to R254). -/

namespace Sys2Proof.Proofs

open Sys2Proof.Machine Sys2Proof.Claims

variable {s : State} {e : CpEntry}

/-! ## Empty footprints -/

@[simp] theorem cpClash_nil (x : Context) : x.cpClash [] = false := by simp [Context.cpClash]

@[simp] theorem itemsFault_nil (s : State) (x : Context) : s.itemsFault x [] = none := by
  simp [State.itemsFault, cpKinds]

/-! ## `pat` and `cmpl` -/

theorem pat_begins (f : PatForm) (h : cpMay s e noTail) : ∃ t, exec (.pat f) s = .next t ∧ t.mem = s.mem ∧
    (cur t).cp.pats = (cur s).cp.pats.set f.slot.toNat ⟨f.runM1.toNat + 1, f.c1M1.toNat + 1, f.c2M1.toNat + 1, f.c3M1.toNat + 1,
      f.s1.toInt, f.s2.toInt, f.s3.toInt⟩ ∧ ∃ r, (cur t).cpRun e.num = some r ∧ r.moved = true := by
  have hrun := cpRun_of_cpHead h.1
  refine ⟨_, (exec_pat f s).trans (cpOp_begins_of_cpMay h rfl rfl rfl (cpClash_nil _) rfl (itemsFault_nil _ _)), rfl, ?_, ?_⟩ <;>
    rw [cur_modCtx]
  · rfl
  · obtain ⟨r, hr, hm, -⟩ := cpRun_marked (tl := noTail) (k := .mark) (src := []) (dst := []) hrun
    exact ⟨r, hr, hm⟩

theorem cmpl_begins {tl : CpTail} (h : cpMay s e tl) (hw : tl.cw = true) (hc : clearOf s (tailItems tl)) :
    ∃ t, exec (.cmpl tl) s = .next t ∧ t.mem = s.mem ∧ (cur t).pool = (cur s).pool ∧
      ∃ r, (cur t).cpRun e.num = some r ∧ r.moved = true ∧ r.t = tl := by
  have hrun := cpRun_of_cpHead h.1
  refine ⟨_, (exec_cmpl tl s).trans (cpOp_begins_of_cpMay h rfl (if_pos hw) rfl hc.1 rfl hc.2), rfl, ?_, ?_⟩ <;> rw [cur_modCtx]
  · rfl
  · exact cpRun_marked hrun

/-! ## `cbld` and `itld` (R252, R253) -/

theorem banks_modBank_same {x : Context} {k : Nat} {f : Bank → Bank} : (x.modBank k f).banks[k]? = x.banks[k]?.map f := by
  simp [Context.modBank, List.getElem?_map, List.getElem?_zipIdx, Function.comp_def]

theorem banks_modBank_ne {x : Context} {k j : Nat} {f : Bank → Bank} (h : j ≠ k) : (x.modBank k f).banks[j]? = x.banks[j]? := by
  simp [Context.modBank, List.getElem?_map, List.getElem?_zipIdx, Function.comp_def, h]

/-- Each side has its own valid count. -/
theorem valid_setValid (b : Bank) (side : Bool) (n : Nat) :
    (if side then (b.setValid side n).sel.valid1 else (b.setValid side n).sel.valid0) = n := by
  cases side <;> rfl

/-- No begun matrix command reads the side. -/
theorem sideRead_eq_false {x : Context} {k : Nat} {side : Bool} (h : ∀ r ∈ x.mx.runs, (k, side) ∉ r.reads) :
    x.sideRead k side = false :=
  List.any_eq_false.mpr fun r hr => by simpa using h r hr

theorem countReason_of_le {n : BitVec 9} (h : n.toNat ≤ 256) : countReason n = none := if_neg (by omega)

/-- What a load of `n` bytes from `src` touches, with elements of `al` bytes in the device's address space (R252, R253). -/
def loadItems (tl : CpTail) (al : Nat) (src : Addr) (n : Nat) : List CpItem :=
  itemsOf tl.spool false (if tl.spool then 1 else al) false [(src.toNat, n)] ++ tailItems tl

/-- What `cbld` asks of its begin. -/
def cbldPlan (s : State) (f : CbldForm) (x : Context) : CpBegin :=
  ⟨f.t, poolHigh f.t f.src 0, countReason f.count,
    [(x.frontOf s.clk f.bank.toNat == f.side, 0x0404, BitVec.ofNat 64 (256 + f.side.toNat * 4 + f.bank.toNat))],
    loadItems f.t 2 f.src (2 * f.count.toNat), loadItems f.t 2 f.src (2 * f.count.toNat),
    x.frontOf s.clk f.bank.toNat == f.side || !x.sideRead f.bank.toNat f.side⟩

/-- The begin of `cbld`. -/
def cbldGo (f : CbldForm) (c : CtxId) (e : CpEntry) (s : State) : State :=
  s.modCtx c fun x => (x.modBank f.bank.toNat fun b => b.setValid f.side 0).newRun e f.t
    (.bank f.bank.toNat f.side f.count.toNat false) [(f.src.toNat, 2 * f.count.toNat)] []

theorem cur_cbldGo (f : CbldForm) (e : CpEntry) (s : State) : cur (cbldGo f s.focus e s) =
    ((cur s).modBank f.bank.toNat fun b => b.setValid f.side 0).newRun e f.t (.bank f.bank.toNat f.side f.count.toNat false)
      [(f.src.toNat, 2 * f.count.toNat)] [] := cur_modCtx s _

theorem banks_cbldGo (f : CbldForm) (e : CpEntry) (s : State) : (cur (cbldGo f s.focus e s)).banks =
    ((cur s).modBank f.bank.toNat fun b => b.setValid f.side 0).banks := by
  rw [cur_cbldGo]
  rfl

theorem exec_cbld (f : CbldForm) (s : State) : exec (.cbld f) s = s.cpOp (fun x _ => cbldPlan s f x) (cbldGo f) := rfl

theorem cbld_begins {f : CbldForm} (h : cpMay s e f.t) (hp : poolAddrs f.t f.src 0) (hn : f.count.toNat ≤ 256)
    (hs : (cur s).frontOf s.clk f.bank.toNat ≠ f.side) (hr : ∀ r ∈ (cur s).mx.runs, (f.bank.toNat, f.side) ∉ r.reads)
    (hc : clearOf s (itemsOf f.t.spool false (if f.t.spool then 1 else 2) false [(f.src.toNat, 2 * f.count.toNat)] ++ tailItems f.t)) :
    ∃ t, exec (.cbld f) s = .next t ∧ begun t e f.t (.bank f.bank.toNat f.side f.count.toNat false) ∧
      (∀ b, (cur t).banks[f.bank.toNat]? = some b → (if f.side then b.sel.valid1 else b.sel.valid0) = 0) ∧
      (∀ k, k ≠ f.bank.toNat → (cur t).banks[k]? = (cur s).banks[k]?) := by
  have hrun := cpRun_of_cpHead h.1
  have hf : ((cur s).frontOf s.clk f.bank.toNat == f.side) = false := beq_eq_false_iff_ne.mpr hs
  refine ⟨_, (exec_cbld f s).trans (cpOp_begins_of_cpMay (plan := fun x _ => cbldPlan s f x) h (poolHigh_eq_false_iff.mpr hp)
    (countReason_of_le hn) ?_ hc.1 ?_ hc.2),
    begun_of_newRun (cur_cbldGo f e s) hrun, fun b hb => ?_, fun k hk => ?_⟩
  · simp only [cbldPlan, sideRead_eq_false hr, Bool.not_false, Bool.or_true]
  · simp only [cbldPlan, List.find?_cons, hf, List.find?_nil]
  · rw [banks_cbldGo, banks_modBank_same] at hb
    obtain ⟨b', -, rfl⟩ := Option.map_eq_some_iff.mp hb
    exact valid_setValid b' f.side 0
  · rw [banks_cbldGo, banks_modBank_ne hk]

/-- A table made invalid, each other as it was. -/
def invalidTable (k : Nat) (l : List ITable) : List ITable :=
  l.zipIdx.map fun t => if t.2 = k then { t.1 with valid := 0 } else t.1

theorem invalidTable_same (k : Nat) (l : List ITable) : (invalidTable k l)[k]? = l[k]?.map fun b => { b with valid := 0 } := by
  simp [invalidTable, List.getElem?_map, List.getElem?_zipIdx, Function.comp_def]

theorem invalidTable_ne {k j : Nat} (h : j ≠ k) (l : List ITable) : (invalidTable k l)[j]? = l[j]? := by
  simp [invalidTable, List.getElem?_map, List.getElem?_zipIdx, Function.comp_def, h]

/-- What `itld` asks of its begin. -/
def itldPlan (f : ItldForm) : CpBegin :=
  ⟨f.t, poolHigh f.t f.src 0, countReason f.count, [], loadItems f.t 4 f.src (4 * f.count.toNat),
    loadItems f.t 4 f.src (4 * f.count.toNat), true⟩

/-- The begin of `itld`. -/
def itldGo (f : ItldForm) (c : CtxId) (e : CpEntry) (s : State) : State :=
  s.modCtx c fun x => { x with tables := invalidTable f.table.toNat x.tables }.newRun e f.t (.table f.table.toNat f.count.toNat)
    [(f.src.toNat, 4 * f.count.toNat)] []

theorem cur_itldGo (f : ItldForm) (e : CpEntry) (s : State) : cur (itldGo f s.focus e s) =
    { cur s with tables := invalidTable f.table.toNat (cur s).tables }.newRun e f.t (.table f.table.toNat f.count.toNat)
      [(f.src.toNat, 4 * f.count.toNat)] [] := cur_modCtx s _

theorem tables_itldGo (f : ItldForm) (e : CpEntry) (s : State) : (cur (itldGo f s.focus e s)).tables =
    invalidTable f.table.toNat (cur s).tables := by
  rw [cur_itldGo]
  rfl

theorem exec_itld (f : ItldForm) (s : State) : exec (.itld f) s = s.cpOp (fun _ _ => itldPlan f) (itldGo f) := rfl

theorem itld_begins {f : ItldForm} (h : cpMay s e f.t) (hp : poolAddrs f.t f.src 0) (hn : f.count.toNat ≤ 256)
    (hc : clearOf s (itemsOf f.t.spool false (if f.t.spool then 1 else 4) false [(f.src.toNat, 4 * f.count.toNat)] ++ tailItems f.t)) :
    ∃ t, exec (.itld f) s = .next t ∧ begun t e f.t (.table f.table.toNat f.count.toNat) ∧
      (∀ b, (cur t).tables[f.table.toNat]? = some b → b.valid = 0) ∧
      (∀ k, k ≠ f.table.toNat → (cur t).tables[k]? = (cur s).tables[k]?) := by
  have hrun := cpRun_of_cpHead h.1
  refine ⟨_, (exec_itld f s).trans (cpOp_begins_of_cpMay (plan := fun _ _ => itldPlan f) h (poolHigh_eq_false_iff.mpr hp)
    (countReason_of_le hn) rfl hc.1 rfl hc.2),
    begun_of_newRun (cur_itldGo f e s) hrun, fun b hb => ?_, fun k hk => ?_⟩
  · rw [tables_itldGo, invalidTable_same] at hb
    obtain ⟨b', -, rfl⟩ := Option.map_eq_some_iff.mp hb
    rfl
  · rw [tables_itldGo, invalidTable_ne hk]

/-! ## `unpack` (R251) -/

/-- A slice of bytes read is read at its own address. -/
theorem memRead_slice (m : Mem) (a : Nat) {i k n : Nat} (h : i + k ≤ n) : ((memRead m a n).drop i).take k = memRead m (a + i) k := by
  refine List.ext_getElem (by simp [memRead]; omega) fun j h1 h2 => ?_
  simp [memRead, Nat.add_assoc]

theorem peerOf_of_local {a : Nat} (h : isRemote a = false) : peerOf a = none := by
  simpa using (Bool.or_eq_false_iff.mp h).2

/-- A range in this device meets no port that is down. -/
theorem downFault_of_local {wr : Bool} {l : List (Nat × Nat)} (h : ∀ q ∈ l, isRemote q.1 = false) : s.downFault wr l = none := by
  have hf : l.find? (fun r => match peerOf r.1 with
      | some (p, _) => !(s.link p).up
      | none => false) = none :=
    List.find?_eq_none.mpr fun q hq => by simp [peerOf_of_local (h q hq)]
  unfold State.downFault
  rw [Option.map_eq_none_iff]
  exact hf

/-- A source in this device asks for nothing from outside. -/
theorem askRuns_of_local {c : CtxId} {num : W32} {l : List (Nat × Nat)} (h : ∀ q ∈ l, isRemote q.1 = false) :
    s.askRuns c num l = s.modRun c num fun r => { r with asked := true } := by
  have hl : (l.flatMap fun r => if isRemote r.1 then requests r.1 r.2 else []) = [] :=
    List.flatMap_eq_nil_iff.mpr fun q hq => by simp [h q hq]
  simp only [State.askRuns, hl, List.foldl_nil]

@[simp] theorem modRun_ctx (s : State) (c : CtxId) (num : W32) (f : CpRun → CpRun) :
    (s.modRun c num f).ctx c = (s.ctx c).modRun num f := modCtx_ctx _ _ _

/-- A begun command with its source in this device acts in the clock it begins (log entry 16). -/
theorem cpAdvance_of_local {c : CtxId} {num : W32} {r : CpRun} (h : (s.ctx c).cpRun num = some r) (hm : r.moved = false)
    (hf : r.faulted = false) (hl : r.late = none) (ha : r.asked = false) (hk : ∀ b side n, r.kind ≠ .bank b side n true)
    (hsrc : ∀ q ∈ (if r.t.spool then [] else r.src), isRemote q.1 = false) :
    s.cpAdvance c num = (s.modRun c num fun r => { r with asked := true }).cpMove c { r with asked := true } := by
  have hr : ((s.modRun c num fun r => { r with asked := true }).ctx c).cpRun num = some { r with asked := true } := by
    rw [modRun_ctx]
    exact cpRun_modRun_same (fun _ => rfl) h
  have hgo : (r.moved || r.faulted || r.late.isSome) = false := by simp [hm, hf, hl]
  simp only [State.cpAdvance, h, hgo, ha, downFault_of_local hsrc, askRuns_of_local hsrc, hr, Bool.false_eq_true, if_false]

/-- What `unpack` asks of its begin. -/
def unpackPlan (f : UnpackForm) (x : Context) : CpBegin :=
  let items := itemsOf false false 1 false [(f.src.toNat, 16)] ++ tailItems f.t
  ⟨f.t, poolHigh f.t 0 f.dst, if f.rmax.toNat = 0 ∨ 8 < f.rmax.toNat ∨ f.maxo.toNat % 32 ≠ 0 then some 3 else none,
    [(!x.bufferOk (f.fbuf.toNat * 4096) 8192, 0x0403, BitVec.ofNat 64 (f.fbuf.toNat * 4096 % 2 ^ 20))], items,
    ⟨true, f.fbuf.toNat * 4096, 8192, true, 1, true⟩ :: items, true⟩

/-- The begin of `unpack`: its header is read. -/
def unpackGo (f : UnpackForm) (c : CtxId) (e : CpEntry) (s : State) : State :=
  (s.modCtx c fun x => x.newRun e f.t (.unpackHead f) [(f.src.toNat, 16)] []).cpAdvance c e.num

theorem exec_unpack (f : UnpackForm) (s : State) : exec (.unpack f) s = s.cpOp (fun x _ => unpackPlan f x) (unpackGo f) := rfl

/-- The header names sizes that R251 accepts. -/
structure HeaderOk (f : UnpackForm) (m : Mem) (olen clen : Nat) : Prop where
  word0 : leNat (memRead m f.src.toNat 4) = olen
  word2 : leNat (memRead m (f.src.toNat + 8) 4) = clen
  word1 : leNat (memRead m (f.src.toNat + 4) 4) = 0
  word3 : leNat (memRead m (f.src.toNat + 12) 4) = 0
  whole : olen % 32 = 0
  most : olen ≤ f.maxo.toNat
  least : olen / 8 ≤ clen
  bound : clen ≤ 36 * (olen / 32)
  ratio : olen ≤ f.rmax.toNat * clen

/-- The four words of a header read as 16 bytes. -/
theorem header_words (m : Mem) (a : Nat) : (memRead m a 16).take 4 = memRead m a 4 ∧
    ((memRead m a 16).drop 4).take 4 = memRead m (a + 4) 4 ∧ ((memRead m a 16).drop 8).take 4 = memRead m (a + 8) 4 ∧
    ((memRead m a 16).drop 12).take 4 = memRead m (a + 12) 4 :=
  ⟨memRead_slice m a (i := 0) (by decide), memRead_slice m a (by decide), memRead_slice m a (by decide), memRead_slice m a (by decide)⟩

theorem unpackBad_of_headerOk {f : UnpackForm} {m : Mem} {olen clen : Nat} (h : HeaderOk f m olen clen) :
    unpackBad f (memRead m f.src.toNat 16) = false := by
  obtain ⟨w0, w1, w2, w3⟩ := header_words m f.src.toNat
  obtain ⟨h0, h2, h1, h3, h32, hmax, hle, hb, hr⟩ := h
  simp only [unpackBad, w0, w1, w2, w3, h0, h1, h2, h3, Bool.or_eq_false_iff, decide_eq_false_iff_not]
  omega

/-- The second stage of `unpack` is set up where the header is in order and the body's footprint is clear. -/
theorem cpUnpack_of_headerOk {c : CtxId} {r : CpRun} {f : UnpackForm} {m : Mem} {olen clen : Nat} (h : HeaderOk f m olen clen)
    (hc : (s.ctx c).cpClash [⟨false, f.src.toNat, 16 + clen, false, 1, false⟩, ⟨f.t.dpool, f.dst.toNat, olen, true, 1, false⟩] = false)
    (hi : s.itemsFault (s.ctx c) [⟨false, f.src.toNat, 16 + clen, false, 1, false⟩, ⟨f.t.dpool, f.dst.toNat, olen, true, 1, false⟩] = none) :
    s.cpUnpack c r f (memRead m f.src.toNat 16) = s.modRun c r.num fun r =>
      { r with kind := .unpackBody f olen clen, src := [(f.src.toNat + 16, clen)], dst := [(f.dst.toNat, olen)], asked := false } := by
  obtain ⟨w0, -, w2, -⟩ := header_words m f.src.toNat
  simp only [State.cpUnpack, unpackBad_of_headerOk h, w0, w2, h.word0, h.word2, hc, hi, Bool.false_eq_true, if_false]

/-- A source range in this device is read from memory. -/
theorem cpRead_device {c : CtxId} {r : CpRun} {a n : Nat} (h : isRemote a = false) :
    s.cpRead c r false [(a, n)] = (memRead s.mem a n, s) := by
  simp [State.cpRead, h]

/-- Once no byte is awaited from outside, a command without a destination yet acts. -/
theorem cpMove_of_ready {c : CtxId} {r : CpRun} (hh : r.host = []) (hp : r.peer = []) (hd : r.dst = []) :
    s.cpMove c r = s.cpAct c r := by
  have hf : (if r.t.dpool then none else s.downFault true r.dst) = none := by
    rw [hd, downFault_of_local (by simp), ite_self]
  simp only [State.cpMove, hh, hp, List.isEmpty_nil, Bool.and_self, if_true, hf]

/-- What a footprint meets depends on the ports, the read-only ranges and the work item alone. -/
theorem itemsFault_congr {t : State} {x y : Context} (hl : t.links = s.links) (hr : t.ro = s.ro) (hj : y.job = x.job)
    (l : List CpItem) : t.itemsFault y l = s.itemsFault x l := by
  have hlink (p : Nat) : t.link p = s.link p := by rw [State.link, hl]; rfl
  have hcarve : y.carve = x.carve := by rw [Context.carve, hj]; rfl
  have hleases : y.leases = x.leases := by rw [Context.leases, hj]; rfl
  have hb (code : Nat) (i : CpItem) : i.bad t y code = i.bad s x code := by
    simp only [CpItem.bad, hlink, hcarve, hleases, hr]
  simp only [State.itemsFault, hb]

/-- The state in which the header of an `unpack` has been asked for: nothing of it lies outside. -/
def headerAsked (s : State) (e : CpEntry) (f : UnpackForm) : State :=
  (s.modCtx s.focus fun x => x.newRun e f.t (.unpackHead f) [(f.src.toNat, 16)] []).modRun s.focus e.num fun r => { r with asked := true }

/-- The run then. -/
def headerRun (s : State) (e : CpEntry) (f : UnpackForm) : CpRun :=
  { freshRun (cur s) e f.t (.unpackHead f) [(f.src.toNat, 16)] [] with asked := true }

theorem headerAsked_ctx (s : State) (e : CpEntry) (f : UnpackForm) : (headerAsked s e f).ctx s.focus =
    ((cur s).newRun e f.t (.unpackHead f) [(f.src.toNat, 16)] []).modRun e.num fun r => { r with asked := true } := by
  rw [headerAsked, modRun_ctx, modCtx_ctx]

theorem headerAsked_run (f : UnpackForm) (hrun : (cur s).cpRun e.num = none) :
    ((headerAsked s e f).ctx s.focus).cpRun e.num = some (headerRun s e f) := by
  rw [headerAsked_ctx]
  exact cpRun_modRun_same (fun _ => rfl) (cpRun_newRun hrun)

/-- A header in this device is read in the clock in which its command begins (R251, log entry 16). -/
theorem unpackGo_reads {f : UnpackForm} (hrun : (cur s).cpRun e.num = none) (hsrc : isRemote f.src.toNat = false) :
    unpackGo f s.focus e s =
      (headerAsked s e f).cpUnpack s.focus (headerRun s e f) f (memRead s.mem f.src.toNat 16) := by
  have h1 : ((s.modCtx s.focus fun x => x.newRun e f.t (.unpackHead f) [(f.src.toNat, 16)] []).ctx s.focus).cpRun e.num =
      some (freshRun (cur s) e f.t (.unpackHead f) [(f.src.toNat, 16)] []) := by
    rw [modCtx_ctx]
    exact cpRun_newRun hrun
  have hlocal : ∀ q ∈ (if f.t.spool then [] else [(f.src.toNat, 16)]), isRemote q.1 = false := by
    split <;> simp [hsrc]
  calc unpackGo f s.focus e s
      = (headerAsked s e f).cpMove s.focus (headerRun s e f) :=
        cpAdvance_of_local h1 rfl rfl rfl rfl (fun _ _ _ => CpKind.noConfusion) hlocal
    _ = (headerAsked s e f).cpAct s.focus (headerRun s e f) := cpMove_of_ready rfl rfl rfl
    _ = _ := by
        have hread : (headerAsked s e f).cpRead s.focus (headerRun s e f) false (headerRun s e f).src =
            (memRead s.mem f.src.toNat 16, headerAsked s e f) := cpRead_device hsrc
        simp only [State.cpAct, hread]
        rfl

theorem unpack_begins {f : UnpackForm} (h : cpMay s e f.t) (hp : poolAddrs f.t 0 f.dst) (h1 : 1 ≤ f.rmax.toNat)
    (h8 : f.rmax.toNat ≤ 8) (h32 : f.maxo.toNat % 32 = 0) (hbuf : (cur s).bufferOk (f.fbuf.toNat * 4096) 8192 = true)
    (hk : (cur s).cpClash (unpackPlan f (cur s)).clash = false) (hi : s.itemsFault (cur s) (unpackPlan f (cur s)).items = none)
    (hsrc : isRemote f.src.toNat = false) {olen clen : Nat} (hh : HeaderOk f s.mem olen clen)
    (hc : clearOf s [⟨false, f.src.toNat, 16 + clen, false, 1, false⟩, ⟨f.t.dpool, f.dst.toNat, olen, true, 1, false⟩]) :
    ∃ t, exec (.unpack f) s = .next t ∧ begun t e f.t (.unpackBody f olen clen) ∧ t.mem = s.mem := by
  have hrun := cpRun_of_cpHead h.1
  have hreason : ¬ (f.rmax.toNat = 0 ∨ 8 < f.rmax.toNat ∨ f.maxo.toNat % 32 ≠ 0) := by omega
  have hgo := (exec_unpack f s).trans (cpOp_begins_of_cpMay (plan := fun x _ => unpackPlan f x) h (poolHigh_eq_false_iff.mpr hp)
    (if_neg hreason) rfl hk (by simp [unpackPlan, hbuf]) hi)
  have hjob : ((headerAsked s e f).ctx s.focus).job = (cur s).job := by rw [headerAsked_ctx]; rfl
  have hbody : unpackGo f s.focus e s = _ := (unpackGo_reads hrun hsrc).trans (cpUnpack_of_headerOk hh
    ((congrArg (Context.cpClash · _) (headerAsked_ctx s e f)).trans hc.1)
    ((itemsFault_congr rfl rfl hjob _).trans hc.2))
  have hrunBody := cpRun_modRun_same (f := fun r => { r with
      kind := .unpackBody f olen clen, src := [(f.src.toNat + 16, clen)], dst := [(f.dst.toNat, olen)], asked := false })
    (fun _ => rfl) (headerAsked_run f hrun)
  exact ⟨_, hgo.trans (congrArg _ hbody), ⟨_, (congrArg (Context.cpRun · e.num) (modRun_ctx _ _ _ _)).trans hrunBody,
    rfl, rfl, rfl, rfl, rfl⟩, rfl⟩

/-! ## `bind` (R245) -/

/-- What a binding touches (R2, R246). -/
def bindPlan (s : State) (f : BindForm) (x : Context) : CpBegin :=
  ⟨f.t, (if f.out then f.t.dpool else f.t.spool) && decide (2 ^ 20 ≤ f.addr.toNat), bindReason f,
    [bindMismatch f ((cur s).pat f.pat), (!x.bufferOk (256 * f.buf.toNat) (256 * (f.depthM1.toNat + 1)), 0x0403,
      BitVec.ofNat 64 (256 * f.buf.toNat % 2 ^ 20))],
    bindItems s f,
    [⟨if f.out then f.t.dpool else f.t.spool, (((cur s).pat f.pat).bound f.addr.toNat).1, (((cur s).pat f.pat).bound f.addr.toNat).2,
      f.out, 1, true⟩],
    !(x.port f.port.toNat).bound && decide (x.cp.binds.length < 8)⟩

/-- The context of a binding that has just begun. -/
def bindCtx (p : PatSlot) (f : BindForm) (e : CpEntry) (x : Context) : Context :=
  ({ x with cp := { x.cp with binds := x.cp.binds ++ [(⟨e.num, f, p, 0⟩ : Binding)] } }.newRun e f.t .stream []
    (if f.out then (p.runs f.addr.toNat).map fun (r : Int × Nat) => (r.1.toNat, r.2) else [])).setPort f.port.toNat (boundPort f)

/-- The begin of `bind`. -/
def bindGo (p : PatSlot) (f : BindForm) (c : CtxId) (e : CpEntry) (s : State) : State :=
  (s.freePool c ((s.ctx c).port f.port.toNat).range).modCtx c (bindCtx p f e)

theorem exec_bind (f : BindForm) (s : State) :
    exec (.bind f) s = s.cpOp (fun x _ => bindPlan s f x) (bindGo ((cur s).pat f.pat) f) := rfl

/-- A release of pool bytes changes the pool of its context, and nothing else of it. -/
theorem freePool_ctx (s : State) (c : CtxId) (l : List Nat) : ∃ p, (s.freePool c l).ctx c = { s.ctx c with pool := p } :=
  ⟨_, modCtx_ctx _ _ _⟩

theorem port_setPort_same {x : Context} {n : Nat} (p : Port) (h : n < x.ports.length) : (x.setPort n p).port n = p := by
  simp [Context.port, Context.setPort, h]

theorem cur_bindGo (p : PatSlot) (f : BindForm) (e : CpEntry) (s : State) :
    ∃ q, cur (bindGo p f s.focus e s) = bindCtx p f e { cur s with pool := q } := by
  obtain ⟨q, hq⟩ := freePool_ctx s s.focus ((s.ctx s.focus).port f.port.toNat).range
  exact ⟨q, (modCtx_ctx _ _ _).trans (congrArg _ hq)⟩

theorem begun_bindGo (p : PatSlot) (f : BindForm) (hrun : (cur s).cpRun e.num = none) :
    begun (bindGo p f s.focus e s) e f.t .stream := by
  obtain ⟨q, hq⟩ := cur_bindGo p f e s
  exact begun_of_freshRun ((congrArg (Context.cpRun · e.num) hq).trans (cpRun_newRun hrun))

/-- The pattern of a bind whose runs are no multiple of the memory element. -/
theorem bindMismatch_of_chain {f : BindForm} {p : PatSlot} {ch : List (Nat × Nat) × Nat} (hc : bindChain f = some ch) :
    bindMismatch f p = (p.run % (bindSizes f ch.2).1 != 0, 0x0402,
      mismatchDet (p.len / (bindSizes f ch.2).1) (p.len / (bindSizes f ch.2).1)) := by
  simp only [bindMismatch, hc]

theorem bindMismatch_eq_false {f : BindForm} {p : PatSlot} (h : ∀ ch, bindChain f = some ch → p.run % (bindSizes f ch.2).1 = 0) :
    (bindMismatch f p).1 = false := by
  cases hc : bindChain f with
  | none => simp only [bindMismatch, hc]
  | some ch => simp [bindMismatch_of_chain hc, h ch hc]

theorem bindPlan_high {f : BindForm} (hp : (if f.out then f.t.dpool else f.t.spool) = true → f.addr.toNat < 2 ^ 20) :
    (bindPlan s f (cur s)).high = false := by simpa [bindPlan] using hp

theorem bindPlan_ready {f : BindForm} (hport : ((cur s).port f.port.toNat).bound = false) (h8 : (cur s).cp.binds.length < 8) :
    (bindPlan s f (cur s)).ready = true := by simp [bindPlan, hport, h8]

theorem bind_begins {f : BindForm} (h : cpMay s e f.t)
    (hp : (if f.out then f.t.dpool else f.t.spool) = true → f.addr.toNat < 2 ^ 20) (hr : bindReason f = none)
    (hm : ∀ ch, bindChain f = some ch → ((cur s).pat f.pat).run % (bindSizes f ch.2).1 = 0)
    (hbuf : (cur s).bufferOk (256 * f.buf.toNat) (256 * (f.depthM1.toNat + 1)) = true) (hport : ((cur s).port f.port.toNat).bound = false)
    (h8 : (cur s).cp.binds.length < 8) (h16 : (cur s).ports.length = 16) (hi : s.itemsFault (cur s) (bindItems s f) = none)
    (hk : (cur s).cpClash (bindPlan s f (cur s)).clash = false) :
    ∃ t, exec (.bind f) s = .next t ∧ begun t e f.t .stream ∧
      (cur t).port f.port.toNat = ⟨some f.out, true, [], 0, f.depthM1.toNat + 1, 256 * f.buf.toNat⟩ ∧
      (cur t).cp.binds = (cur s).cp.binds ++ [⟨e.num, f, (cur s).pat f.pat, 0⟩] := by
  have hrun := cpRun_of_cpHead h.1
  obtain ⟨q, hq⟩ := cur_bindGo ((cur s).pat f.pat) f e s
  have hlt : f.port.toNat < (cur s).ports.length := by have := f.port.isLt; omega
  refine ⟨_, (exec_bind f s).trans (cpOp_begins_of_cpMay (plan := fun x _ => bindPlan s f x) h (bindPlan_high hp) hr
    (bindPlan_ready hport h8) hk
    (by simp [bindPlan, bindMismatch_eq_false hm, hbuf]) hi), begun_bindGo _ f hrun, ?_, ?_⟩
  · rw [hq]
    exact port_setPort_same _ hlt
  · rw [hq]
    rfl

/-! ## `unbind` (R248) -/

/-- Updates of CKR change no run, binding or port. -/
theorem flushCks_frame (n : Nat) (x : Context) : (flushCks x n).cp.runs = x.cp.runs ∧ (flushCks x n).cp.binds = x.cp.binds ∧
    (flushCks x n).ports = x.ports := by
  induction n generalizing x with
  | zero => exact ⟨rfl, rfl, rfl⟩
  | succ n ih =>
    rw [flushCks]
    split
    · exact ih _
    · exact ⟨rfl, rfl, rfl⟩

theorem cpSum_frame (x : Context) (num : W32) : (x.cpSum num).cp.runs = x.cp.runs ∧ (x.cpSum num).cp.binds = x.cp.binds ∧
    (x.cpSum num).ports = x.ports := by
  unfold Context.cpSum
  split
  · split
    · exact flushCks_frame _ _
    · exact ⟨rfl, rfl, rfl⟩
  · exact ⟨rfl, rfl, rfl⟩

theorem setPort_ctx (s : State) (c : CtxId) (n : Nat) (p : Port) :
    ∃ q, (s.setPort c n p).ctx c = { (s.ctx c).setPort n p with pool := q } := by
  unfold State.setPort
  dsimp only
  split
  · obtain ⟨q, hq⟩ := freePool_ctx (s.modCtx c fun x => x.setPort n p) c ((s.ctx c).port n).range
    exact ⟨q, by rw [hq, modCtx_ctx]⟩
  · exact ⟨_, modCtx_ctx _ _ _⟩

/-- A context whose binding `b` has ended, before its checksum is noted (R248). -/
def unboundCtx (b : Binding) (x : Context) : Context :=
  { x with
    ports := x.ports.set b.f.port.toNat { x.port b.f.port.toNat with bound := false },
    cp := { x.cp with binds := x.cp.binds.filter fun u => u.num != b.num } }.markMoved b.num

theorem cpRun_unboundCtx_none (b : Binding) {x : Context} {n : W32} (h : x.cpRun n = none) : (unboundCtx b x).cpRun n = none :=
  cpRun_modRun_none (f := fun r => { r with moved := true }) (fun _ => rfl) b.num h

theorem endBinding_ctx (s : State) (c : CtxId) (b : Binding) :
    ∃ q, (s.endBinding c b).ctx c = (unboundCtx b { s.ctx c with pool := q }).cpSum b.num := by
  obtain ⟨q, hq⟩ := setPort_ctx s c b.f.port.toNat { (s.ctx c).port b.f.port.toNat with bound := false }
  refine ⟨q, ?_⟩
  rw [State.endBinding, modCtx_ctx, hq]
  rfl

theorem endBinding_focus (s : State) (c : CtxId) (b : Binding) : (s.endBinding c b).focus = s.focus := by
  unfold State.endBinding State.setPort
  dsimp only
  split <;> rfl

/-- What the end of a binding leaves of its context's ports and bindings; no run comes or goes (R248). -/
theorem endBinding_frame (s : State) (c : CtxId) (b : Binding) :
    ((s.endBinding c b).ctx c).ports = (s.ctx c).ports.set b.f.port.toNat { (s.ctx c).port b.f.port.toNat with bound := false } ∧
      ((s.endBinding c b).ctx c).cp.binds = (s.ctx c).cp.binds.filter (fun u => u.num != b.num) ∧
      ∀ n, (s.ctx c).cpRun n = none → ((s.endBinding c b).ctx c).cpRun n = none := by
  obtain ⟨q, hq⟩ := endBinding_ctx s c b
  obtain ⟨hr, hb, hp⟩ := cpSum_frame (unboundCtx b { s.ctx c with pool := q }) b.num
  rw [hq]
  refine ⟨hp, hb, fun n hn => ?_⟩
  rw [Context.cpRun, hr]
  exact cpRun_unboundCtx_none b (x := { s.ctx c with pool := q }) hn

/-- The begin of `unbind`: the binding of its port ends, if it has one. -/
def unbindGo (p : BitVec 4) (tl : CpTail) (c : CtxId) (e : CpEntry) (s : State) : State :=
  (match (s.ctx c).binding p with
    | some b => s.endBinding c b
    | none => s).modCtx c fun x => (x.newRun e tl .mark [] []).markMoved e.num

theorem exec_unbind (p : BitVec 4) (tl : CpTail) (s : State) : exec (.unbind p tl) s =
    s.cpOp (fun _ _ => ⟨tl, false, none, [], tailItems tl, tailItems tl, true⟩) (unbindGo p tl) := rfl

theorem unbind_begins (p : BitVec 4) {tl : CpTail} (h : cpMay s e tl) (hc : clearOf s (tailItems tl)) (h16 : (cur s).ports.length = 16) :
    ∃ t, exec (.unbind p tl) s = .next t ∧ (∃ r, (cur t).cpRun e.num = some r ∧ r.moved = true ∧ r.t = tl) ∧
      (∀ b, (cur s).binding p = some b → ((cur t).port p.toNat).bound = false ∧
        (cur t).cp.binds = (cur s).cp.binds.filter fun u => u.num != b.num) ∧
      ((cur s).binding p = none → (cur t).ports = (cur s).ports ∧ (cur t).cp.binds = (cur s).cp.binds) := by
  have hrun := cpRun_of_cpHead h.1
  refine ⟨unbindGo p tl s.focus e s, (exec_unbind p tl s).trans (cpOp_begins_of_cpMay h rfl rfl rfl hc.1 rfl hc.2), ?_⟩
  cases hb : (cur s).binding p with
  | none =>
    have hx : cur (unbindGo p tl s.focus e s) = ((cur s).newRun e tl .mark [] []).markMoved e.num := by
      simp only [unbindGo, hb]
      exact cur_modCtx s _
    rw [hx]
    exact ⟨cpRun_marked hrun, fun _ h => (Option.some_ne_none _ h.symm).elim, fun _ => ⟨rfl, rfl⟩⟩
  | some b =>
    have hx : cur (unbindGo p tl s.focus e s) = (((s.endBinding s.focus b).ctx s.focus).newRun e tl .mark [] []).markMoved e.num := by
      simp only [unbindGo, hb]
      rw [cur, modCtx_focus, endBinding_focus, modCtx_ctx]
    obtain ⟨hports, hbinds, hnone⟩ := endBinding_frame s s.focus b
    have hpb : b.f.port = p := by simpa using List.find?_some hb
    have hlt : p.toNat < (cur s).ports.length := by have := p.isLt; omega
    rw [hx]
    refine ⟨cpRun_marked (hnone _ hrun), fun b' hb' => ?_, fun h => (Option.some_ne_none _ h).elim⟩
    obtain rfl := Option.some.inj hb'
    refine ⟨?_, hbinds⟩
    have hset : Context.port ((s.endBinding s.focus b).ctx s.focus) p.toNat = { (cur s).port p.toNat with bound := false } := by
      rw [Context.port, hports, hpb]
      simp [hlt]
    exact congrArg Port.bound hset

end Sys2Proof.Proofs


/-! Settles O31: the faults of copy commands at their begin (R233, R242, R245, R251 to R254, R257 to R259), with the begins above. -/

namespace Sys2Proof.Proofs

open Sys2Proof.Machine Sys2Proof.Claims

variable {s : State} {e : CpEntry}

/-! ## The three kinds of a begin's fault -/

section
variable {i : Instr} {plan : Context → CpEntry → CpBegin} {go : CtxId → CpEntry → State → State} (hx : exec i s = s.cpOp plan go)
  (h : cpNext s e (plan (cur s) e).t) (hy : (plan (cur s) e).ready = true) (hk : (cur s).cpClash (plan (cur s) e).clash = false)
include hx h hy hk

/-- An illegal command faults with its reason. -/
theorem faults_illegal {n : Nat} (hr : illegalReason (cur s) (plan (cur s) e) = some n) : cpFaulted s i e 0x0401 n :=
  cpFaulted_of_raise (hx.trans (cpOp_faults h hy hk (cpBeginFault_illegal hr)))

/-- A legal command faults with the first of its own faults. -/
theorem faults_early {b : Bool} {code det1 : Nat} (hr : illegalReason (cur s) (plan (cur s) e) = none)
    (hf : (plan (cur s) e).early.find? (·.1) = some (b, code, BitVec.ofNat 64 det1)) : cpFaulted s i e code det1 :=
  cpFaulted_of_raise (hx.trans (cpOp_faults h hy hk (cpBeginFault_early hr hf)))

/-- A command without faults of its own faults with that of its footprint (R238). -/
theorem faults_items {g : FaultInfo} (hr : illegalReason (cur s) (plan (cur s) e) = none)
    (hf : (plan (cur s) e).early.find? (·.1) = none) (hg : s.itemsFault (cur s) (plan (cur s) e).items = some g) :
    ∃ t, exec i s = .next t ∧ recorded s t s.focus 3 g.code g.st g.addr g.det0 g.det1 :=
  ⟨_, hx.trans (cpOp_faults h hy hk ((cpBeginFault_items hr hf).trans hg)), recorded_cpRaise s e.num g⟩

end

/-! ## `copy` (R242, R257) -/

theorem cvtReason_of_formatsOk {cvt : Bool} {sf df : BitVec 5} (h : formatsOk cvt sf df) : cvtReason cvt sf df = none := by
  cases cvt with
  | false => rfl
  | true => obtain ⟨h1, h2⟩ := h rfl; simp [cvtReason, h1, h2]

theorem cvtReason_of_not_formatsOk {cvt : Bool} {sf df : BitVec 5} (h : ¬ formatsOk cvt sf df) : cvtReason cvt sf df = some 4 := by
  obtain ⟨rfl, hn⟩ := Classical.not_imp.mp h
  have : (cvtOk sf.toNat && cvtOk df.toNat) = false := by simpa [← Bool.not_eq_true] using hn
  simp [cvtReason, this]

/-- What `copy` touches. -/
def copyItems (f : CopyForm) : List CpItem :=
  let u := moveUnits f.cvt f.sfmt f.dfmt
  moveItems f.t u.1.1 u.2.1 [(f.src.toNat, f.len.toNat)] [(f.dst.toNat, f.len.toNat * u.1.2 / u.1.1 * u.2.1 / u.2.2)]

/-- The elements of the source of `copy`. -/
def copyCount (f : CopyForm) : Nat := f.len.toNat * (moveUnits f.cvt f.sfmt f.dfmt).1.2 / (moveUnits f.cvt f.sfmt f.dfmt).1.1

/-- What `copy` asks of its begin. -/
def copyPlan (f : CopyForm) : CpBegin :=
  let u := moveUnits f.cvt f.sfmt f.dfmt
  ⟨f.t, poolHigh f.t f.src f.dst, cvtReason f.cvt f.sfmt f.dfmt,
    [(countBad f.len.toNat u.1 u.2, 0x0402, mismatchDet (copyCount f) (copyCount f))], copyItems f, copyItems f, true⟩

theorem exec_copy (f : CopyForm) (s : State) : ∃ go, exec (.copy f) s = s.cpOp (fun _ _ => copyPlan f) go := by
  change ∃ go, execCopy f s = _
  unfold execCopy State.cpMoveOp
  exact ⟨_, rfl⟩

section
variable {f : CopyForm} (h : cpNext s e f.t) (hk : (cur s).cpClash (copyItems f) = false)
include h hk

theorem copy_faults_high (hp : ¬ poolAddrs f.t f.src f.dst) : cpFaulted s (.copy f) e 0x0401 2 := by
  obtain ⟨go, hx⟩ := exec_copy f s
  exact faults_illegal hx h rfl hk (illegalReason_high (poolHigh_eq_true_iff.mpr hp))

variable (hp : poolAddrs f.t f.src f.dst)
include hp

theorem copy_faults_mode (hm : ¬ formatsOk f.cvt f.sfmt f.dfmt ∨ modeBad f.t) : cpFaulted s (.copy f) e 0x0401 4 := by
  obtain ⟨go, hx⟩ := exec_copy f s
  refine faults_illegal hx h rfl hk ?_
  have hh : (copyPlan f).high = false := poolHigh_eq_false_iff.mpr hp
  by_cases hf : formatsOk f.cvt f.sfmt f.dfmt
  · exact (illegalReason_tail hh (cvtReason_of_formatsOk hf)).trans (tailReason_of_modeBad (hm.resolve_left (not_not_intro hf)))
  · exact illegalReason_own hh (cvtReason_of_not_formatsOk hf)

variable (hf : formatsOk f.cvt f.sfmt f.dfmt) (hm : ¬ modeBad f.t)
include hf hm

omit h hk in
theorem copy_illegalReason : illegalReason (cur s) (copyPlan f) =
    if f.t.chain = true ∧ (cur s).cp.ckrm ≠ f.t.ckm then some 5 else none :=
  (illegalReason_tail (poolHigh_eq_false_iff.mpr hp) (cvtReason_of_formatsOk hf)).trans (tailReason_of_modeOk hm)

theorem copy_faults_chain (hc : f.t.chain = true) (hr : (cur s).cp.ckrm ≠ f.t.ckm) : cpFaulted s (.copy f) e 0x0401 5 := by
  obtain ⟨go, hx⟩ := exec_copy f s
  exact faults_illegal hx h rfl hk ((copy_illegalReason hp hf hm).trans (if_pos ⟨hc, hr⟩))

variable (hc : f.t.chain = true → (cur s).cp.ckrm = f.t.ckm)
include hc

theorem copy_faults_count (hb : countBad f.len.toNat (moveUnits f.cvt f.sfmt f.dfmt).1 (moveUnits f.cvt f.sfmt f.dfmt).2 = true) :
    cpFaulted s (.copy f) e 0x0402 (copyCount f % 2 ^ 32 * 2 ^ 32 + copyCount f % 2 ^ 32) := by
  obtain ⟨go, hx⟩ := exec_copy f s
  exact faults_early hx h rfl hk ((copy_illegalReason hp hf hm).trans (if_neg fun hh => hh.2 (hc hh.1)))
    (by simp only [copyPlan, List.find?_cons, hb]; rfl)

theorem copy_faults_items (hb : countBad f.len.toNat (moveUnits f.cvt f.sfmt f.dfmt).1 (moveUnits f.cvt f.sfmt f.dfmt).2 = false)
    {g : FaultInfo} (hg : s.itemsFault (cur s) (copyItems f) = some g) :
    ∃ t, exec (.copy f) s = .next t ∧ recorded s t s.focus 3 g.code g.st g.addr g.det0 g.det1 := by
  obtain ⟨go, hx⟩ := exec_copy f s
  exact faults_items hx h rfl hk ((copy_illegalReason hp hf hm).trans (if_neg fun hh => hh.2 (hc hh.1)))
    (by simp only [copyPlan, List.find?_cons, hb, List.find?_nil]) hg

end

/-! ## Loads, marks and decompression (R251, R252, R254) -/

theorem countReason_of_lt {n : BitVec 9} (h : 256 < n.toNat) : countReason n = some 3 := if_pos h

/-- A load of more entries than a side holds is illegal, whether or not the side is free to load. -/
theorem cbld_faults_count {f : CbldForm} (h : cpMay s e f.t) (hp : poolAddrs f.t f.src 0)
    (hk : (cur s).cpClash (loadItems f.t 2 f.src (2 * f.count.toNat)) = false) (hn : 256 < f.count.toNat)
    (hr : (cur s).frontOf s.clk f.bank.toNat = f.side ∨ ∀ r ∈ (cur s).mx.runs, (f.bank.toNat, f.side) ∉ r.reads) :
    cpFaulted s (.cbld f) e 0x0401 3 := by
  refine faults_illegal (exec_cbld f s) (cpNext_of_cpMay h) ?_ hk
    (illegalReason_own (poolHigh_eq_false_iff.mpr hp) (countReason_of_lt hn))
  rcases hr with hf | hr
  · simp [cbldPlan, hf]
  · simp [cbldPlan, sideRead_eq_false hr]

/-- A load of the front side faults (R252, R259). -/
theorem cbld_faults_front {f : CbldForm} (h : cpMay s e f.t) (hp : poolAddrs f.t f.src 0)
    (hk : (cur s).cpClash (loadItems f.t 2 f.src (2 * f.count.toNat)) = false) (hn : f.count.toNat ≤ 256)
    (hf : (cur s).frontOf s.clk f.bank.toNat = f.side) : cpFaulted s (.cbld f) e 0x0404 (256 + f.side.toNat * 4 + f.bank.toNat) :=
  faults_early (b := true) (exec_cbld f s) (cpNext_of_cpMay h) (by simp [cbldPlan, hf]) hk
    ((illegalReason_tail (poolHigh_eq_false_iff.mpr hp) (countReason_of_le hn)).trans (tailReason_of_cpMay h))
    (by simp only [cbldPlan, hf, beq_self_eq_true, List.find?_cons])

theorem itld_faults_count {f : ItldForm} (h : cpMay s e f.t) (hp : poolAddrs f.t f.src 0) (hn : 256 < f.count.toNat)
    (hk : (cur s).cpClash (loadItems f.t 4 f.src (4 * f.count.toNat)) = false) : cpFaulted s (.itld f) e 0x0401 3 :=
  faults_illegal (exec_itld f s) (cpNext_of_cpMay h) rfl hk
    (illegalReason_own (poolHigh_eq_false_iff.mpr hp) (countReason_of_lt hn))

/-- `cmpl` without a completion word is illegal (R254). -/
theorem cmpl_faults {tl : CpTail} (h : cpMay s e tl) (hw : tl.cw = false) : cpFaulted s (.cmpl tl) e 0x0401 3 := by
  have hi : tailItems tl = [] := by simp [tailItems, hw]
  refine faults_illegal (exec_cmpl tl s) (cpNext_of_cpMay h) rfl ?_ (illegalReason_own rfl (if_neg (by simp [hw])))
  exact (congrArg (cur s).cpClash hi).trans (cpClash_nil _)

theorem unpack_faults_limits {f : UnpackForm} (h : cpMay s e f.t) (hp : poolAddrs f.t 0 f.dst)
    (hk : (cur s).cpClash (unpackPlan f (cur s)).clash = false)
    (hr : f.rmax.toNat = 0 ∨ 8 < f.rmax.toNat ∨ f.maxo.toNat % 32 ≠ 0) : cpFaulted s (.unpack f) e 0x0401 3 :=
  faults_illegal (exec_unpack f s) (cpNext_of_cpMay h) rfl hk (illegalReason_own (poolHigh_eq_false_iff.mpr hp) (if_pos hr))

theorem unpack_faults_buffer {f : UnpackForm} (h : cpMay s e f.t) (hp : poolAddrs f.t 0 f.dst)
    (hk : (cur s).cpClash (unpackPlan f (cur s)).clash = false)
    (hr : ¬ (f.rmax.toNat = 0 ∨ 8 < f.rmax.toNat ∨ f.maxo.toNat % 32 ≠ 0))
    (hb : (cur s).bufferOk (f.fbuf.toNat * 4096) 8192 = false) : cpFaulted s (.unpack f) e 0x0403 (f.fbuf.toNat * 4096 % 2 ^ 20) :=
  faults_early (b := true) (exec_unpack f s) (cpNext_of_cpMay h) rfl hk
    ((illegalReason_tail (poolHigh_eq_false_iff.mpr hp) (if_neg hr)).trans (tailReason_of_cpMay h))
    (by simp only [unpackPlan, hb, Bool.not_false, List.find?_cons])

/-! ## `bind` (R246) -/

/-- The one reason a bind has of its own is 4. -/
theorem bindReason_eq_some {f : BindForm} (h : bindReason f ≠ none) : bindReason f = some 4 := by
  revert h
  unfold bindReason
  repeat' split
  all_goals simp

section
variable {f : BindForm} (h : cpMay s e f.t) (hp : (if f.out then f.t.dpool else f.t.spool) = true → f.addr.toNat < 2 ^ 20)
  (hport : ((cur s).port f.port.toNat).bound = false) (h8 : (cur s).cp.binds.length < 8)
  (hk : (cur s).cpClash (bindPlan s f (cur s)).clash = false)

include h hp in
theorem bind_illegalReason (hr : bindReason f = none) : illegalReason (cur s) (bindPlan s f (cur s)) = none :=
  (illegalReason_tail (bindPlan_high hp) hr).trans (tailReason_of_cpMay h)

include h hp hport h8 hk

theorem bind_faults_chain (hr : bindReason f ≠ none) : cpFaulted s (.bind f) e 0x0401 4 :=
  faults_illegal (exec_bind f s) (cpNext_of_cpMay h) (bindPlan_ready hport h8) hk
    (illegalReason_own (bindPlan_high hp) (bindReason_eq_some hr))

theorem bind_faults_mismatch {ch : List (Nat × Nat) × Nat} {m : Nat} (hr : bindReason f = none) (hc : bindChain f = some ch)
    (hm : m = ((cur s).pat f.pat).len / (bindSizes f ch.2).1) (hz : ((cur s).pat f.pat).run % (bindSizes f ch.2).1 ≠ 0) :
    cpFaulted s (.bind f) e 0x0402 (m % 2 ^ 32 * 2 ^ 32 + m % 2 ^ 32) :=
  faults_early (exec_bind f s) (cpNext_of_cpMay h) (bindPlan_ready hport h8) hk (bind_illegalReason h hp hr) (b := true)
    (by rw [bindPlan, bindMismatch_of_chain hc, ← hm, bne_iff_ne.mpr hz]; rfl)

theorem bind_faults_items (hr : bindReason f = none)
    (hm : ∀ ch, bindChain f = some ch → ((cur s).pat f.pat).run % (bindSizes f ch.2).1 = 0)
    (hb : (cur s).bufferOk (256 * f.buf.toNat) (256 * (f.depthM1.toNat + 1)) = true) {g : FaultInfo}
    (hg : s.itemsFault (cur s) (bindItems s f) = some g) :
    ∃ t, exec (.bind f) s = .next t ∧ recorded s t s.focus 3 g.code g.st g.addr g.det0 g.det1 :=
  faults_items (exec_bind f s) (cpNext_of_cpMay h) (bindPlan_ready hport h8) hk (bind_illegalReason h hp hr)
    (by simp [bindPlan, bindMismatch_eq_false hm, hb]) hg

end

/-! ## The statement -/

/-- R240, R245, R248, R251 to R254: the begins, command by command. -/
theorem copyBeginEffects : Claims.CopyBeginEffects := by
  intro s e
  refine ⟨pat_begins, fun tl => cmpl_begins, fun f h hp hn _ => cbld_begins h hp hn, fun f h hp hn _ => itld_begins h hp hn,
    ?_, ?_, fun p tl => unbind_begins p⟩
  · intro f h hp h1 h8 h32 hbuf hitems hsrc olen clen body w1 w3 hwhole hmost hleast hbound hratio hc
    exact unpack_begins h hp h1 h8 h32 hbuf hitems.1 hitems.2 (by simpa using hsrc)
      ⟨rfl, rfl, w1, w3, hwhole, hmost, hleast, hbound, hratio⟩ hc
  · intro f _ h hp hr hm hbuf hport h8 h16 hi hk
    exact bind_begins h hp hr hm hbuf hport h8 h16 hi hk

/-- R233, R234, R242, R245, R251, R252, R254, R257 to R259: the faults, command by command. -/
theorem copyCommandFaults : Claims.CopyCommandFaults := by
  intro s e
  refine ⟨fun f h hk => ⟨copy_faults_high h hk, fun hp => ⟨copy_faults_mode h hk hp, fun hf h3 h0 => ?_⟩⟩,
    fun f h hp hk => ⟨cbld_faults_count h hp hk, cbld_faults_front h hp hk⟩, fun f => itld_faults_count, fun tl => cmpl_faults,
    fun f h hp hk => ⟨unpack_faults_limits h hp hk, fun h1 h8 h32 => unpack_faults_buffer h hp hk (by omega)⟩,
    fun f h hp hport h8 hk => ⟨bind_faults_chain h hp hport h8 hk, fun ch m => bind_faults_mismatch h hp hport h8 hk,
      fun hr hm hb g => bind_faults_items h hp hport h8 hk hr hm hb⟩⟩
  have hm := not_modeBad h3 h0
  exact ⟨copy_faults_chain h hk hp hf hm, fun hc =>
    ⟨copy_faults_count h hk hp hf hm hc, fun hb g => copy_faults_items h hk hp hf hm hc hb⟩⟩

/-- Settles O31, from the begins and the faults of each command. -/
theorem copyCommandsBegin : Obligations.CopyCommandsBegin := by
  unfold Obligations.CopyCommandsBegin
  exact ⟨copyBeginEffects, copyCommandFaults⟩

end Sys2Proof.Proofs


/-! What the slots of the execute core share (R152, R154, R162, R186): elements of a view, mask bits, and the operation that writes
elements. -/

namespace Sys2Proof.Proofs

open Sys2Proof.Machine Sys2Proof.Claims

/-! ## Flags -/

theorem getLsbD_foldl_or (l : List FlagSet) (a : FlagSet) (j : Nat) :
    (l.foldl (· ||| ·) a).getLsbD j = true ↔ a.getLsbD j = true ∨ ∃ f ∈ l, f.getLsbD j = true := by
  induction l generalizing a with
  | nil => simp
  | cons f l ih => simp [ih, or_assoc]

/-- A flag is in a union when one of its sets has it. -/
theorem getLsbD_flagUnion (l : List FlagSet) (j : Nat) : (flagUnion l).getLsbD j = true ↔ ∃ f ∈ l, f.getLsbD j = true := by
  simp [flagUnion, getLsbD_foldl_or]

theorem flagSet_ext {a b : FlagSet} (h : ∀ j, a.getLsbD j = true ↔ b.getLsbD j = true) : a = b :=
  BitVec.eq_of_getLsbD_eq fun j _ => Bool.eq_iff_iff.mpr (h j)

/-! ## Bytes and elements -/

theorem placed_eq_map (a : Nat) (l : List Byte) : placed a l = l.zipIdx.map fun b => (a + b.2, b.1) := by
  induction l generalizing a with
  | nil => rfl
  | cons b r ih =>
    rw [placed, ih, List.zipIdx_cons']
    simp [Function.comp_def, Nat.add_comm, Nat.add_left_comm]

theorem mem_placed {a c : Nat} {v : Byte} {l : List Byte} : (c, v) ∈ placed a l ↔ ∃ i, c = a + i ∧ l[i]? = some v := by
  rw [placed_eq_map]
  simp only [List.mem_map, Prod.mk.injEq, Prod.exists, List.mem_zipIdx_iff_getElem?]
  constructor
  · rintro ⟨b, i, h, rfl, rfl⟩
    exact ⟨i, rfl, h⟩
  · rintro ⟨i, rfl, h⟩
    exact ⟨v, i, h, rfl, rfl⟩

/-- The bytes of a number placed from an address upward. -/
theorem mem_placed_leBytes {a c w x : Nat} {v : Byte} :
    (c, v) ∈ placed a (leBytes w x) ↔ ∃ i, i < w ∧ c = a + i ∧ v = BitVec.ofNat 8 (x / 256 ^ i) := by
  rw [mem_placed, leBytes_eq_map]
  simp only [List.getElem?_map, Option.map_eq_some_iff]
  constructor
  · rintro ⟨i, hc, j, hj, rfl⟩
    obtain ⟨hi, rfl⟩ : i < w ∧ i = j := by simpa [List.getElem?_eq_some_iff] using hj
    exact ⟨i, hi, hc, rfl⟩
  · rintro ⟨i, hi, hc, rfl⟩
    exact ⟨i, hc, i, by simp [hi], rfl⟩

theorem poolGet_slice (x : Context) (clk a : Nat) {i k n : Nat} (h : i + k ≤ n) :
    ((x.poolGet clk a n).drop i).take k = x.poolGet clk (a + i) k := by
  refine List.ext_getElem (by simp [Context.poolGet]; omega) fun j h1 h2 => ?_
  simp [Context.poolGet, Nat.add_assoc]

theorem leNat_lt (l : List Byte) : leNat l < 256 ^ l.length := by
  induction l with
  | nil => simp [leNat]
  | cons b r ih =>
    have hb := b.isLt
    rw [leNat, List.length_cons, Nat.pow_succ']
    omega

theorem elem_lt (e : ExIn) (v w k : Nat) : elem e v w k < 256 ^ w := by
  have h := leNat_lt (e.x.poolGet e.clk (viewAddr e v + w * k) w)
  rwa [show (e.x.poolGet e.clk (viewAddr e v + w * k) w).length = w by simp [Context.poolGet]] at h

/-- The elements of a view are those of its bytes (R152). -/
theorem lanesOf_vec (e : ExIn) (v : Nat) {w : Nat} : lanesOf w (e.vec v) = (List.range (256 / w)).map (elem e v w) := by
  refine List.map_congr_left fun i hi => ?_
  have hlt : i < 256 / w := List.mem_range.mp hi
  have hw : w * i + w ≤ 256 := calc
    w * i + w = (i + 1) * w := by ring
    _ ≤ 256 / w * w := Nat.mul_le_mul_right w hlt
    _ ≤ 256 := Nat.div_mul_le_self 256 w
  rw [ExIn.vec, poolGet_slice _ _ _ hw]
  rfl

theorem numbered_map_range {α : Type} (n : Nat) (g : Nat → α) : numbered ((List.range n).map g) = (List.range n).map fun k => (k, g k) := by
  refine List.ext_getElem (by simp [numbered]) fun i h1 h2 => ?_
  simp [numbered]

theorem zip_map_range {α β : Type} (n : Nat) (g : Nat → α) (h : Nat → β) :
    ((List.range n).map g).zip ((List.range n).map h) = (List.range n).map fun k => (g k, h k) := by
  rw [List.zip_map']

/-! ## Masks (R154) -/

theorem maskBit_iff (e : ExIn) (q : BitVec 3) (k : Nat) : maskBit e q k ↔ (e.mask q).getLsbD k = true := by
  have hq : q.toNat < 8 := q.isLt
  unfold maskBit ExIn.mask
  by_cases h : q = 0
  · rw [if_pos h, BitVec.getLsbD_allOnes]
    simp [h]
  · have hg : e.x.ex.q.getD q.toNat 0 = e.x.ex.q[q.toNat] := by simp [Vector.getD, hq]
    rw [hg, if_neg h]
    exact ⟨fun ⟨_, hb⟩ => hb.resolve_left h, fun hb => ⟨BitVec.lt_of_getLsbD hb, Or.inr hb⟩⟩

/-! ## Writing elements (R162, R186) -/

/-- The operation of the lane slots writes the elements its mask selects. -/
theorem writesElems_laneWrite {left w base n : Nat} {m : W64} {gov : Nat → Nat} {sel : Nat → Prop} {val : Nat → Nat} {fl : Nat → FlagSet}
    {res : List (Nat × Nat × FlagSet)} (hs : ∀ k, k < n → (sel k ↔ m.getLsbD (gov k) = true))
    (hr : res = (List.range n).map fun k => (k, val k, fl k)) :
    writesElems (laneWrite left w base m gov res) left base w n sel val fl := by
  have hm (p : Nat × Nat × FlagSet) : p ∈ res.filter (fun r => m.getLsbD (gov r.1)) ↔ ∃ k, k < n ∧ sel k ∧ p = (k, val k, fl k) := by
    rw [hr]
    simp only [List.mem_filter, List.mem_map, List.mem_range]
    constructor
    · rintro ⟨⟨k, hk, rfl⟩, hb⟩
      exact ⟨k, hk, (hs k hk).mpr hb, rfl⟩
    · rintro ⟨k, hk, hb, rfl⟩
      exact ⟨⟨k, hk, rfl⟩, (hs k hk).mp hb⟩
  refine ⟨rfl, rfl, rfl, rfl, fun a b => ?_, fun j => ?_⟩
  · simp only [laneWrite, List.mem_flatMap, hm, mem_placed_leBytes]
    constructor
    · rintro ⟨_, ⟨k, hk, hb, rfl⟩, h⟩
      exact ⟨k, hk, hb, h⟩
    · rintro ⟨k, hk, hb, h⟩
      exact ⟨_, ⟨k, hk, hb, rfl⟩, h⟩
  · simp only [laneWrite, getLsbD_flagUnion, List.mem_map, hm]
    constructor
    · rintro ⟨_, ⟨_, ⟨k, hk, hb, rfl⟩, rfl⟩, hj⟩
      exact ⟨k, hk, hb, hj⟩
    · rintro ⟨k, hk, hb, hj⟩
      exact ⟨_, ⟨_, ⟨k, hk, hb, rfl⟩, rfl⟩, hj⟩

/-! ## Issue (R161, R162) -/

variable {s : State} {e : ExIn} {i : Instr} {slot : Nat} {views : ExIn → List Nat} {g : ExIn → ExRes} {o : InFlight}

/-- A slot that reads `e` and whose views are the kernel's puts its operation into the pipeline. -/
theorem exOp_enters (h : slotReads s e) (hx : exec i s = s.exOp slot views g) (hv : viewsOk e (views e)) (hg : g e = .run s (some o)) :
    exec i s = .next (s.exEnter s.focus slot o) := by
  obtain ⟨c, x, j, b, clk⟩ := e
  obtain ⟨rfl, rfl, rfl, hj, hb, hh, hd⟩ := h
  exact hx.trans (exOp_runs hj hb hh hd hv hg)

/-- An operation that is no plane write enters the pipeline and changes nothing else. -/
theorem exEnter_eq_issued (h : slotReads s e) (ho : o.hold = false) : s.exEnter s.focus slot o = issued s e slot o := by
  obtain ⟨-, -, -, -, hb, -⟩ := h
  simp only [cur] at hb
  simp [State.exEnter, hb, claim_none ho, issued]

theorem completesWith_of_exOp {p : InFlight → Prop} (h : slotReads s e) (hx : exec i s = s.exOp slot views g)
    (hv : viewsOk e (views e)) (hg : g e = .run s (some o)) (ho : o.hold = false) (hp : p o) : completesWith s e i slot p :=
  ⟨o, hp, (exOp_enters h hx hv hg).trans (congrArg _ (exEnter_eq_issued h ho))⟩

end Sys2Proof.Proofs


/-! Settles O20: reductions combine their elements in the tree of R56 (R206). -/

namespace Sys2Proof.Proofs

open Sys2Proof.Machine Sys2Proof.Claims

/-! ## The tree of R56 -/

theorem flagUnion_map_or {α : Type} (l : List α) (f g : α → FlagSet) :
    flagUnion (l.map fun a => f a ||| g a) = flagUnion (l.map f) ||| flagUnion (l.map g) := by
  refine flagSet_ext fun j => ?_
  simp only [getLsbD_flagUnion, BitVec.getLsbD_or, Bool.or_eq_true, List.mem_map, exists_exists_and_eq_and, ← exists_or, ← and_or_left]

theorem flagUnion_append (l r : List FlagSet) : flagUnion (l ++ r) = flagUnion l ||| flagUnion r := by
  refine flagSet_ext fun j => ?_
  simp only [getLsbD_flagUnion, BitVec.getLsbD_or, Bool.or_eq_true, List.mem_append, or_and_right, exists_or]

/-- A list of twice `n` values, its lower half beside its upper half. -/
theorem zip_halves {α : Type} (n : Nat) (g : Nat → α) :
    (((List.range (2 * n)).map g).take n).zip (((List.range (2 * n)).map g).drop n) = (List.range n).map fun i => (g i, g (i + n)) := by
  refine List.ext_getElem (by simp; omega) fun i h1 h2 => ?_
  simp [Nat.add_comm]

/-- The model's tree over values that carry flags is the tree of R56, with the flags of the values and of every step. -/
theorem reduceTree_eq (fn : Nat → Nat → Nat × FlagSet) (k : Nat) (v : Nat → Nat) (fl : Nat → FlagSet) :
    reduceTree fn k ((List.range (2 ^ k)).map fun i => (v i, fl i)) =
      ((treeOf fn k v).1, (treeOf fn k v).2 ||| flagUnion ((List.range (2 ^ k)).map fl)) := by
  induction k generalizing v fl with
  | zero => simp [reduceTree, treeOf, flagUnion]
  | succ k ih =>
    have hsplit : flagUnion ((List.range (2 ^ (k + 1))).map fl) =
        flagUnion ((List.range (2 ^ k)).map fl) ||| flagUnion ((List.range (2 ^ k)).map fun i => fl (i + 2 ^ k)) := by
      rw [← flagUnion_append, Nat.pow_succ', Nat.two_mul, List.range_add, List.map_append, List.map_map]
      simp [Function.comp_def, Nat.add_comm]
    rw [reduceTree, Nat.pow_succ', zip_halves, List.map_map]
    simp only [Function.comp_def]
    rw [ih fun i => (fn (v i) (v (i + 2 ^ k))).1, flagUnion_map_or, flagUnion_map_or, ← Nat.pow_succ', hsplit, treeOf]
    refine Prod.ext rfl ?_
    ac_rfl

/-- Without flags of their own, the values have those of the steps. -/
theorem reduceTree_values (fn : Nat → Nat → Nat × FlagSet) (k : Nat) (v : Nat → Nat) :
    reduceTree fn k ((List.range (2 ^ k)).map fun i => (v i, 0)) = treeOf fn k v := by
  have h0 : flagUnion ((List.range (2 ^ k)).map fun _ => (0 : FlagSet)) = 0 := flagSet_ext fun j => by simp [getLsbD_flagUnion]
  rw [reduceTree_eq, h0]
  simp

/-- Two steps that agree on a kind of value that they keep have the same tree over such values. -/
theorem treeOf_congr {fn fn' : Nat → Nat → Nat × FlagSet} {P : Nat → Prop} (hfn : ∀ a b, P a → P b → fn' a b = fn a b ∧ P (fn a b).1)
    (k : Nat) {v v' : Nat → Nat} (hv : ∀ i, i < 2 ^ k → v' i = v i ∧ P (v i)) : treeOf fn' k v' = treeOf fn k v := by
  induction k generalizing v v' with
  | zero => simp [treeOf, (hv 0 (by simp)).1]
  | succ k ih =>
    have hstep (i : Nat) (hi : i < 2 ^ k) :
        fn' (v' i) (v' (i + 2 ^ k)) = fn (v i) (v (i + 2 ^ k)) ∧ P (fn (v i) (v (i + 2 ^ k))).1 := by
      obtain ⟨h1, hp1⟩ := hv i (by omega)
      obtain ⟨h2, hp2⟩ := hv (i + 2 ^ k) (by omega)
      rw [h1, h2]
      exact hfn _ _ hp1 hp2
    have hfl : ((List.range (2 ^ k)).map fun i => (fn' (v' i) (v' (i + 2 ^ k))).2) =
        (List.range (2 ^ k)).map fun i => (fn (v i) (v (i + 2 ^ k))).2 :=
      List.map_congr_left fun i hi => congrArg Prod.snd (hstep i (List.mem_range.mp hi)).1
    simp only [treeOf, hfl, ih fun i hi => ⟨congrArg Prod.fst (hstep i hi).1, (hstep i hi).2⟩]

/-! ## The rows of R206 -/

/-- A 32-bit number read as two's complement, by either name. -/
theorem sx_eq_toInt (a : Nat) : sx a = (BitVec.ofNat 32 a).toInt := by
  simp only [sx, sextN, BitVec.toInt_eq_toNat_cond, BitVec.toNat_ofNat]
  split_ifs <;> omega

theorem sx_inj {a b : Nat} (ha : a < 2 ^ 32) (hb : b < 2 ^ 32) (h : sx a = sx b) : a = b := by
  unfold sx sextN at h
  dsimp only at h
  rw [Nat.mod_eq_of_lt ha, Nat.mod_eq_of_lt hb] at h
  split_ifs at h <;> omega

theorem smallerLane_eq (a b : Nat) :
    (if (BitVec.ofNat 32 a).toInt ≤ (BitVec.ofNat 32 b).toInt then a else b) = if sx b < sx a then b else a := by
  rw [← sx_eq_toInt, ← sx_eq_toInt, ← ite_not]
  simp only [not_le]

theorem largerLane_eq {a b : Nat} (ha : a < 2 ^ 32) (hb : b < 2 ^ 32) :
    (if (BitVec.ofNat 32 a).toInt ≤ (BitVec.ofNat 32 b).toInt then b else a) = if sx a < sx b then b else a := by
  rw [← sx_eq_toInt, ← sx_eq_toInt]
  by_cases h : sx a = sx b
  · rw [sx_inj ha hb h, ite_self, ite_self]
  · simp only [show sx a ≤ sx b ↔ sx a < sx b by omega]

/-- The model runs a reduction as the shared operation with a step that is the row's on values of a kind the row's step keeps. -/
def ReducesAs (i : Instr) (f : VForm) (k w : Nat) (wide : Nat → Nat) (ident : Nat) (fn : Nat → Nat → Nat × FlagSet) : Prop :=
  w * 2 ^ k = 256 ∧ ∃ (fn' : Nat → Nat → Nat × FlagSet) (P : Nat → Prop),
    (∀ s, exec i s = s.exReduce f k ident fn' fun bs => (lanesOf w bs).map wide) ∧
    (∀ x, x < 256 ^ w → P (wide x)) ∧ P ident ∧ ∀ a b, P a → P b → fn' a b = fn a b ∧ P (fn a b).1

theorem ReducesAs.of_same {i : Instr} {f : VForm} {k w : Nat} {wide : Nat → Nat} {ident : Nat} {fn : Nat → Nat → Nat × FlagSet}
    (hw : w * 2 ^ k = 256) (hx : ∀ s, exec i s = s.exReduce f k ident fn fun bs => (lanesOf w bs).map wide) :
    ReducesAs i f k w wide ident fn :=
  ⟨hw, fn, fun _ => True, hx, fun _ _ => trivial, trivial, fun _ _ _ _ => ⟨rfl, trivial⟩⟩

theorem reduction_of_redRow {i : Instr} {f : VForm} {k w : Nat} {wide : Nat → Nat} {ident : Nat} {fn : Nat → Nat → Nat × FlagSet}
    (h : redRow i = some (f, k, w, wide, ident, fn)) : ReducesAs i f k w wide ident fn := by
  have hid (bs : List Byte) : (lanesOf 4 bs).map id = lanesOf 4 bs := List.map_id _
  unfold redRow at h
  split at h
  all_goals simp only [Option.some.injEq, Prod.mk.injEq, reduceCtorEq] at h
  all_goals obtain ⟨rfl, rfl, rfl, rfl, rfl, rfl⟩ := h
  case h_2 =>
    simp only [smallerLane_eq]
    exact .of_same rfl fun s => by simp only [hid]; rfl
  case h_3 =>
    refine ⟨rfl, fun a b => (if sx a < sx b then b else a, 0), (· < 2 ^ 32), fun s => by simp only [hid]; rfl, fun _ h => h, by decide,
      fun a b ha hb => ⟨Prod.ext (largerLane_eq ha hb).symm rfl, ?_⟩⟩
    dsimp only
    split_ifs
    exacts [hb, ha]
  case h_7 => exact .of_same rfl fun s => rfl
  all_goals exact .of_same rfl fun s => by simp only [hid]; rfl

/-- A reduction puts the tree's result into every selected lane. -/
theorem reduction_completes {s : State} {e : ExIn} {i : Instr} {f : VForm} {k w : Nat} {wide : Nat → Nat} {ident : Nat}
    {fn : Nat → Nat → Nat × FlagSet} {v : Nat → Nat} (h : slotReads s e) (hr : ReducesAs i f k w wide ident fn)
    (hv : viewsOk e [vd e f, va e f]) (hsel : ∀ j, maskBit e f.q (j * 64 / 2 ^ k) → v j = wide (elem e (va e f) w j))
    (hid : ∀ j, ¬ maskBit e f.q (j * 64 / 2 ^ k) → v j = ident) :
    completesWith s e i 2 fun o =>
      writesElems o 6 (viewAddr e (vd e f)) 4 64 (maskBit e f.q) (fun _ => (treeOf fn k v).1) fun _ => (treeOf fn k v).2 := by
  obtain ⟨hw, fn', P, hx, hwide, hident, hfn⟩ := hr
  have hn : 256 / w = 2 ^ k := Nat.div_eq_of_eq_mul_right (Nat.pos_of_ne_zero (by rintro rfl; simp at hw)) hw.symm
  have hP (j : Nat) : P (v j) := by
    by_cases hb : maskBit e f.q (j * 64 / 2 ^ k)
    · exact hsel j hb ▸ hwide _ (elem_lt ..)
    · exact hid j hb ▸ hident
  have hvals : ((numbered ((lanesOf w (e.vec (va e f))).map wide)).map fun u =>
      (if (e.mask f.q).getLsbD (u.1 * 64 / 2 ^ k) then u.2 else ident, (0 : FlagSet))) = (List.range (2 ^ k)).map fun j => (v j, 0) := by
    rw [lanesOf_vec, hn, List.map_map, numbered_map_range, List.map_map]
    refine List.map_congr_left fun j _ => Prod.ext ?_ rfl
    dsimp only [Function.comp_apply]
    by_cases hb : maskBit e f.q (j * 64 / 2 ^ k)
    · rw [hsel j hb, if_pos ((maskBit_iff ..).mp hb)]
    · rw [hid j hb, if_neg (mt (maskBit_iff ..).mpr hb)]
  refine completesWith_of_exOp h (hx s) hv rfl rfl (writesElems_laneWrite (fun j _ => maskBit_iff e f.q j) ?_)
  rw [hvals, reduceTree_values, treeOf_congr hfn k fun j _ => ⟨rfl, hP j⟩]

/-- Settles O20, by the tree of R56 over the elements and identities. -/
theorem reductionsFollowTree : Obligations.ReductionsFollowTree := by
  unfold Obligations.ReductionsFollowTree
  intro s e i f k w wide ident fn v h hr hv hsel hid
  exact reduction_completes h (reduction_of_redRow hr) hv hsel hid

end Sys2Proof.Proofs


/-! The one rounding of every writer of a float (R9, R46 to R48): rounding to an integer, the magnitudes of a format, and rounding into
a format. -/

namespace Sys2Proof.Proofs

open Sys2Proof.Machine Sys2Proof.Claims

/-! ## Rounding to an integer (R9) -/

theorem nearest_intCast (n : ℤ) : nearest n n := by simp [nearest]

/-- The nearest integer is not below an integer that the number is not below. -/
theorem le_of_nearest {x : ℚ} {n a : ℤ} (h : nearest x n) (ha : a ≤ x) : a ≤ n := by
  by_contra hlt
  have h1 : (n : ℚ) + 1 ≤ a := by exact_mod_cast not_le.mp hlt
  have h2 : |x - n| ≤ 1 / 2 := h.elim le_of_lt fun h => h.1.le
  linarith [(abs_le.mp h2).2]

theorem le_of_nearest' {x : ℚ} {n b : ℤ} (h : nearest x n) (hb : x ≤ b) : n ≤ b := by
  by_contra hlt
  have h1 : (b : ℚ) + 1 ≤ n := by exact_mod_cast not_le.mp hlt
  have h2 : |x - n| ≤ 1 / 2 := h.elim le_of_lt fun h => h.1.le
  linarith [(abs_le.mp h2).1]

theorem nearest_unique {x : ℚ} {n k : ℤ} (hn : nearest x n) (hk : nearest x k) : n = k := by
  have half {j : ℤ} (h : nearest x j) : |x - j| ≤ 1 / 2 := h.elim le_of_lt fun h => h.1.le
  have h1 : n ≤ k + 1 := by
    have : (n : ℚ) ≤ (k + 1 : ℤ) := by push_cast; linarith [(abs_le.mp (half hn)).1, (abs_le.mp (half hk)).2]
    exact_mod_cast this
  have h2 : k ≤ n + 1 := by
    have : (k : ℚ) ≤ (n + 1 : ℤ) := by push_cast; linarith [(abs_le.mp (half hk)).1, (abs_le.mp (half hn)).2]
    exact_mod_cast this
  by_contra hne
  have tie {i j : ℤ} (hi : nearest x i) (hj : nearest x j) (h : i = j + 1) : i % 2 = 0 := by
    refine hi.elim (fun hlt => absurd hlt (not_lt.mpr ?_)) fun h => h.2
    have hc : (i : ℚ) = j + 1 := by exact_mod_cast h
    exact le_abs.mpr (Or.inr (by linarith [(abs_le.mp (half hj)).2]))
  have tie' {i j : ℤ} (hi : nearest x i) (hj : nearest x j) (h : i = j + 1) : j % 2 = 0 := by
    refine hj.elim (fun hlt => absurd hlt (not_lt.mpr ?_)) fun h => h.2
    have hc : (i : ℚ) = j + 1 := by exact_mod_cast h
    exact le_abs.mpr (Or.inl (by linarith [(abs_le.mp (half hi)).1]))
  rcases (by omega : n = k + 1 ∨ k = n + 1) with h | h
  · have := tie hn hk h
    have := tie' hn hk h
    omega
  · have := tie hk hn h
    have := tie' hk hn h
    omega

/-- A whole number and a part of one, rounded by what the part is. -/
theorem nearest_of_part {q : ℕ} {t : ℚ} : (0 ≤ t → t < 1 / 2 → nearest (q + t) (q : ℕ)) ∧
    (1 / 2 < t → t < 1 → nearest (q + t) (q + 1 : ℕ)) ∧ (t = 1 / 2 → nearest (q + t) (q + q % 2 : ℕ)) := by
  refine ⟨fun h0 h1 => Or.inl ?_, fun h1 h2 => Or.inl ?_, fun h => Or.inr ⟨?_, by omega⟩⟩
  · rwa [Int.cast_natCast, add_sub_cancel_left, abs_of_nonneg h0]
  · rw [abs_lt]
    push_cast
    constructor <;> linarith
  · rcases Nat.mod_two_eq_zero_or_one q with h2 | h2 <;> rw [h2, h] <;> norm_num

/-- Rounding at bit `s` is to the nearest integer, ties to even, and says whether it was exact. -/
theorem rneShift_spec (m s : Nat) : nearest ((m : ℚ) / 2 ^ s) ((rneShift m s).1 : ℤ) ∧
    ((rneShift m s).2 = true ↔ ((rneShift m s).1 : ℚ) ≠ m / 2 ^ s) := by
  have hp : (0 : ℚ) < 2 ^ s := by positivity
  have hr : m % 2 ^ s < 2 ^ s := Nat.mod_lt m (by positivity)
  have hx : (m : ℚ) / 2 ^ s = (m / 2 ^ s : ℕ) + (m % 2 ^ s : ℕ) / (2 ^ s : ℚ) := by
    rw [eq_comm, ← eq_sub_iff_add_eq, ← sub_div, eq_div_iff hp.ne', eq_sub_iff_add_eq, mul_comm]
    exact_mod_cast Nat.div_add_mod m (2 ^ s)
  unfold rneShift
  dsimp only
  rw [hx]
  clear hx
  generalize m / 2 ^ s = q
  generalize m % 2 ^ s = r at hr ⊢
  obtain ⟨hlow, hhigh, htie⟩ := @nearest_of_part q (r / (2 ^ s : ℚ))
  have hlt1 : (r : ℚ) / 2 ^ s < 1 := (div_lt_one hp).mpr (by exact_mod_cast hr)
  split_ifs with h0 h1 h2
  · simp only [h0, Nat.cast_zero, zero_div] at hlow ⊢
    exact ⟨hlow le_rfl (by norm_num), by simp⟩
  · have hpos : (0 : ℚ) < r / 2 ^ s := div_pos (by exact_mod_cast Nat.pos_of_ne_zero h0) hp
    refine ⟨hlow hpos.le ?_, iff_of_true rfl (by dsimp only; linarith)⟩
    rw [div_lt_div_iff₀ hp two_pos]
    exact_mod_cast (by omega : r * 2 < 1 * 2 ^ s)
  · refine ⟨hhigh ?_ hlt1, iff_of_true rfl (by push_cast; linarith)⟩
    rw [div_lt_div_iff₀ two_pos hp]
    exact_mod_cast (by omega : 1 * 2 ^ s < r * 2)
  · have ht : (r : ℚ) / 2 ^ s = 1 / 2 := by
      rw [div_eq_div_iff hp.ne' two_ne_zero]
      exact_mod_cast (by omega : r * 2 = 1 * 2 ^ s)
    refine ⟨htie ht, iff_of_true rfl fun h => ?_⟩
    have h2 : ((2 * (q % 2) : ℕ) : ℚ) = (1 : ℕ) := by push_cast [ht] at h ⊢; linarith
    have := Nat.cast_injective h2
    omega

/-- The number `m · 2^e` at the scale of `2^q`. -/
theorem scaled_eq_of_le {m : Nat} {e q : ℤ} (h : q ≤ e) : (m : ℚ) * 2 ^ e / 2 ^ q = (m * 2 ^ (e - q).toNat : Nat) := by
  have : (2 : ℚ) ^ (e - q).toNat = 2 ^ (e - q) := by rw [← zpow_natCast, Int.toNat_of_nonneg (by omega)]
  push_cast
  rw [this, zpow_sub₀ two_ne_zero, mul_div_assoc]

theorem scaled_eq_of_lt {m : Nat} {e q : ℤ} (h : e < q) : (m : ℚ) * 2 ^ e / 2 ^ q = m / 2 ^ (q - e).toNat := by
  have : (2 : ℚ) ^ (q - e).toNat = 2 ^ (q - e) := by rw [← zpow_natCast, Int.toNat_of_nonneg (by omega)]
  rw [this, zpow_sub₀ two_ne_zero]
  field_simp

/-- Rounding to a multiple of `2^q`. -/
theorem rneAt_spec (m : Nat) (e q : ℤ) : nearest ((m : ℚ) * 2 ^ e / 2 ^ q) ((rneAt m e q).1 : ℤ) ∧
    ((rneAt m e q).2 = true ↔ ((rneAt m e q).1 : ℚ) ≠ m * 2 ^ e / 2 ^ q) := by
  unfold rneAt
  split_ifs with h
  · rw [scaled_eq_of_le h]
    exact ⟨nearest_intCast _, by simp⟩
  · rw [scaled_eq_of_lt (not_le.mp h)]
    exact rneShift_spec m _

/-! ## The leading bit -/

theorem bitLen_spec {m : Nat} (h : m ≠ 0) : 2 ^ (bitLen m - 1) ≤ m ∧ m < 2 ^ bitLen m ∧ 1 ≤ bitLen m := by
  rw [bitLen, if_neg h]
  exact ⟨Nat.log2_self_le h, Nat.lt_log2_self, Nat.le_add_left ..⟩

/-- The exponent of a number's leading bit. -/
theorem top_spec {m : Nat} (h : m ≠ 0) (e : ℤ) : (2 : ℚ) ^ ((bitLen m : ℤ) - 1 + e) ≤ m * 2 ^ e ∧
    (m : ℚ) * 2 ^ e < 2 ^ ((bitLen m : ℤ) - 1 + e + 1) := by
  obtain ⟨hlo, hhi, h1⟩ := bitLen_spec h
  have hpos : (0 : ℚ) < 2 ^ e := by positivity
  rw [zpow_add₀ two_ne_zero, show (bitLen m : ℤ) - 1 + e + 1 = bitLen m + e by ring, zpow_add₀ two_ne_zero (bitLen m : ℤ),
    show (bitLen m : ℤ) - 1 = (bitLen m - 1 : ℕ) by omega, zpow_natCast, zpow_natCast]
  exact ⟨mul_le_mul_of_nonneg_right (by exact_mod_cast hlo) hpos.le, mul_lt_mul_of_pos_right (by exact_mod_cast hhi) hpos⟩

/-! ## The magnitudes of a format (R46) -/

/-- The number a magnitude's bits stand for, were none of them special. -/
def magVal (f : FFmt) (mag : Nat) : ℚ :=
  if mag / 2 ^ f.mb = 0 then (mag % 2 ^ f.mb : ℕ) * 2 ^ (1 - f.bias - f.mb : ℤ)
  else (2 ^ f.mb + mag % 2 ^ f.mb : ℕ) * 2 ^ ((mag / 2 ^ f.mb : ℕ) - f.bias - f.mb : ℤ)

theorem magVal_of_lt {f : FFmt} {mag : Nat} (h : mag < 2 ^ f.mb) : magVal f mag = mag * 2 ^ (1 - f.bias - f.mb : ℤ) := by
  rw [magVal, if_pos (Nat.div_eq_of_lt h), Nat.mod_eq_of_lt h]

theorem magVal_normal {f : FFmt} {d t : Nat} (hd : d ≠ 0) (ht : t < 2 ^ f.mb) :
    magVal f (d * 2 ^ f.mb + t) = (2 ^ f.mb + t : ℕ) * 2 ^ (d - f.bias - f.mb : ℤ) := by
  have h1 : (d * 2 ^ f.mb + t) / 2 ^ f.mb = d := by
    rw [Nat.add_comm, Nat.add_mul_div_right _ _ (by positivity), Nat.div_eq_of_lt ht, Nat.zero_add]
  have h2 : (d * 2 ^ f.mb + t) % 2 ^ f.mb = t := by rw [Nat.mul_add_mod_self_right, Nat.mod_eq_of_lt ht]
  rw [magVal, h1, h2, if_neg hd]

/-- A larger magnitude stands for a larger number. -/
theorem magVal_strictMono (f : FFmt) : StrictMono (magVal f) := by
  refine strictMono_nat_of_lt_succ fun mag => ?_
  obtain ⟨d, t, ht, rfl⟩ : ∃ d t, t < 2 ^ f.mb ∧ mag = d * 2 ^ f.mb + t :=
    ⟨mag / 2 ^ f.mb, mag % 2 ^ f.mb, Nat.mod_lt _ (by positivity), (Nat.div_add_mod' mag (2 ^ f.mb)).symm⟩
  have hpos (z : ℤ) : (0 : ℚ) < 2 ^ z := by positivity
  have hcarry : d * 2 ^ f.mb + (2 ^ f.mb - 1) + 1 = (d + 1) * 2 ^ f.mb + 0 := by
    have : 0 < 2 ^ f.mb := by positivity
    rw [Nat.add_mul]
    omega
  rcases Nat.eq_zero_or_pos d with rfl | hd
  · rw [Nat.zero_mul, Nat.zero_add, magVal_of_lt ht]
    rcases Nat.lt_or_ge (t + 1) (2 ^ f.mb) with h1 | h1
    · rw [magVal_of_lt h1]
      exact mul_lt_mul_of_pos_right (by push_cast; linarith) (hpos _)
    · obtain rfl : t = 2 ^ f.mb - 1 := by omega
      rw [show 2 ^ f.mb - 1 + 1 = 1 * 2 ^ f.mb + 0 by omega, magVal_normal one_ne_zero (by positivity)]
      exact mul_lt_mul_of_pos_right (by exact_mod_cast (by omega)) (hpos _)
  · rw [magVal_normal hd.ne' ht]
    rcases Nat.lt_or_ge (t + 1) (2 ^ f.mb) with h1 | h1
    · rw [Nat.add_assoc, magVal_normal hd.ne' h1]
      exact mul_lt_mul_of_pos_right (by exact_mod_cast (by omega)) (hpos _)
    · obtain rfl : t = 2 ^ f.mb - 1 := by omega
      rw [hcarry, magVal_normal (Nat.succ_ne_zero d) (by positivity), show ((d + 1 : ℕ) - f.bias - f.mb : ℤ) = 1 + (d - f.bias - f.mb) by
        push_cast; ring, zpow_add₀ two_ne_zero, zpow_one, ← mul_assoc]
      refine mul_lt_mul_of_pos_right ?_ (hpos _)
      exact_mod_cast (by omega : 2 ^ f.mb + (2 ^ f.mb - 1) < (2 ^ f.mb + 0) * 2)

/-- The three formats of R46. -/
abbrev IsFormat (f : FFmt) : Prop := f ∈ [fp32, bf16, fp8]

theorem IsFormat.cases {P : FFmt → Prop} (h1 : P fp32) (h2 : P bf16) (h3 : P fp8) : ∀ f, IsFormat f → P f := by
  rintro f hf
  simp only [List.mem_cons, List.not_mem_nil, or_false] at hf
  rcases hf with rfl | rfl | rfl <;> assumption

theorem magVal_maxFin : ∀ f, IsFormat f → magVal f f.maxFin = largest f := by
  refine IsFormat.cases ?_ ?_ ?_ <;> norm_num [magVal, largest, FFmt.maxFin, FFmt.noInf, fp32, bf16, fp8]

theorem maxFin_lt : ∀ f, IsFormat f → f.maxFin < 2 ^ (f.mb + f.eb) := IsFormat.cases (by decide) (by decide) (by decide)
theorem one_le_bias : ∀ f, IsFormat f → 1 ≤ f.bias := IsFormat.cases (by decide) (by decide) (by decide)
theorem one_le_mb : ∀ f, IsFormat f → 1 ≤ f.mb := IsFormat.cases (by decide) (by decide) (by decide)

/-! ## Encodings (R46) -/

/-- A magnitude is a finite number's when it is not above the largest. -/
theorem le_maxFin_iff : ∀ f, IsFormat f → ∀ mag, mag < 2 ^ (f.mb + f.eb) →
    (mag ≤ f.maxFin ↔ if f.noInf then ¬ (mag / 2 ^ f.mb = 15 ∧ mag % 2 ^ f.mb = 7) else mag / 2 ^ f.mb ≠ 2 ^ f.eb - 1) := by
  refine IsFormat.cases ?_ ?_ ?_ <;> intro mag h <;> simp [FFmt.maxFin, FFmt.noInf, fp32, bf16, fp8] at h ⊢ <;> omega

theorem exponent_eq (f : FFmt) (w : Nat) : w / 2 ^ f.mb % 2 ^ f.eb = w % 2 ^ (f.mb + f.eb) / 2 ^ f.mb := by
  rw [Nat.pow_add, Nat.mod_mul_right_div_self]

theorem fraction_eq (f : FFmt) (w : Nat) : w % 2 ^ f.mb = w % 2 ^ (f.mb + f.eb) % 2 ^ f.mb := by
  rw [Nat.pow_add, Nat.mod_mul_right_mod]

/-- What a word whose magnitude is not above the largest encodes. -/
theorem dec_finite {f : FFmt} (hf : IsFormat f) {w : Nat} (h : w % 2 ^ (f.mb + f.eb) ≤ f.maxFin) :
    ∃ m e, f.dec w = .fin (w / 2 ^ (f.mb + f.eb) % 2 == 1) m e ∧ (m : ℚ) * 2 ^ e = magVal f (w % 2 ^ (f.mb + f.eb)) := by
  have hfin := (le_maxFin_iff f hf _ (Nat.mod_lt _ (by positivity))).mp h
  unfold FFmt.dec magVal
  rw [exponent_eq, fraction_eq]
  generalize w % 2 ^ (f.mb + f.eb) = mag at *
  have h1 : (f.noInf && mag / 2 ^ f.mb == 15 && mag % 2 ^ f.mb == 7) = false := by
    cases hi : f.noInf
    · rfl
    · simpa [hi] using hfin
  have h2 : (!f.noInf && mag / 2 ^ f.mb == 2 ^ f.eb - 1) = false := by
    cases hi : f.noInf
    · simpa [hi] using hfin
    · rfl
  simp only [h1, h2, Bool.false_eq_true, if_false]
  by_cases h0 : mag / 2 ^ f.mb = 0
  · simp only [h0, if_true]
    exact ⟨_, _, rfl, rfl⟩
  · simp only [h0, if_false]
    exact ⟨_, _, rfl, rfl⟩

/-- A signed magnitude is its number's encoding. -/
theorem dec_signed {f : FFmt} (hf : IsFormat f) (neg : Bool) {mag : Nat} (h : mag ≤ f.maxFin) :
    ∃ m e, f.dec (f.signBit neg + mag) = .fin neg m e ∧ (m : ℚ) * 2 ^ e = magVal f mag := by
  have hlt : mag < 2 ^ (f.mb + f.eb) := h.trans_lt (maxFin_lt f hf)
  have hmod : (f.signBit neg + mag) % 2 ^ (f.mb + f.eb) = mag := by
    cases neg <;> simp [FFmt.signBit, Nat.mod_eq_of_lt hlt]
  have hdiv : ((f.signBit neg + mag) / 2 ^ (f.mb + f.eb) % 2 == 1) = neg := by
    cases neg <;> simp [FFmt.signBit, Nat.div_eq_of_lt hlt, Nat.add_div_left]
  have := dec_finite hf (w := f.signBit neg + mag) (hmod.symm ▸ h)
  rwa [hdiv, hmod] at this

/-! ## Rounding into a format (R47, R48) -/

/-- The magnitude of `n` units of the last place at exponent `ee`. -/
def roundMag (f : FFmt) (n : Nat) (ee : Int) : Nat :=
  let carry := 2 ^ (f.mb + 1) ≤ n
  let mant := if carry then n / 2 else n
  let ee' : Int := if carry then ee + 1 else ee
  let biased : Nat := if 2 ^ f.mb ≤ mant then (ee' + f.bias).toNat else 0
  biased * 2 ^ f.mb + mant % 2 ^ f.mb

theorem roundMag_carry {f : FFmt} {ee : ℤ} : roundMag f (2 ^ (f.mb + 1)) ee = (ee + 1 + f.bias).toNat * 2 ^ f.mb := by
  have h2 : 2 ^ (f.mb + 1) / 2 = 2 ^ f.mb := by rw [Nat.pow_succ, Nat.mul_div_cancel _ two_pos]
  simp [roundMag, h2]

theorem roundMag_normal {f : FFmt} {n : Nat} {ee : ℤ} (h1 : 2 ^ f.mb ≤ n) (h2 : n < 2 ^ (f.mb + 1)) :
    roundMag f n ee = (ee + f.bias).toNat * 2 ^ f.mb + (n - 2 ^ f.mb) := by
  have hmod : n % 2 ^ f.mb = n - 2 ^ f.mb := by
    rw [Nat.mod_eq_sub_mod h1, Nat.mod_eq_of_lt]
    rw [Nat.pow_succ] at h2
    omega
  simp [roundMag, not_le.mpr h2, h1, hmod]

theorem roundMag_subnormal {f : FFmt} {n : Nat} {ee : ℤ} (h : n < 2 ^ f.mb) : roundMag f n ee = n := by
  have h2 : ¬ 2 ^ (f.mb + 1) ≤ n := by rw [Nat.pow_succ]; omega
  simp [roundMag, h2, not_le.mpr h, Nat.mod_eq_of_lt h]

/-- The magnitude stands for the units it was made of. -/
theorem magVal_roundMag {f : FFmt} {n : Nat} {ee : ℤ} (hee : 1 - (f.bias : ℤ) ≤ ee) (hn : n ≤ 2 ^ (f.mb + 1))
    (hlow : ee = 1 - f.bias ∨ 2 ^ f.mb ≤ n) : magVal f (roundMag f n ee) = n * 2 ^ (ee - f.mb) := by
  rcases hn.eq_or_lt with rfl | hlt
  · rw [roundMag_carry, ← Nat.add_zero (_ * _), magVal_normal (by omega) (by positivity),
      show (((ee + 1 + f.bias).toNat : ℕ) - f.bias - f.mb : ℤ) = 1 + (ee - f.mb) by omega, zpow_add₀ two_ne_zero, ← mul_assoc]
    congr 1
    push_cast
    ring
  · rcases Nat.lt_or_ge n (2 ^ f.mb) with h | h
    · rw [roundMag_subnormal h, magVal_of_lt h, hlow.resolve_right (not_le.mpr h)]
    · rw [roundMag_normal h hlt, magVal_normal (by omega) (by rw [Nat.pow_succ] at hlt; omega), Nat.add_sub_cancel' h]
      congr 2
      omega

/-- `FFmt.round` in those terms. -/
theorem round_eq {f : FFmt} {neg : Bool} {m : Nat} {e : ℤ} (hm : m ≠ 0) :
    let top : ℤ := (bitLen m : ℤ) - 1 + e
    let ee : ℤ := if top < 1 - (f.bias : ℤ) then 1 - (f.bias : ℤ) else top
    let r := rneAt m e (ee - f.mb)
    let tiny := decide (top < 1 - (f.bias : ℤ)) &&
      !(decide (2 ^ f.mb * 2 ^ (1 - (f.bias : ℤ) - top).toNat ≤ (rneAt m e (top - f.mb)).1))
    f.round neg m e = if f.maxFin < roundMag f r.1 ee then
        (f.signBit neg + infMag f, if f.noInf then flSA ||| flNX else flOF ||| flNX)
      else (f.signBit neg + roundMag f r.1 ee, flagIf r.2 flNX ||| flagIf (r.2 && tiny) flUF) := by
  intro top ee r tiny
  have hsa : flSaNx = flSA ||| flNX := by decide
  unfold FFmt.round infMag
  rw [if_neg hm, ← hsa]
  cases f.noInf <;> simp only [if_true, if_false, Bool.false_eq_true] <;> rfl

theorem abs_ratio_fin (neg : Bool) (m : Nat) (e : ℤ) : |ratio (.fin neg m e)| = m * 2 ^ e := by
  have h : (0 : ℚ) ≤ m * 2 ^ e := by positivity
  cases neg <;> simp [ratio, abs_of_nonneg, h]

theorem ratio_fin_neg_iff {neg : Bool} {m : Nat} {e : ℤ} (hm : m ≠ 0) : ratio (.fin neg m e) < 0 ↔ neg = true := by
  have h : (0 : ℚ) < m * 2 ^ e := by positivity
  cases neg <;> simp [ratio, h, h.le]

theorem ratio_fin_eq_zero {neg : Bool} {m : Nat} {e : ℤ} : ratio (.fin neg m e) = 0 ↔ m = 0 := by
  have h : (2 : ℚ) ^ e ≠ 0 := by positivity
  cases neg <;> simp [ratio, h]

theorem getLsbD_roundFlags (nx tiny : Bool) : let fl := flagIf nx flNX ||| flagIf (nx && tiny) flUF
    (fl.getLsbD 0 = true ↔ nx = true) ∧ (fl.getLsbD 1 = true ↔ nx = true ∧ tiny = true) ∧ fl.getLsbD 2 = false ∧
      fl.getLsbD 3 = false ∧ fl.getLsbD 4 = false := by
  cases nx <;> cases tiny <;> decide

/-- The units of the last place that a number is rounded to: never more than one carry, and whole mantissas at its own exponent. -/
theorem roundUnits_le {x : ℚ} {E ee : ℤ} {mb n : Nat} (hhi : x < 2 ^ (E + 1)) (hee : E ≤ ee) (h : nearest (x / 2 ^ (ee - mb)) n) :
    n ≤ 2 ^ (mb + 1) := by
  have hp : (0 : ℚ) < 2 ^ (ee - mb) := by positivity
  have h1 : x / 2 ^ (ee - mb : ℤ) ≤ ((2 ^ (mb + 1) : ℕ) : ℤ) := by
    rw [div_le_iff₀ hp]
    push_cast
    rw [← zpow_natCast, ← zpow_add₀ two_ne_zero]
    exact hhi.le.trans (zpow_le_zpow_right₀ one_le_two (by push_cast; omega))
  exact_mod_cast le_of_nearest' h h1

theorem le_roundUnits {x : ℚ} {E : ℤ} {mb n : Nat} (hlo : 2 ^ E ≤ x) (h : nearest (x / 2 ^ (E - mb)) n) : 2 ^ mb ≤ n := by
  have hp : (0 : ℚ) < 2 ^ (E - mb) := by positivity
  have h1 : ((2 ^ mb : ℕ) : ℤ) ≤ x / 2 ^ (E - mb : ℤ) := by
    rw [le_div_iff₀ hp]
    push_cast
    rw [← zpow_natCast, ← zpow_add₀ two_ne_zero]
    simpa using hlo
  exact_mod_cast le_of_nearest h h1

theorem infMag_lt : ∀ f, IsFormat f → infMag f < 2 ^ (f.mb + f.eb) := IsFormat.cases (by decide) (by decide) (by decide)

/-- The top bit of a signed magnitude. -/
theorem sign_of_signed {f : FFmt} (neg : Bool) {mag : Nat} (h : mag < 2 ^ (f.mb + f.eb)) :
    (f.signBit neg + mag) / 2 ^ (f.mb + f.eb) = if neg = true then 1 else 0 := by
  cases neg <;> simp [FFmt.signBit, Nat.div_eq_of_lt h, Nat.add_div_left]

/-- Tininess after rounding, as the model tests it. -/
theorem tiny_iff {x : ℚ} {E emin : ℤ} {mb u : Nat} (hu : nearest (x / 2 ^ (E - mb)) u) :
    (decide (E < emin) && !(decide (2 ^ mb * 2 ^ (emin - E).toNat ≤ u))) = true ↔
      E < emin ∧ ∃ k : ℤ, nearest (x / 2 ^ (E - mb)) k ∧ k * (2 : ℚ) ^ (E - mb) < 2 ^ emin := by
  have hp : (0 : ℚ) < 2 ^ (E - mb) := by positivity
  simp only [Bool.and_eq_true, decide_eq_true_eq, Bool.not_eq_true', decide_eq_false_iff_not, not_le]
  refine and_congr_right fun hE => ?_
  have hscale : (2 : ℚ) ^ emin = ((2 ^ mb * 2 ^ (emin - E).toNat : ℕ) : ℚ) * 2 ^ (E - mb) := by
    push_cast
    rw [← zpow_natCast, ← zpow_natCast, ← zpow_add₀ two_ne_zero, ← zpow_add₀ two_ne_zero]
    congr 1
    omega
  have hlt : u < 2 ^ mb * 2 ^ (emin - E).toNat ↔ (u : ℚ) * 2 ^ (E - mb) < 2 ^ emin := by
    rw [hscale, mul_lt_mul_iff_left₀ hp, Nat.cast_lt]
  rw [hlt]
  refine ⟨fun h => ⟨u, hu, by exact_mod_cast h⟩, fun ⟨k, hk, h⟩ => ?_⟩
  rw [← nearest_unique hu hk] at h
  exact_mod_cast h

/-- R47, R48: the model's rounding is the one rounding. -/
theorem rounded_round {f : FFmt} (hf : IsFormat f) (neg : Bool) {m : Nat} (e : ℤ) (hm : m ≠ 0) :
    rounded f (ratio (.fin neg m e)) (f.round neg m e) := by
  obtain ⟨hlo, hhi⟩ := top_spec hm e
  have hround := round_eq (f := f) (neg := neg) (e := e) hm
  dsimp only at hround
  generalize htop : (bitLen m : ℤ) - 1 + e = E at hlo hhi hround
  have hmax : (if E < 1 - (f.bias : ℤ) then 1 - (f.bias : ℤ) else E) = max E (1 - f.bias) := by
    rw [max_def]
    split_ifs <;> omega
  rw [hmax] at hround
  obtain ⟨hn, hnx⟩ := rneAt_spec m e (max E (1 - f.bias) - f.mb)
  obtain ⟨hk, -⟩ := rneAt_spec m e (E - f.mb)
  generalize rneAt m e (max E (1 - f.bias) - f.mb) = r at hn hnx hround
  generalize rneAt m e (E - f.mb) = u at hk hround
  have hmag : magVal f (roundMag f r.1 (max E (1 - f.bias))) = r.1 * 2 ^ (max E (1 - f.bias) - f.mb : ℤ) := by
    refine magVal_roundMag (le_max_right ..) (roundUnits_le hhi (le_max_left ..) hn) ?_
    rcases le_total E (1 - f.bias) with h | h
    · exact Or.inl (max_eq_right h)
    · rw [max_eq_left h] at hn
      exact Or.inr (le_roundUnits hlo hn)
  have hle : (r.1 : ℚ) * 2 ^ (max E (1 - f.bias) - f.mb : ℤ) ≤ largest f ↔ ¬ f.maxFin < roundMag f r.1 (max E (1 - f.bias)) := by
    rw [← hmag, ← magVal_maxFin f hf, (magVal_strictMono f).le_iff_le, not_lt]
  have hneg : decide (ratio (.fin neg m e) < 0) = neg := by
    cases neg <;> simp [ratio_fin_neg_iff hm]
  have hp : (0 : ℚ) < 2 ^ (max E (1 - f.bias) - f.mb : ℤ) := by positivity
  have hexact : r.2 = true ↔ (r.1 : ℚ) * 2 ^ (max E (1 - f.bias) - f.mb : ℤ) ≠ m * 2 ^ e :=
    hnx.trans (not_congr (eq_div_iff hp.ne'))
  refine ⟨E, (r.1 : ℤ), ?_⟩
  rw [abs_ratio_fin]
  simp only [ratio_fin_neg_iff hm, Int.cast_natCast]
  refine ⟨hlo, hhi, hn, ?_, fun hy => ?_, fun hy => ?_⟩
  · rw [hround]
    by_cases h : f.maxFin < roundMag f r.1 (max E (1 - f.bias))
    · rw [if_pos h]
      exact sign_of_signed neg (infMag_lt f hf)
    · rw [if_neg h]
      exact sign_of_signed neg ((not_lt.mp h).trans_lt (maxFin_lt f hf))
  · rw [hround, if_neg (hle.mp hy)]
    obtain ⟨h0, h1, h2, h3, h4⟩ := getLsbD_roundFlags r.2 (decide (E < 1 - (f.bias : ℤ)) &&
      !(decide (2 ^ f.mb * 2 ^ (1 - (f.bias : ℤ) - E).toNat ≤ u.1)))
    obtain ⟨m', e', hd, hv⟩ := dec_signed hf neg (not_lt.mp (hle.mp hy))
    refine ⟨⟨m', e', ?_, hv.trans hmag⟩, h0.trans hexact, h1.trans (and_congr hexact (tiny_iff hk)), h2, h3, h4⟩
    simpa using hd
  · rw [hround, if_pos (not_not.mp (mt hle.mpr (not_le.mpr hy)))]
    simp [signed, FFmt.signBit]

/-- Zero keeps its sign, any other number is rounded once. -/
theorem exactly_round {f : FFmt} (hf : IsFormat f) (neg : Bool) (m : Nat) (e : ℤ) :
    exactly f (ratio (.fin neg m e)) neg (f.round neg m e) := by
  refine ⟨fun h => rounded_round hf neg e (mt ratio_fin_eq_zero.mpr h), fun h => ?_⟩
  rw [FFmt.round, if_pos (ratio_fin_eq_zero.mp h)]
  rfl

/-- A finite value is written as its number, a zero with its sign. -/
theorem exactly_enc {f : FFmt} (hf : IsFormat f) {v : FVal} (hv : isFin v) {x : ℚ} {neg : Bool} (hx : ratio v = x)
    (hs : x = 0 → v.sign = neg) : exactly f x neg (f.enc v) := by
  obtain ⟨n, m, e, rfl⟩ := hv
  obtain ⟨h1, h2⟩ := exactly_round hf n m e
  subst hx
  exact ⟨h1, fun h => hs h ▸ h2 h⟩

theorem enc_inf (f : FFmt) (neg : Bool) : f.enc (.inf neg) = (signed f neg (infMag f), if f.noInf then flSA ||| flNX else 0) := by
  have hsa : flSaNx = flSA ||| flNX := by decide
  unfold FFmt.enc infMag
  rw [← hsa]
  cases f.noInf <;> rfl

theorem enc_nan (f : FFmt) (s : Bool) : f.enc (.nan s) = nanResult f s := rfl

/-- R9, R46 to R48: every writer of a float rounds once. -/
theorem roundingIsToNearestEven : Claims.RoundingIsToNearestEven :=
  fun _ hf neg m e => ⟨exactly_round hf neg m e, rfl, enc_inf .., enc_nan ..⟩

theorem noInf_iff : ∀ f, IsFormat f → (f.noInf = true ↔ f = fp8) := IsFormat.cases (by decide) (by decide) (by decide)

/-- The number of a magnitude in the terms of R46: a fraction of the smallest normal number, or one and a fraction at its exponent. -/
theorem magVal_eq (f : FFmt) (mag : Nat) : magVal f mag =
    if mag / 2 ^ f.mb = 0 then ((mag % 2 ^ f.mb : ℕ) : ℚ) * 2 ^ (1 - f.bias - f.mb : ℤ)
    else (1 + (mag % 2 ^ f.mb : ℕ) / (2 : ℚ) ^ f.mb) * 2 ^ ((mag / 2 ^ f.mb : ℕ) - f.bias : ℤ) := by
  rw [magVal]
  split_ifs
  · rfl
  · rw [zpow_sub₀ two_ne_zero _ (f.mb : ℤ), zpow_natCast]
    push_cast
    field_simp

/-- R46: what an encoding means. -/
theorem floatEncodings : Claims.FloatEncodings := by
  intro f hf w hw ex fr neg
  have hsign : (w / 2 ^ (f.mb + f.eb) % 2 == 1) = neg := by
    have : w / 2 ^ (f.mb + f.eb) < 2 := Nat.div_lt_of_lt_mul (by
      rwa [← Nat.pow_succ, show (f.mb + f.eb).succ = 1 + f.eb + f.mb by omega])
    rw [Nat.mod_eq_of_lt this]
    rfl
  refine ⟨?_, fun h8 hex => ?_, fun hfin => ?_⟩
  · rintro rfl hex hfr
    have hq : (fp8.noInf && ex == 15 && fr == 7) = true := by simp [hex, hfr, (noInf_iff fp8 hf).mpr]
    exact if_pos hq
  · have hi : f.noInf = false := by simpa using mt (noInf_iff f hf).mp h8
    have hs : (!f.noInf && ex == 2 ^ f.eb - 1) = true := by simp [hi, hex]
    have hq : (f.noInf && ex == 15 && fr == 7) = false := by simp [hi]
    rw [← hsign]
    exact (if_neg (by rw [hq]; decide)).trans (if_pos hs)
  · have hmag : w % 2 ^ (f.mb + f.eb) ≤ f.maxFin := by
      rw [le_maxFin_iff f hf _ (Nat.mod_lt _ (by positivity)), ← exponent_eq, ← fraction_eq]
      simpa only [noInf_iff f hf] using hfin
    obtain ⟨m, e, hd, hv⟩ := dec_finite hf hmag
    rw [hsign] at hd
    refine ⟨m, e, hd, hv.trans ?_⟩
    rw [magVal_eq, ← exponent_eq, ← fraction_eq]

end Sys2Proof.Proofs


/-! Settles O21: the floating-point slots, encodings, the one rounding, and exact arithmetic (R46 to R48, R196, R197). -/

namespace Sys2Proof.Proofs

open Sys2Proof.Machine Sys2Proof.Claims

/-! ## Exact values -/

@[simp] theorem ratio_zero (neg : Bool) (e : ℤ) : ratio (.fin neg 0 e) = 0 := ratio_fin_eq_zero.mpr rfl

@[simp] theorem isNaN_inf (n : Bool) : (FVal.inf n).isNaN = false := rfl
@[simp] theorem isNaN_fin (n : Bool) (m : Nat) (e : ℤ) : (FVal.fin n m e).isNaN = false := rfl
@[simp] theorem isNaN_neg (v : FVal) : v.neg.isNaN = v.isNaN := by cases v <;> rfl
@[simp] theorem isSNaN_neg (v : FVal) : v.neg.isSNaN = v.isSNaN := by cases v <;> rfl

theorem isNaN_of_isFin {v : FVal} (h : isFin v) : v.isNaN = false := by
  obtain ⟨n, m, e, rfl⟩ := h
  rfl

theorem ratio_neg (v : FVal) : ratio v.neg = -ratio v := by
  rcases v with s | n | ⟨n, m, e⟩
  · simp [ratio, FVal.neg]
  · simp [ratio, FVal.neg]
  · cases n <;> simp [ratio, FVal.neg]

theorem isFin_neg {v : FVal} (h : isFin v) : isFin v.neg := by
  obtain ⟨n, m, e, rfl⟩ := h
  exact ⟨_, _, _, rfl⟩

theorem sign_neg {v : FVal} (h : isFin v) : v.neg.sign = !v.sign := by
  obtain ⟨n, m, e, rfl⟩ := h
  rfl

theorem isFin_scale {v : FVal} (h : isFin v) (k : ℤ) : isFin (v.scale k) := by
  obtain ⟨n, m, e, rfl⟩ := h
  exact ⟨_, _, _, rfl⟩

theorem ratio_scale (v : FVal) (k : ℤ) : ratio (v.scale k) = ratio v * 2 ^ k := by
  rcases v with s | n | ⟨n, m, e⟩
  · simp [ratio, FVal.scale]
  · simp [ratio, FVal.scale]
  · simp only [ratio, FVal.scale, zpow_add₀ (two_ne_zero' ℚ), mul_assoc]

theorem isFin_ofInt (x : ℤ) : isFin (FVal.ofInt x) := ⟨_, _, _, rfl⟩

theorem ratio_fin_natAbs (x : ℤ) (e : ℤ) : ratio (.fin (decide (x < 0)) x.natAbs e) = x * 2 ^ e := by
  have h : (x.natAbs : ℚ) = |(x : ℚ)| := by rw [Nat.cast_natAbs, Int.cast_abs]
  by_cases hx : x < 0
  · have : (x : ℚ) < 0 := by exact_mod_cast hx
    simp [ratio, hx, h, abs_of_neg this]
  · have : (0 : ℚ) ≤ x := by exact_mod_cast not_lt.mp hx
    simp [ratio, hx, h, abs_of_nonneg this]

theorem ratio_ofInt (x : ℤ) : ratio (FVal.ofInt x) = x := by
  rw [FVal.ofInt, ratio_fin_natAbs, zpow_zero, mul_one]

/-- The signed significand at a lower exponent is the same number. -/
theorem signedAt_ratio {n : Bool} {m : Nat} {e q : ℤ} (h : q ≤ e) : (signedAt n m e q : ℚ) * 2 ^ q = ratio (.fin n m e) := by
  have hs : (2 : ℚ) ^ (e - q).toNat * 2 ^ q = 2 ^ e := by
    rw [← zpow_natCast, ← zpow_add₀ two_ne_zero]
    congr 1
    omega
  cases n <;> simp [signedAt, ratio, mul_assoc, hs]

/-- A sum of finite values is exact; a zero sum is negative when both operands are. -/
theorem addV_fin {x y : FVal} (hx : isFin x) (hy : isFin y) : ∃ v, x.addV y = some v ∧ isFin v ∧ ratio v = ratio x + ratio y ∧
    (ratio x + ratio y = 0 → v.sign = (x.sign && y.sign)) := by
  obtain ⟨a, m, d, rfl⟩ := hx
  obtain ⟨b, n, e, rfl⟩ := hy
  have hq : ∃ q, (if d < e then d else e) = q ∧ q ≤ d ∧ q ≤ e := ⟨_, rfl, by split_ifs <;> omega, by split_ifs <;> omega⟩
  obtain ⟨q, hqe, hd, he⟩ := hq
  have hsum : ((signedAt a m d q + signedAt b n e q : ℤ) : ℚ) * 2 ^ q = ratio (.fin a m d) + ratio (.fin b n e) := by
    push_cast
    rw [add_mul, signedAt_ratio hd, signedAt_ratio he]
  simp only [FVal.addV, hqe]
  split_ifs with h0
  · refine ⟨_, rfl, ⟨_, _, _, rfl⟩, ?_, fun _ => rfl⟩
    rw [← hsum, h0]
    simp
  · refine ⟨_, rfl, ⟨_, _, _, rfl⟩, (ratio_fin_natAbs _ _).trans hsum, fun h => absurd (hsum.trans h) ?_⟩
    have h1 : ((signedAt a m d q + signedAt b n e q : ℤ) : ℚ) ≠ 0 := by exact_mod_cast h0
    positivity

/-- A product of finite values is exact. -/
theorem mulV_fin {x y : FVal} (hx : isFin x) (hy : isFin y) :
    ∃ v, x.mulV y = some v ∧ isFin v ∧ ratio v = ratio x * ratio y ∧ v.sign = (x.sign != y.sign) := by
  obtain ⟨a, m, d, rfl⟩ := hx
  obtain ⟨b, n, e, rfl⟩ := hy
  refine ⟨_, rfl, ⟨_, _, _, rfl⟩, ?_, rfl⟩
  cases a <;> cases b <;> simp [ratio, zpow_add₀ (two_ne_zero' ℚ)] <;> ring

/-! ## Operations on finite values (R196) -/

section
variable {f : FFmt} (hf : IsFormat f) {x y z : FVal}

/-- Where no operand is a NaN an operation writes its result. -/
theorem withNaN_of_none {vs : List FVal} {r : Option FVal} (h : ∀ v ∈ vs, v.isNaN = false) : f.withNaN vs r = f.result r := by
  have : vs.any FVal.isNaN = false := List.any_eq_false.mpr fun v hv => by simp [h v hv]
  simp [FFmt.withNaN, this]

include hf

theorem exactly_addV (hx : isFin x) (hy : isFin y) : exactly f (ratio x + ratio y) (x.sign && y.sign) (f.withNaN [x, y] (x.addV y)) := by
  obtain ⟨v, hv, hfin, hr, hs⟩ := addV_fin hx hy
  rw [withNaN_of_none (by simp [isNaN_of_isFin, hx, hy]), hv]
  exact exactly_enc hf hfin hr hs

theorem exactly_mulV (hx : isFin x) (hy : isFin y) : exactly f (ratio x * ratio y) (x.sign != y.sign) (f.withNaN [x, y] (x.mulV y)) := by
  obtain ⟨v, hv, hfin, hr, hs⟩ := mulV_fin hx hy
  rw [withNaN_of_none (by simp [isNaN_of_isFin, hx, hy]), hv]
  exact exactly_enc hf hfin hr fun _ => hs

end

/-! ## NaNs and infinities (R47, R196) -/

/-- A NaN among the operands. -/
theorem withNaN_of_some {f : FFmt} {vs : List FVal} {r : Option FVal} (h : vs.any FVal.isNaN = true) :
    f.withNaN vs r = nanResult f (vs.any FVal.isSNaN) := by
  simp [FFmt.withNaN, h, nanResult, flagIf]

theorem result_none (f : FFmt) : f.result none = nanResult f true := rfl

theorem result_inf {f : FFmt} (hi : f.noInf = false) (n : Bool) : f.result (some (.inf n)) = infResult f n := by
  rw [FFmt.result, enc_inf, hi]
  rfl

/-- The fused operation on exact values. -/
def fmaV (f : FFmt) (x y z : FVal) : Nat × FlagSet :=
  if !x.isNaN && !y.isNaN && (x.mulV y).isNone then (f.qnan, flNV)
  else f.withNaN [x, y, z] (match x.mulV y with | some p => p.addV z | none => none)

section
variable {f : FFmt} {x y z : FVal} {r : Nat × FlagSet}

theorem exactly_fmaV (hf : IsFormat f) (hx : isFin x) (hy : isFin y) (hz : isFin z) :
    exactly f (ratio x * ratio y + ratio z) ((x.sign != y.sign) && z.sign) (fmaV f x y z) := by
  obtain ⟨p, hp, hpf, hpr, hps⟩ := mulV_fin hx hy
  obtain ⟨v, hv, hfin, hr, hs⟩ := addV_fin hpf hz
  rw [hpr] at hr hs
  rw [fmaV, hp, withNaN_of_none (by simp [isNaN_of_isFin, hx, hy, hz])]
  simp only [Option.isNone_some, Bool.and_false, Bool.false_eq_true, if_false, hv]
  exact exactly_enc hf hfin hr (hps ▸ hs)

variable (hi : f.noInf = false)
include hi

theorem addV_special (h : sumSpecial f x y = some r) : f.withNaN [x, y] (x.addV y) = r := by
  cases x with
  | nan s => cases y <;> cases h <;> simp [withNaN_of_some, FVal.isNaN, FVal.isSNaN]
  | inf a =>
    cases y with
    | nan t => cases h; simp [withNaN_of_some, FVal.isNaN, FVal.isSNaN]
    | inf b =>
      cases h
      rw [withNaN_of_none (by simp [FVal.isNaN]), FVal.addV]
      by_cases hab : a = b <;> simp [hab, result_inf hi, result_none]
    | fin b n e =>
      cases h
      rw [withNaN_of_none (by simp [FVal.isNaN]), FVal.addV, result_inf hi]
      all_goals simp
  | fin a m d =>
    cases y with
    | nan t => cases h; simp [withNaN_of_some, FVal.isNaN, FVal.isSNaN]
    | inf b =>
      cases h
      rw [withNaN_of_none (by simp [FVal.isNaN]), FVal.addV, result_inf hi]
      all_goals simp
    | fin b n e => cases h

omit hi in
theorem mulV_zeroTimesInf (h : zeroTimesInf x y = true) : x.mulV y = none ∧ x.isNaN = false ∧ y.isNaN = false := by
  cases x <;> cases y <;> simp_all [zeroTimesInf, FVal.mulV, FVal.isZero, FVal.isNaN]

omit hi in
theorem mulV_invalid_iff : (!x.isNaN && !y.isNaN && (x.mulV y).isNone) = zeroTimesInf x y := by
  cases x <;> cases y <;> simp [zeroTimesInf, FVal.mulV, FVal.isZero, FVal.isNaN]
  all_goals split_ifs <;> simp_all

omit hi in
theorem mulV_infProduct {p : Bool} (h : infProduct x y = some p) : x.mulV y = some (.inf p) ∧ x.isNaN = false ∧ y.isNaN = false := by
  cases x <;> cases y <;> simp_all [infProduct, FVal.mulV, FVal.isZero, FVal.isNaN, FVal.sign]
  rw [bne_comm]
  exact h.2

omit hi in
/-- A product that is no NaN, not invalid and not infinite is finite. -/
theorem isFin_of_infProduct (hz : zeroTimesInf x y = false) (hn : x.isNaN = false ∧ y.isNaN = false) (h : infProduct x y = none) :
    isFin x ∧ isFin y := by
  cases x <;> cases y <;> simp_all [zeroTimesInf, infProduct, FVal.isNaN, isFin]

omit hi in
/-- The special products in order: a NaN, an invalid product, an infinite one. -/
theorem productSpecial_eq : productSpecial f x y =
    if (x.isNaN || y.isNaN) = true then some (nanResult f (x.isSNaN || y.isSNaN))
    else if zeroTimesInf x y = true then some (nanResult f true) else (infProduct x y).map (infResult f) := by
  cases x <;> cases y <;> simp [productSpecial, FVal.isNaN, FVal.isSNaN, zeroTimesInf, infProduct]
  all_goals split_ifs <;> rfl

theorem mulV_special (h : productSpecial f x y = some r) : f.withNaN [x, y] (x.mulV y) = r := by
  rw [productSpecial_eq] at h
  split_ifs at h with hn hz
  · rw [← Option.some.inj h, withNaN_of_some (by simpa using hn)]
    simp
  · obtain ⟨hm, hx, hy⟩ := mulV_zeroTimesInf hz
    rw [← Option.some.inj h, withNaN_of_none (by simp [hx, hy]), hm, result_none]
  · obtain ⟨p, hp, rfl⟩ := Option.map_eq_some_iff.mp h
    obtain ⟨hm, hx, hy⟩ := mulV_infProduct hp
    rw [withNaN_of_none (by simp [hx, hy]), hm, result_inf hi]

theorem fmaV_special (h : fmaSpecial f x y z = some r) : fmaV f x y z = r := by
  unfold fmaSpecial at h
  unfold fmaV
  rw [mulV_invalid_iff]
  split_ifs at h ⊢ with hz hn
  · rw [← Option.some.inj h]
    rfl
  · rw [withNaN_of_some (by simpa [or_assoc] using hn), ← Option.some.inj h]
    simp [Bool.or_assoc]
  · have hn' : (x.isNaN = false ∧ y.isNaN = false) ∧ z.isNaN = false := by simpa using hn
    rw [withNaN_of_none (by simp [hn'])]
    cases hp : infProduct x y with
    | some p =>
      rw [(mulV_infProduct hp).1]
      dsimp only
      rw [← withNaN_of_none (vs := [.inf p, z]) (by simp [hn'])]
      rw [hp] at h
      cases z with
      | nan s => simp [FVal.isNaN] at hn'
      | inf q => exact addV_special hi h
      | fin b n e => exact addV_special hi h
    | none =>
      obtain ⟨hx, hy⟩ := isFin_of_infProduct ((Bool.not_eq_true _).mp hz) hn'.1 hp
      obtain ⟨v, hv, ⟨b, n, e, rfl⟩, -⟩ := mulV_fin hx hy
      rw [hv]
      dsimp only
      rw [← withNaN_of_none (vs := [.fin b n e, z]) (by simp [hn'])]
      rw [hp] at h
      cases z with
      | nan s => simp [FVal.isNaN] at hn'
      | inf q => exact addV_special hi h
      | fin b n e => cases h
end

theorem arithmetic_noInf : ∀ f ∈ [fp32, bf16], IsFormat f ∧ f.noInf = false := by simp [IsFormat, fp32, bf16, FFmt.noInf]

/-- R47, R196: add, sub, mul and fma, exact on finite operands, and IEEE's rules for the others. -/
theorem floatArithmeticIsExact : Claims.FloatArithmeticIsExact := by
  intro f hf2 a b c x y z
  obtain ⟨hf, hi⟩ := arithmetic_noInf f hf2
  have hsub : f.sub a b = f.withNaN [x, y.neg] (x.addV y.neg) := by simp [FFmt.sub, FFmt.withNaN, x, y]
  refine ⟨fun hx hy => ⟨exactly_addV hf hx hy, ?_, exactly_mulV hf hx hy, exactly_fmaV hf hx hy⟩, fun r => addV_special hi, fun r h => ?_,
    fun r => mulV_special hi, fun r => fmaV_special hi⟩
  · rw [hsub, sub_eq_add_neg, ← ratio_neg, ← sign_neg hy]
    exact exactly_addV hf hx (isFin_neg hy)
  · rw [hsub]
    exact addV_special hi h

/-! ## The slots (R186, R196, R197) -/

theorem exec_floatRow {i : Instr} {f : VForm} {lat w : Nat} {fn : Nat → Nat → Nat → Nat × FlagSet} (h : floatRow i = some (f, lat, w, fn))
    (s : State) : exec i s = s.exElems 1 lat w f fn := by
  unfold floatRow at h
  split at h
  all_goals simp only [Option.some.injEq, Prod.mk.injEq, reduceCtorEq] at h
  all_goals obtain ⟨rfl, rfl, rfl, rfl⟩ := h
  all_goals rfl

/-- An operation on elements writes its results under the mask. -/
theorem exElems_completes {s : State} {e : ExIn} {i : Instr} {f : VForm} {slot lat w : Nat} {fn : Nat → Nat → Nat → Nat × FlagSet}
    (h : slotReads s e) (hx : exec i s = s.exElems slot lat w f fn) (hv : viewsOk e [vd e f, va e f, vb e f]) :
    completesWith s e i slot fun o =>
      let r (k : Nat) : Nat × FlagSet := fn (elem e (va e f) w k) (elem e (vb e f) w k) (elem e (vd e f) w k)
      writesElems o lat (viewAddr e (vd e f)) w (256 / w) (fun k => maskBit e f.q (k * w / 4)) (fun k => (r k).1) fun k => (r k).2 := by
  refine completesWith_of_exOp h hx hv rfl rfl (writesElems_laneWrite (fun k _ => maskBit_iff ..) ?_)
  rw [lanesOf_vec, lanesOf_vec, lanesOf_vec, zip_map_range, zip_map_range, List.map_map, numbered_map_range]
  rfl

/-- R196, R197: the floating-point slots. -/
theorem floatSlotOperations : Claims.FloatSlotOperations :=
  fun s _ _ _ _ _ _ h hr hv => exElems_completes h (exec_floatRow hr s) hv

/-- Settles O21, from the one rounding, the encodings and the exact operations. -/
theorem floatingPointOperations : Obligations.FloatingPointOperations := by
  unfold Obligations.FloatingPointOperations
  exact ⟨floatSlotOperations, floatEncodings, roundingIsToNearestEven, floatArithmeticIsExact⟩

end Sys2Proof.Proofs


/-! Settles O25: codebook expansion, the swap of sides, and table interpolation (R215 to R220). -/

namespace Sys2Proof.Proofs

open Sys2Proof.Machine Sys2Proof.Claims

/-! ## Digits and words as bit vectors -/

theorem sextN_eq_toInt {n : Nat} (hn : 1 ≤ n) (x : Nat) : sextN n x = (BitVec.ofNat n x).toInt := by
  obtain ⟨k, rfl⟩ : ∃ k, n = k + 1 := ⟨n - 1, by omega⟩
  simp only [sextN, BitVec.toInt_eq_toNat_cond, BitVec.toNat_ofNat, Nat.add_sub_cancel, Nat.pow_succ]
  split_ifs <;> omega

theorem wrapN_eq_ofInt (n : Nat) (x : ℤ) : wrapN n x = (BitVec.ofInt n x).toNat := by
  rw [BitVec.toNat_ofInt, wrapN]

theorem sextN_four_div (v : BitVec 16) (k : Nat) : sextN 4 (v.toNat / 2 ^ k) = (v.extractLsb' k 4).toInt := by
  rw [sextN_eq_toInt (by decide)]
  congr 1
  apply BitVec.eq_of_toNat_eq
  rw [BitVec.toNat_ofNat, BitVec.extractLsb'_toNat, Nat.shiftRight_eq_div_pow]

/-! ## Codebook expansion (R215 to R219) -/

/-- No used index is at or above the valid count. -/
theorem lowestOver_eq_none {limit : Nat} {l : List Nat} (h : ∀ i ∈ l, i < limit) : lowestOver limit l = none := by
  unfold lowestOver
  induction l with
  | nil => rfl
  | cons i l ih =>
    rw [List.foldl_cons, if_neg (not_le.mpr (h i (by simp)))]
    exact ih fun j hj => h j (by simp [hj])

theorem exec_expandRow {i : Instr} {f : VForm} {n w : Nat} {idx : Nat → Nat → Nat} {val : Nat → BitVec 16 → Nat}
    (h : expandRow i = some (f, n, w, idx, val)) (s : State) :
    ∃ val', (∀ k v, val' k v.toNat = val k v) ∧ exec i s = s.exExpand f n w idx val' := by
  unfold expandRow at h
  split at h
  all_goals simp only [Option.some.injEq, Prod.mk.injEq, reduceCtorEq] at h
  all_goals obtain ⟨rfl, rfl, rfl, rfl, rfl⟩ := h
  · refine ⟨fun _ v => wrapN 32 (planeVal true 4 v), fun k v => ?_, rfl⟩
    have h0 := sextN_four_div v 0
    have h4 := sextN_four_div v 4
    have h8 := sextN_four_div v 8
    have h12 := sextN_four_div v 12
    dsimp only
    rw [← h0, ← h4, ← h8, ← h12, wrapN_eq_ofInt]
    congr 2
    simp only [planeVal, digitVal, if_true, Nat.div_div_eq_div_mul]
    norm_num
    ring
  · exact ⟨fun _ v => v, fun _ _ => rfl, rfl⟩
  · refine ⟨fun k v => wrapN 32 (sextN 4 (v / 16 ^ (k % 4))), fun k v => ?_, rfl⟩
    dsimp only
    rw [wrapN_eq_ofInt, show 16 ^ (k % 4) = 2 ^ (4 * (k % 4)) by rw [Nat.pow_mul], sextN_four_div]

/-- An expansion whose used indices are valid writes the entries they name. -/
theorem expand_completes {s : State} {e : ExIn} {i : Instr} {f : VForm} {n w : Nat} {idx : Nat → Nat → Nat} {val : Nat → BitVec 16 → Nat}
    (h : slotReads s e) (hr : expandRow i = some (f, n, w, idx, val)) (hv : viewsOk e [vd e f, va e f])
    (hi : ∀ k, k < n → maskBit e f.q (k * 64 / n) →
      indexOf e (va e f) (idxWidth (f.b.toNat / 4 % 4)) (idx (f.b.toNat / 16) k) < (e.x.frontSide e.clk (f.b.toNat % 4)).2) :
    completesWith s e i 1 fun o =>
      writesElems o 3 (viewAddr e (vd e f)) w n (fun k => maskBit e f.q (k * 64 / n))
        (fun k => val k ((e.x.frontSide e.clk (f.b.toNat % 4)).1.getD
          (indexOf e (va e f) (idxWidth (f.b.toNat / 4 % 4)) (idx (f.b.toNat / 16) k)) 0)) fun _ => 0 := by
  obtain ⟨val', hval, hx⟩ := exec_expandRow hr s
  have hl : lowestOver (e.x.frontSide e.clk (f.b.toNat % 4)).2 (((List.range n).filter fun k => (e.mask f.q).getLsbD (k * 64 / n)).map
      fun k => indexAt (leNat (e.vec (va e f))) (idxWidth (f.b.toNat / 4 % 4)) (idx (f.b.toNat / 16) k)) = none := by
    refine lowestOver_eq_none fun t ht => ?_
    obtain ⟨k, hk, rfl⟩ := List.mem_map.mp ht
    obtain ⟨hkn, hkm⟩ := List.mem_filter.mp hk
    exact hi k (List.mem_range.mp hkn) ((maskBit_iff ..).mpr hkm)
  refine completesWith_of_exOp h hx hv (by simp only [hl]; rfl) rfl (writesElems_laneWrite (fun k _ => maskBit_iff ..) ?_)
  refine List.map_congr_left fun k _ => ?_
  rw [hval]
  rfl

theorem cbswap_completes {s : State} {e : ExIn} (h : slotReads s e) (f : WForm) :
    completesWith s e (.cbswap f) 1 fun o => o = { InFlight.start 1 with swap := some (f.d.toNat % 4) } :=
  completesWith_of_exOp h (show exec (.cbswap f) s = execCbswap f s from rfl) (fun _ hm => absurd hm List.not_mem_nil) rfl rfl rfl

theorem codebookExpansionAndSwap : Claims.CodebookExpansionAndSwap :=
  fun _ _ h => ⟨fun _ _ _ _ _ _ hr hv hi => expand_completes h hr hv hi, cbswap_completes h⟩

/-! ## Table interpolation (R220) -/

theorem tableInterpolation : Claims.TableInterpolation := by
  intro s e f h hv tb x hvalid
  have hl : (lanesOf 2 (e.vec (va e f))).map bf16.dec = (List.range 128).map x := by
    rw [lanesOf_vec, List.map_map]
    rfl
  have hnone : lowestOver (e.x.tables.getD (f.b.toNat % 4) ITable.reset).valid (((numbered ((lanesOf 2 (e.vec (va e f))).map bf16.dec)).filter fun v =>
      (e.mask f.q).getLsbD (v.1 / 2) && !v.2.isNaN).map fun v => itpIndex v.2) = none := by
    refine lowestOver_eq_none fun t ht => ?_
    rw [hl, numbered_map_range] at ht
    obtain ⟨v, hv, rfl⟩ := List.mem_map.mp ht
    obtain ⟨hm, hp⟩ := List.mem_filter.mp hv
    obtain ⟨j, hj, rfl⟩ := List.mem_map.mp hm
    obtain ⟨hb, hn⟩ := (Bool.and_eq_true ..).mp hp
    exact hvalid j (List.mem_range.mp hj) ((maskBit_iff ..).mpr hb) (by simpa using hn)
  refine completesWith_of_exOp h (show exec (.vitpBf f) s = execVitpBf f s from rfl) hv (by simp only [hnone]; rfl) rfl
    (writesElems_laneWrite (fun j _ => maskBit_iff ..) ?_)
  rw [hl, numbered_map_range, List.map_map]
  refine List.map_congr_left fun j _ => ?_
  dsimp only [Function.comp_apply]
  by_cases hn : (x j).isNaN = true <;> simp only [hn, if_true, Bool.false_eq_true, if_false] <;> rfl

/-- The whole part of a finite value that is not negative. -/
theorem floor_fin (m : Nat) (e : ℤ) : ((if 0 ≤ e then m * 2 ^ e.toNat else m / 2 ^ (-e).toNat : ℕ) : ℤ) = ⌊(m : ℚ) * 2 ^ e⌋ := by
  split_ifs with he
  · have : (m : ℚ) * 2 ^ e = ((m * 2 ^ e.toNat : ℕ) : ℤ) := by
      push_cast
      rw [← zpow_natCast, Int.toNat_of_nonneg he]
    rw [this, Int.floor_intCast]
  · have : (m : ℚ) * 2 ^ e = (m : ℚ) / ((2 ^ (-e).toNat : ℕ) : ℚ) := by
      push_cast
      rw [← zpow_natCast, Int.toNat_of_nonneg (by omega), zpow_neg, div_inv_eq_mul]
    rw [this, Rat.floor_natCast_div_natCast]
    rfl

/-- 16·x + 128 is exact on finite values; an infinity stays itself. -/
theorem itpT_fin {x : FVal} (hx : isFin x) : ∃ n m e, itpT x = .fin n m e ∧ ratio (.fin n m e) = 16 * ratio x + 128 := by
  obtain ⟨v, hv, ⟨n, m, e, rfl⟩, hr, -⟩ := addV_fin (isFin_scale hx 4) (isFin_ofInt 128)
  refine ⟨n, m, e, by rw [itpT, hv], hr.trans ?_⟩
  rw [ratio_scale, ratio_ofInt]
  norm_num
  ring

theorem itpT_inf (n : Bool) : itpT (.inf n) = .inf n := rfl

/-- R220: the entry an interpolation uses. -/
theorem itpIndex_fin {x : FVal} (hx : isFin x) : itpIndex x = if 16 * ratio x + 128 < 0 then 0
    else if 256 ≤ 16 * ratio x + 128 then 255 else ⌊16 * ratio x + 128⌋.toNat := by
  obtain ⟨n, m, e, ht, hr⟩ := itpT_fin hx
  rw [itpIndex, ht, ← hr]
  have hfl := floor_fin m e
  dsimp only
  generalize (if 0 ≤ e then m * 2 ^ e.toNat else m / 2 ^ (-e).toNat) = fl at hfl ⊢
  by_cases hneg : (n && m != 0) = true
  · obtain ⟨hn, hm⟩ : n = true ∧ m ≠ 0 := by simpa using hneg
    rw [if_pos hneg, if_pos ((ratio_fin_neg_iff hm).mpr hn)]
  · have hpos : ratio (.fin n m e) = m * 2 ^ e := by
      rcases Bool.eq_false_or_eq_true n with rfl | rfl
      · obtain rfl : m = 0 := by simpa using hneg
        simp
      · simp [ratio]
    have h0 : (0 : ℚ) ≤ m * 2 ^ e := by positivity
    have h256 : 256 ≤ fl ↔ (256 : ℚ) ≤ m * 2 ^ e := by
      have := Int.le_floor (z := 256) (a := (m : ℚ) * 2 ^ e)
      rw [← hfl] at this
      exact_mod_cast this
    rw [if_neg hneg, hpos, if_neg (not_lt.mpr h0), ← hfl]
    simp only [h256, Int.toNat_natCast]

/-! ### The result -/

/-- Sums commute where no operand is a NaN. -/
theorem addV_comm {x y : FVal} (hx : x.isNaN = false) (hy : y.isNaN = false) : x.addV y = y.addV x := by
  cases x with
  | nan s => cases hx
  | inf a =>
    cases y with
    | nan s => cases hy
    | inf b => cases a <;> cases b <;> rfl
    | fin b n e => rfl
  | fin a m d =>
    cases y with
    | nan s => cases hy
    | inf b => rfl
    | fin b n e =>
      have hq : (if d < e then d else e) = if e < d then e else d := by split_ifs <;> omega
      simp only [FVal.addV, hq, Int.add_comm (signedAt a m d _), Bool.and_comm a b]

theorem sign_of_ratio_ne_zero {v : FVal} (hv : isFin v) (h : ratio v ≠ 0) : v.sign = decide (ratio v < 0) := by
  obtain ⟨n, m, e, rfl⟩ := hv
  have hm : m ≠ 0 := mt ratio_fin_eq_zero.mpr h
  cases n <;> simp [FVal.sign, ratio_fin_neg_iff hm]

/-- The offset of an x from its entry. -/
def itpOffset (x : FVal) (i : Nat) : Option FVal := (itpT x).addV (FVal.ofInt (-(i : Int)))

theorem itpOffset_fin {x : FVal} (hx : isFin x) (i : Nat) : ∃ v, itpOffset x i = some v ∧ isFin v ∧ ratio v = 16 * ratio x + 128 - i ∧
    v.sign = decide (ratio v < 0) := by
  obtain ⟨n, m, e, ht, hr⟩ := itpT_fin hx
  obtain ⟨v, hv, hf, hvr, hs⟩ := addV_fin (x := .fin n m e) ⟨n, m, e, rfl⟩ (isFin_ofInt (-(i : Int)))
  rw [hr, ratio_ofInt] at hvr hs
  refine ⟨v, by rw [itpOffset, ht, hv], hf, by rw [hvr]; push_cast; ring, ?_⟩
  by_cases h0 : ratio v = 0
  · have hsum : ratio (.fin n m e) = i := by
      have := hvr.symm.trans h0
      push_cast at this
      linarith
    rw [hs (hvr ▸ h0), h0]
    by_cases hi : i = 0
    · simp [hi, FVal.sign, FVal.ofInt]
    · have hpos : (0 : ℚ) < i := by positivity
      have hm : m ≠ 0 := mt ratio_fin_eq_zero.mpr (hsum.trans_ne hpos.ne')
      have hn : n = false := by
        rw [← Bool.not_eq_true, ← ratio_fin_neg_iff hm, hsum]
        exact not_lt.mpr hpos.le
      simp [hn, FVal.sign]
  · exact sign_of_ratio_ne_zero hf h0

/-- The parts of a fused operation depend on a finite operand by its sign and by whether it is zero. -/
theorem fmaSpecial_congr {f : FFmt} {x z : FVal} {n : Bool} {m m' : Nat} {e e' : ℤ} (h : m = 0 ↔ m' = 0) :
    fmaSpecial f x (.fin n m e) z = fmaSpecial f x (.fin n m' e') z := by
  have h1 : zeroTimesInf x (.fin n m e) = zeroTimesInf x (.fin n m' e') := by
    cases x <;> simp [zeroTimesInf, h]
  have h2 : infProduct x (.fin n m e) = infProduct x (.fin n m' e') := by
    cases x <;> simp [infProduct, h]
  unfold fmaSpecial
  rw [h1, h2]
  rfl

theorem mulV_isNaN {x y p : FVal} (hx : x.isNaN = false) (hy : y.isNaN = false) (h : x.mulV y = some p) : p.isNaN = false := by
  rcases x with s | a | ⟨a, m, d⟩ <;> rcases y with t | b | ⟨b, n, e⟩ <;>
    simp only [FVal.isNaN, reduceCtorEq, FVal.mulV, Option.ite_none_left_eq_some, Option.some.injEq] at hx hy h
  case fin.fin => rw [← h]; rfl
  all_goals rw [← h.2]; rfl

/-- Where entry and slope are no NaN, the result is the fused operation on slope, offset and value. -/
theorem itpResult_eq_fmaV {x fr : FVal} {entry i : Nat} (hv : (bf16.dec (entry / 65536)).isNaN = false)
    (hs : (bf16.dec (entry % 65536)).isNaN = false) (hf : itpOffset x i = some fr) (hn : fr.isNaN = false) :
    itpResult x entry i = fmaV bf16 (bf16.dec (entry % 65536)) fr (bf16.dec (entry / 65536)) := by
  unfold itpResult fmaV
  unfold itpOffset at hf
  generalize bf16.dec (entry / 65536) = v at hv ⊢
  generalize bf16.dec (entry % 65536) = sl at hs ⊢
  dsimp only
  rw [hf, withNaN_of_none (by simp [hv, hs]), withNaN_of_none (by simp [hv, hs, hn])]
  cases hm : sl.mulV fr with
  | none => simp [hm, hs, hn, FFmt.result]
  | some p =>
    simp [hm, addV_comm hv (mulV_isNaN hs hn hm)]

theorem interpolationValues : Claims.InterpolationValues := by
  refine ⟨fun x => ⟨itpIndex_fin, fun n h => by subst h; cases n <;> rfl⟩, ?_⟩
  intro x v sl entry i hv hs hx
  subst hv hs
  refine ⟨fun hn => ?_, fun hn g hg hgi => ?_⟩
  · rw [itpResult, withNaN_of_some (by simpa using hn)]
    simp
  · obtain ⟨hvn, hsn⟩ := (Bool.or_eq_false_iff ..).mp hn
    cases x with
    | nan s => cases hx
    | inf n =>
      obtain rfl := hgi n rfl
      rw [itpResult_eq_fmaV hvn hsn (fr := .inf n) rfl rfl]
      exact ⟨fun r => fmaV_special rfl, fun ⟨_, _, _, h⟩ => by cases h⟩
    | fin a m d =>
      obtain ⟨hgf, hgr, hgs⟩ := hg ⟨a, m, d, rfl⟩
      obtain ⟨fr, hfr, hff, hfrr, hfs⟩ := itpOffset_fin (x := .fin a m d) ⟨a, m, d, rfl⟩ i
      have hratio : ratio g = ratio fr := hgr.trans hfrr.symm
      have hsign : g.sign = fr.sign := by rw [hgs, hfs, hratio]
      rw [itpResult_eq_fmaV hvn hsn hfr (isNaN_of_isFin hff)]
      refine ⟨fun r hr => fmaV_special rfl ?_, fun _ hv hs => ?_⟩
      · obtain ⟨n, k, e, rfl⟩ := hgf
        obtain ⟨n', k', e', rfl⟩ := hff
        obtain rfl : n = n' := hsign
        rwa [fmaSpecial_congr (m' := k) (e' := e)]
        rw [← ratio_fin_eq_zero (neg := n) (e := e'), ← ratio_fin_eq_zero (neg := n) (e := e), hratio]
      · rw [add_comm, hratio, hsign]
        exact exactly_fmaV (arithmetic_noInf bf16 (by simp)).1 hs hff hv

/-- Settles O25, by expansion, swap and interpolation. -/
theorem codebooksAndTablesExpand : Obligations.CodebooksAndTablesExpand := by
  unfold Obligations.CodebooksAndTablesExpand
  exact ⟨codebookExpansionAndSwap, tableInterpolation, interpolationValues⟩

end Sys2Proof.Proofs


/-! Digits of planes (R37, R38, R40): packed digits, the integer they are, and the digits of an integer. -/

namespace Sys2Proof.Proofs

open Sys2Proof.Machine Sys2Proof.Claims

/-! ## Packed digits -/

/-- The number whose digits are `d 0` to `d (s − 1)`, highest first. -/
def packed (d : Nat → Nat) (s : Nat) : Nat := (List.range s).foldl (fun acc j => acc * 16 + d j) 0

theorem packed_succ (d : Nat → Nat) (s : Nat) : packed d (s + 1) = packed d s * 16 + d s := by
  simp [packed, List.range_succ]

/-- Digit `j` of packed digits. -/
theorem packed_digit {d : Nat → Nat} {s j : Nat} (hd : ∀ i, d i < 16) (hj : j < s) : packed d s / 16 ^ (s - 1 - j) % 16 = d j := by
  induction s with
  | zero => omega
  | succ s ih =>
    have := hd s
    rw [packed_succ]
    rcases Nat.lt_succ_iff_lt_or_eq.mp hj with h | rfl
    · rw [show s + 1 - 1 - j = (s - 1 - j) + 1 by omega, Nat.pow_succ', ← Nat.div_div_eq_div_mul,
        show (packed d s * 16 + d s) / 16 = packed d s by omega]
      exact ih h
    · simp
      omega

/-- The integer of packed digits, digit by digit (R38). -/
theorem planeVal_eq_sum (s p : Nat) :
    planeVal true s p = ((List.range s).map fun j => (BitVec.ofNat 4 (p / 16 ^ (s - 1 - j))).toInt * 16 ^ (s - 1 - j)).sum := by
  induction s generalizing p with
  | zero => rfl
  | succ s ih =>
    have hterm : (List.range s).map (fun j => (BitVec.ofNat 4 (p / 16 ^ (s + 1 - 1 - j))).toInt * (16 : ℤ) ^ (s + 1 - 1 - j)) =
        (List.range s).map fun j => (BitVec.ofNat 4 (p / 16 / 16 ^ (s - 1 - j))).toInt * 16 ^ (s - 1 - j) * 16 := by
      refine List.map_congr_left fun j hj => ?_
      have : j < s := List.mem_range.mp hj
      rw [show s + 1 - 1 - j = (s - 1 - j) + 1 by omega, Nat.pow_succ', pow_succ (16 : ℤ), Nat.div_div_eq_div_mul,
        mul_assoc]
    rw [planeVal, ih, List.range_succ, List.map_append, List.sum_append, hterm, List.sum_map_mul_right, digitVal, if_pos rfl,
      sextN_eq_toInt (by decide)]
    simp

/-- Without the low digits, the integer of the leading ones. -/
theorem planeVal_shift (t m q : Nat) : planeVal true (t + m) (q * 16 ^ m) = planeVal true t q * 16 ^ m := by
  induction m with
  | zero => simp
  | succ m ih =>
    have hz : digitVal true (q * 16 ^ (m + 1)) = 0 := by
      have : q * 16 ^ (m + 1) % 2 ^ 4 = 0 := by rw [Nat.pow_succ, ← mul_assoc]; omega
      rw [digitVal, if_pos rfl, sextN, this]
      rfl
    rw [show t + (m + 1) = (t + m) + 1 by omega, planeVal, hz, Nat.pow_succ, ← mul_assoc, Nat.mul_div_cancel _ (by decide), ih]
    ring

/-- Dropping low digits of packed digits leaves the leading ones. -/
theorem packed_div {d : Nat → Nat} (hd : ∀ i, d i < 16) (t m : Nat) : packed d (t + m) / 16 ^ m = packed d t := by
  induction m with
  | zero => simp
  | succ m ih =>
    have := hd (t + m)
    rw [show t + (m + 1) = (t + m) + 1 by omega, packed_succ, Nat.pow_succ', ← Nat.div_div_eq_div_mul,
      show (packed d (t + m) * 16 + d (t + m)) / 16 = packed d (t + m) by omega, ih]

theorem ofNat_four_mod (x : Nat) : BitVec.ofNat 4 x = BitVec.ofNat 4 (x % 16) := by
  apply BitVec.eq_of_toNat_eq
  simp

/-- The leading planes of packed digits, read as an integer (R38). -/
theorem planeRead_packed {d : Nat → Nat} (hd : ∀ i, d i < 16) (s n : Nat) :
    planeRead true s n (packed d s) = ((List.range (min n s)).map fun j => (BitVec.ofNat 4 (d j)).toInt * 16 ^ (s - 1 - j)).sum := by
  have hmin : (if n < s then n else s) = min n s := by split_ifs <;> omega
  have hs : s = min n s + (s - min n s) := by omega
  generalize ht : min n s = t at *
  generalize s - t = m at *
  subst hs
  rw [planeRead, hmin]
  rw [Nat.add_sub_cancel_left, packed_div hd, planeVal_shift, planeVal_eq_sum, ← List.sum_map_mul_right]
  refine congrArg List.sum (List.map_congr_left fun j hj => ?_)
  have hj : j < t := List.mem_range.mp hj
  rw [ofNat_four_mod, packed_digit hd hj, mul_assoc, ← pow_add]
  congr 2
  omega

/-! ## The digits of an integer (R40) -/

/-- The number whose digits are all one. -/
theorem ones_succ (n : Nat) : (16 ^ (n + 1) - 1) / 15 = 16 * ((16 ^ n - 1) / 15) + 1 := by
  have h : 16 ^ n % 15 = 1 := by simp [Nat.pow_mod]
  rw [Nat.pow_succ]
  omega

theorem ones_eq_sum (n : Nat) : (((16 ^ n - 1) / 15 : ℕ) : ℤ) = ((List.range n).map fun i => (16 : ℤ) ^ i).sum := by
  induction n with
  | zero => rfl
  | succ n ih =>
    have h : 16 ^ n % 15 = 1 := by simp [Nat.pow_mod]
    rw [List.range_succ, List.map_append, List.sum_append, ← ih]
    have : (16 ^ (n + 1) - 1) / 15 = (16 ^ n - 1) / 15 + 16 ^ n := by
      rw [Nat.pow_succ]
      omega
    rw [this]
    simp

theorem planeLo_succ (n : Nat) : planeLo true (n + 1) = 16 * planeLo true n - 8 := by
  simp only [planeLo, if_true, ones_succ]
  push_cast
  ring

theorem planeHi_succ (n : Nat) : planeHi true (n + 1) = 16 * planeHi true n + 7 := by
  simp only [planeHi, if_true, ones_succ]
  push_cast
  ring

/-- An integer in range is that of its digits. -/
theorem planeVal_packDigits {n : Nat} {y : ℤ} (hlo : planeLo true n ≤ y) (hhi : y ≤ planeHi true n) :
    planeVal true n (packDigits true n y) = y := by
  induction n generalizing y with
  | zero =>
    have h0 : planeLo true 0 = 0 ∧ planeHi true 0 = 0 := by decide
    simp only [planeVal]
    omega
  | succ n ih =>
    rw [planeLo_succ] at hlo
    rw [planeHi_succ] at hhi
    rw [packDigits, planeVal]
    simp only [if_true]
    generalize hd : (y + 8) % 16 - 8 = d
    have hdig : digitVal true (16 * packDigits true n ((y - d) / 16) + (d % 16).toNat) = d := by
      simp only [digitVal, if_true, sextN]
      omega
    have hdiv : (16 * packDigits true n ((y - d) / 16) + (d % 16).toNat) / 16 = packDigits true n ((y - d) / 16) := by omega
    rw [hdig, hdiv, ih (by omega) (by omega)]
    omega

end Sys2Proof.Proofs


/-! Settles O24: plane reads and writes, and what they take from the second port (R41, R43, R209 to R213). -/

namespace Sys2Proof.Proofs

open Sys2Proof.Machine Sys2Proof.Claims

/-! ## Elements of planes (R42, R209) -/

theorem packed_congr {d d' : Nat → Nat} {s : Nat} (h : ∀ j, j < s → d j = d' j) : packed d s = packed d' s := by
  induction s with
  | zero => rfl
  | succ s ih => rw [packed_succ, packed_succ, ih fun j hj => h j (by omega), h s (by omega)]

theorem nib_lt (e : ExIn) (v sp el j : Nat) : nib e v sp el j < 16 := Nat.mod_lt _ (by decide)

/-- Every element of a part has its digits within the view. -/
theorem plane_in_view (imm : BitVec 7) {el j : Nat} (hel : el < 64 * ((layOf (imm.toNat / 8)).2 + 1)) (hj : j < (layOf (imm.toNat / 8)).1) :
    planeStride (layOf (imm.toNat / 8)).1 * (el / 32) + 16 * j + el % 32 / 2 < 256 := by
  have := imm.isLt
  unfold layOf at hel hj ⊢
  unfold planeStride
  split_ifs at hel hj ⊢ <;> dsimp only at * <;> omega

theorem scale_in_view (imm : BitVec 7) {k : Nat} (hk : k < 64) : (64 * (layOf (imm.toNat / 8)).2 + k) / 32 < 256 := by
  have := imm.isLt
  unfold layOf
  split_ifs <;> dsimp only <;> omega

theorem vec_getD {e : ExIn} {v k : Nat} (h : k < 256) : ((e.vec v).getD k 0).toNat = elem e v 1 k := by
  simp [ExIn.vec, Context.poolGet, elem, leNat, h, List.getD_eq_getElem?_getD]
  rfl

theorem elemDigits_vec {e : ExIn} {v sp el : Nat} (h : ∀ j, j < sp → planeStride sp * (el / 32) + 16 * j + el % 32 / 2 < 256) :
    elemDigits (e.vec v) sp el = packed (nib e v sp el) sp := by
  refine packed_congr fun j hj => ?_
  rw [vec_getD (h j hj), nib, show el % 32 % 2 = el % 2 by omega]

/-! ## Touched blocks (R213) -/

theorem half_ne_zero_iff (m : W64) (h : Nat) : m.toNat / 2 ^ (32 * h) % 2 ^ 32 ≠ 0 ↔ ∃ k, k / 32 = h ∧ m.getLsbD k = true := by
  constructor
  · intro hx
    obtain ⟨i, hi⟩ := Nat.exists_testBit_of_ne_zero hx
    rw [Nat.testBit_mod_two_pow, Nat.testBit_div_two_pow, Bool.and_eq_true, decide_eq_true_eq] at hi
    exact ⟨i + 32 * h, by omega, hi.2⟩
  · rintro ⟨k, hk, hb⟩ h0
    have := congrArg (fun x => x.testBit (k % 32)) h0
    simp only [Nat.testBit_mod_two_pow, Nat.testBit_div_two_pow, Nat.zero_testBit, Nat.mod_lt k (show 32 > 0 by decide), decide_true,
      Bool.true_and, show k % 32 + 32 * h = k by omega] at this
    exact absurd hb (by rw [BitVec.getLsbD, this]; decide)

theorem mem_touchedBlocks {e : ExIn} {q : BitVec 3} {p b : Nat} : b ∈ touchedBlocks p (e.mask q) ↔ touched e q p b := by
  have hsome (h : Nat) : (if (e.mask q).toNat / 2 ^ (32 * h) % 2 ^ 32 = 0 then none else some (2 * p + h)) = some b ↔
      ∃ k, k / 32 = h ∧ maskBit e q k ∧ b = 2 * p + h := by
    simp only [Option.ite_none_left_eq_some, Option.some.injEq, ← ne_eq, half_ne_zero_iff, maskBit_iff]
    constructor
    · rintro ⟨⟨k, hk, hb⟩, rfl⟩
      exact ⟨k, hk, hb, rfl⟩
    · rintro ⟨k, hk, hb, rfl⟩
      exact ⟨⟨k, hk, hb⟩, rfl⟩
  simp only [touchedBlocks, List.mem_filterMap, List.mem_cons, List.not_mem_nil, or_false, hsome, touched]
  constructor
  · rintro ⟨h, -, k, hk, hb, rfl⟩
    exact ⟨k, hb, by omega⟩
  · rintro ⟨k, hb, rfl⟩
    have : k < 64 := hb.1
    exact ⟨k / 32, by omega, k, rfl, hb, by omega⟩

/-- No touched block is marked invalid (R45). -/
theorem badScale_eq_none {e : ExIn} {q : BitVec 3} {v p : Nat} (hb : ∀ k, k < 64 → (64 * p + k) / 32 < 256) (h : scalesOk e q v p) :
    badScale (e.vec v) (touchedBlocks p (e.mask q)) = none := by
  refine List.find?_eq_none.mpr fun b hm hff => ?_
  obtain ⟨k, hk, rfl⟩ := mem_touchedBlocks.mp hm
  refine h k hk ?_
  rw [scaleOf, ← vec_getD (hb k hk.1), beq_iff_eq.mp hff]
  rfl

/-! ## Plane reads (R209, R210) -/

section
variable {s : State} {e : ExIn} (f : IForm)

theorem exec_vplrd : exec (.vplrd f) s = execVplrd f s := rfl
theorem exec_vplwr : exec (.vplwr f) s = execVplwr f s := rfl
theorem exec_vpladd : exec (.vpladd f) s = execVpladd f s := rfl

theorem planeF32_iff : planeF32 f = true ↔ isF32 f := by simp [planeF32, isF32]

/-- The value of an element's leading planes, as the model reads it. -/
theorem planeRead_vec (imm : BitVec 7) (e : ExIn) (v : Nat) {k : Nat} (hk : k < 64) (n : Nat) :
    let lay := layOf (imm.toNat / 8)
    planeRead true lay.1 n (elemDigits (e.vec v) lay.1 (64 * lay.2 + k)) =
      ((List.range (min n lay.1)).map fun j => (BitVec.ofNat 4 (nib e v lay.1 (64 * lay.2 + k) j)).toInt * 16 ^ (lay.1 - 1 - j)).sum := by
  intro lay
  rw [elemDigits_vec fun j hj => plane_in_view imm (by dsimp only [lay]; omega) hj, planeRead_packed (nib_lt e v _ _)]

end

theorem planeReadValues : Claims.PlaneReadValues := by
  intro s e f sp p n d a h hp hd ha hv v
  obtain ⟨rfl, rfl, rfl⟩ : sp = (layOf (f.imm.toNat / 8)).1 ∧ p = (layOf (f.imm.toNat / 8)).2 ∧ n = f.imm.toNat / 2 % 4 + 1 := by
    simpa [planesOf] using hp
  subst hd ha
  have hval (k : Nat) (hk : k ∈ List.range 64) := planeRead_vec f.imm e (e.view f.a f.x) (List.mem_range.mp hk) (f.imm.toNat / 2 % 4 + 1)
  refine ⟨fun hi => ?_, fun hf hv1 hs => ?_⟩
  · have hi' : planeF32 f = false := by rwa [← Bool.not_eq_true, planeF32_iff]
    refine completesWith_of_exOp h (exec_vplrd f) (by simpa [hi'] using hv) (by simp only [hi', Bool.false_eq_true, if_false]; rfl) rfl
      (writesElems_laneWrite (fun k _ => maskBit_iff ..) (List.map_congr_left fun k hk => ?_))
    rw [hval k hk, wrapN_eq_ofInt]
  · have hf' := (planeF32_iff f).mpr hf
    have hb := badScale_eq_none (fun k => scale_in_view f.imm) hs
    refine completesWith_of_exOp h (exec_vplrd f) (by simp only [hf', if_true]; exact List.forall_mem_append.mpr ⟨hv, hv1⟩)
      (by simp only [hf', if_true, hb]; rfl) rfl
      (writesElems_laneWrite (fun k _ => maskBit_iff ..) (List.map_congr_left fun k hk => ?_))
    simp only [hval k hk, vec_getD (scale_in_view f.imm (List.mem_range.mp hk))]
    rfl

/-! ## Plane writes (R41, R211 to R213) -/

theorem mem_blockBytes {base sp np b a : Nat} {el : Nat → Nat} {v : Byte} : (a, v) ∈ blockBytes base sp np b el ↔
    ∃ j k, j < np ∧ k < 16 ∧ a = base + planeStride sp * b + 16 * j + k ∧
      v = BitVec.ofNat 8 (el (2 * k) / 16 ^ (sp - 1 - j) % 16 + 16 * (el (2 * k + 1) / 16 ^ (sp - 1 - j) % 16)) := by
  simp only [blockBytes, List.mem_flatMap, List.mem_map, List.mem_range, Prod.mk.injEq]
  constructor
  · rintro ⟨j, hj, k, hk, rfl, rfl⟩
    exact ⟨j, k, hj, hk, rfl, rfl⟩
  · rintro ⟨j, k, hj, hk, rfl, rfl⟩
    exact ⟨j, hj, k, hk, rfl, rfl⟩

theorem mem_placed_zeros {base a n : Nat} {v : Byte} : (a, v) ∈ placed base (List.replicate n 0) ↔ ∃ k, k < n ∧ a = base + k ∧ v = 0 := by
  simp only [mem_placed, List.getElem?_replicate, Option.ite_none_right_eq_some, Option.some.injEq]
  constructor
  · rintro ⟨k, ha, hk, rfl⟩
    exact ⟨k, hk, ha, rfl⟩
  · rintro ⟨k, hk, ha, rfl⟩
    exact ⟨k, ha, hk, rfl⟩

/-- A plane write writes the new digits of the selected elements of its touched blocks and the old ones of the others. -/
theorem writesPlanes_planeWrite {e : ExIn} {imm : BitVec 7} {d np : Nat} {q : BitVec 3} {pad : Bool} {res : Nat → Nat × FlagSet} {padded : Prop}
    (hnp : np ≤ (layOf (imm.toNat / 8)).1) (hpad : padded ↔ pad = true ∧ (layOf (imm.toNat / 8)).1 = 3)
    {new : Nat → Nat} {fl : Nat → FlagSet} (hres : ∀ k, maskBit e q k → res k = (new k, fl k)) :
    writesPlanes e (e.planeWrite d (layOf (imm.toNat / 8)).1 np (layOf (imm.toNat / 8)).2 pad (e.mask q) res) d (layOf (imm.toNat / 8)).1 np
      (layOf (imm.toNat / 8)).2 q padded new fl := by
  generalize hl : layOf (imm.toNat / 8) = lay at *
  obtain ⟨sp, p⟩ := lay
  have hold (b i j : Nat) (hb : touched e q p b) (hi : i < 32) (hj : j < np) :
      elemDigits (e.vec d) sp (32 * b + i) / 16 ^ (sp - 1 - j) % 16 = nib e d sp (32 * b + i) j := by
    obtain ⟨k, hk, rfl⟩ := hb
    have : k < 64 := hk.1
    have hview (j : Nat) (hj : j < sp) := plane_in_view imm (el := 32 * ((64 * p + k) / 32) + i) (j := j) (by rw [hl]; omega) (by rwa [hl])
    rw [hl] at hview
    rw [elemDigits_vec hview, packed_digit (nib_lt e d sp _) (by omega)]
  have hdig (b i j x : Nat) (hb : touched e q p b) (hi : i < 32) (hj : j < np) :
      ((maskBit e q (32 * b + i - 64 * p) → x = new (32 * b + i - 64 * p) / 16 ^ (sp - 1 - j) % 16) ∧
        (¬ maskBit e q (32 * b + i - 64 * p) → x = nib e d sp (32 * b + i) j)) ↔
      x = (if (e.mask q).getLsbD (32 * b + i - 64 * p) then (res (32 * b + i - 64 * p)).1 else elemDigits (e.vec d) sp (32 * b + i)) /
        16 ^ (sp - 1 - j) % 16 := by
    by_cases hm : maskBit e q (32 * b + i - 64 * p)
    · rw [if_pos ((maskBit_iff ..).mp hm), hres _ hm]
      exact ⟨fun h => h.1 hm, fun h => ⟨fun _ => h, fun hn => absurd hm hn⟩⟩
    · rw [if_neg (mt (maskBit_iff ..).mpr hm), hold b i j hb hi hj]
      exact ⟨fun h => h.2 hm, fun h => ⟨fun hn => absurd hn hm, fun _ => h⟩⟩
  refine ⟨rfl, rfl, rfl, rfl, rfl, fun a v => ?_, fun j => ?_⟩
  · simp only [ExIn.planeWrite, List.mem_flatMap, mem_touchedBlocks, List.mem_append, mem_blockBytes]
    constructor
    · rintro ⟨b, hb, ⟨j, k, hj, hk, ha, hv⟩ | hz⟩
      · exact ⟨b, k, hb, hk, .inl ⟨j, _, _, hj, ha, (hdig b (2 * k) j _ hb (by omega) hj).mpr rfl,
          (hdig b (2 * k + 1) j _ hb (by omega) hj).mpr rfl, hv⟩⟩
      · by_cases hp : (pad && sp == 3) = true
        · rw [if_pos hp, mem_placed_zeros] at hz
          obtain ⟨k, hk, ha, hv⟩ := hz
          exact ⟨b, k, hb, hk, .inr ⟨hpad.mpr (by simpa using hp), ha, hv⟩⟩
        · rw [if_neg hp] at hz
          cases hz
    · rintro ⟨b, k, hb, hk, ⟨j, lo, hi, hj, ha, hlo, hhi, hv⟩ | ⟨hp, ha, hv⟩⟩
      · rw [hdig b _ j _ hb (by omega) hj] at hlo hhi
        exact ⟨b, hb, .inl ⟨j, k, hj, hk, ha, by rw [hv, hlo, hhi]⟩⟩
      · refine ⟨b, hb, .inr ?_⟩
        rw [if_pos (by simpa using hpad.mp hp), mem_placed_zeros]
        exact ⟨k, hk, ha, hv⟩
  · simp only [ExIn.planeWrite, getLsbD_flagUnion, List.mem_map, List.mem_range, maskBit_iff]
    constructor
    · rintro ⟨_, ⟨k, hk, rfl⟩, hj⟩
      by_cases hm : (e.mask q).getLsbD k = true
      · exact ⟨k, hm, by simpa [hm, hres k ((maskBit_iff ..).mpr hm)] using hj⟩
      · simp [hm] at hj
    · rintro ⟨k, hm, hj⟩
      exact ⟨_, ⟨k, BitVec.lt_of_getLsbD hm, rfl⟩, by simpa [hm, hres k ((maskBit_iff ..).mpr hm)] using hj⟩

/-- A plane write enters the pipeline and takes its blocks from the second port; nothing else changes. -/
theorem completesHeld_of_exOp {s : State} {e : ExIn} {i : Instr} {slot : Nat} {views : ExIn → List Nat} {g : ExIn → ExRes} {o : InFlight}
    {P : InFlight → Prop} (h : slotReads s e) (hx : exec i s = s.exOp slot views g) (hv : viewsOk e (views e))
    (hg : g e = .run s (some o)) (hp : P o) : completesHeld s e i slot P := by
  refine ⟨o, hp, (exOp_enters h hx hv hg).trans (congrArg _ ?_)⟩
  obtain ⟨-, -, -, -, hb, -⟩ := h
  simp only [cur] at hb
  simp [State.exEnter, hb, claim_pipe]

/-- R211: `vplwr`. -/
theorem vplwr_completes {s : State} {e : ExIn} {f : IForm} {sp p n d a : Nat} (h : slotReads s e) (hp : (sp, p, n) = planesOf f)
    (hd : d = e.view f.d f.x) (ha : a = e.view f.a f.x) (hv : viewsOk e [d, a]) {x : Nat → FVal}
    (hf : isF32 f → viewsOk e [d + 1] ∧ scalesOk e f.q (d + 1) p ∧
      ∀ k, x k = (fp32.dec (elem e a 4 k)).scale (127 - (scaleOf e (d + 1) (64 * p + k) : Int)))
    (hi : ¬ isF32 f → ∀ k, x k = FVal.ofInt (lane32 e a k).toInt) :
    completesHeld s e (.vplwr f) 0 fun o =>
      let r (k : Nat) : Nat × FlagSet := bpEncode true (min n sp) ((x k).scale (-4 * ((sp - min n sp : Nat) : Int)))
      writesPlanes e o d sp sp p f.q (sp = 3) (fun k => (r k).1 * 16 ^ (sp - min n sp)) fun k => (r k).2 := by
  obtain ⟨rfl, rfl, rfl⟩ : sp = (layOf (f.imm.toNat / 8)).1 ∧ p = (layOf (f.imm.toNat / 8)).2 ∧ n = f.imm.toNat / 2 % 4 + 1 := by
    simpa [planesOf] using hp
  subst hd ha
  have hlane (k : Nat) (hk : k < 64) : (lanesOf 4 (e.vec (e.view f.a f.x))).getD k 0 = elem e (e.view f.a f.x) 4 k := by
    rw [lanesOf_vec]
    simp [List.getD_eq_getElem?_getD, hk]
  have hscale (k : Nat) (hk : k < 64) := vec_getD (e := e) (v := e.view f.d f.x + 1) (scale_in_view f.imm hk)
  by_cases hm : isF32 f
  · obtain ⟨hv1, hs, hx⟩ := hf hm
    have hm' := (planeF32_iff f).mpr hm
    have hb := badScale_eq_none (fun k => scale_in_view f.imm) hs
    refine completesHeld_of_exOp h (exec_vplwr f) (by simp only [hm', if_true]; exact List.forall_mem_append.mpr ⟨hv, hv1⟩)
      (by simp only [hm', if_true, hb]; rfl) (writesPlanes_planeWrite le_rfl (by simp) fun k hk => ?_)
    dsimp only
    rw [hx, hlane k hk.1, hscale k hk.1]
    rfl
  · have hm' : planeF32 f = false := by rwa [← Bool.not_eq_true, planeF32_iff]
    refine completesHeld_of_exOp h (exec_vplwr f) (by simpa [hm'] using hv) (by simp only [hm', Bool.false_eq_true, if_false]; rfl)
      (writesPlanes_planeWrite le_rfl (by simp) fun k hk => ?_)
    dsimp only
    rw [hi hm, hlane k hk.1, sextN_eq_toInt (by decide)]
    rfl

/-! ## Adding into a plane (R41, R212) -/

/-- The signed digits `d 0` to `d (n − 1)` as an integer, highest first. -/
def digitsInt (n : Nat) (d : Nat → Nat) : ℤ := ((List.range n).map fun j => (BitVec.ofNat 4 (d j)).toInt * (16 : ℤ) ^ (n - 1 - j)).sum

theorem planeVal_eq_digitsInt (n p : Nat) : planeVal true n p = digitsInt n fun j => p / 16 ^ (n - 1 - j) % 16 := by
  rw [planeVal_eq_sum]
  simp only [digitsInt, ← ofNat_four_mod]

theorem digitsInt_congr {n : Nat} {d d' : Nat → Nat} (h : ∀ j, j < n → d j = d' j) : digitsInt n d = digitsInt n d' :=
  congrArg List.sum (List.map_congr_left fun j hj => by rw [h j (List.mem_range.mp hj)])

theorem planeVal_packed {d : Nat → Nat} (hd : ∀ i, d i < 16) (n : Nat) : planeVal true n (packed d n) = digitsInt n d := by
  rw [planeVal_eq_digitsInt]
  exact digitsInt_congr fun j hj => packed_digit hd hj

/-- The ends of the range of `n` planes. -/
theorem planeLo_eq (n : Nat) : planeLo true n = -8 * ((List.range n).map fun i => (16 : ℤ) ^ i).sum := by
  rw [planeLo, if_pos rfl, ones_eq_sum]
theorem planeHi_eq (n : Nat) : planeHi true n = 7 * ((List.range n).map fun i => (16 : ℤ) ^ i).sum := by
  rw [planeHi, if_pos rfl, ones_eq_sum]

theorem planeLo_le_planeHi (n : Nat) : planeLo true n ≤ planeHi true n := by
  simp only [planeLo, planeHi, if_true]
  omega

/-- An addition into plane `j` gives the first `j + 1` digits of the sum, or of the end of the range it passes, with SA. -/
theorem bpPladd_spec {d : Nat → Nat} (hd : ∀ i, d i < 16) {s n : Nat} (hn : 1 ≤ n) (hns : n ≤ s) (delta : ℤ) :
    (digitsInt n fun i => (bpPladd s (n - 1) (packed d s) delta).1 / 16 ^ (s - 1 - i) % 16) =
      satI (digitsInt n d + delta) (planeLo true n) (planeHi true n) ∧
    (bpPladd s (n - 1) (packed d s) delta).2 =
      if planeLo true n ≤ digitsInt n d + delta ∧ digitsInt n d + delta ≤ planeHi true n then 0 else flSA := by
  obtain ⟨m, rfl⟩ : ∃ m, s = n + m := ⟨s - n, by omega⟩
  have hu : planeVal true n (packed d (n + m) / 16 ^ m) = digitsInt n d := by rw [packed_div hd, planeVal_packed hd]
  have hlow : n + m - 1 - (n - 1) = m := by omega
  unfold bpPladd
  dsimp only
  rw [hlow, Nat.sub_add_cancel hn, hu]
  generalize digitsInt n d + delta = u
  have hle := planeLo_le_planeHi n
  refine ⟨?_, ?_⟩
  · have hsat : planeLo true n ≤ satI u (planeLo true n) (planeHi true n) ∧ satI u (planeLo true n) (planeHi true n) ≤ planeHi true n := by
      unfold satI
      split_ifs <;> omega
    refine Eq.trans (digitsInt_congr fun i hi => ?_) ((planeVal_eq_digitsInt ..).symm.trans (planeVal_packDigits hsat.1 hsat.2))
    have hpos : 0 < 16 ^ m := by positivity
    rw [show n + m - 1 - i = m + (n - 1 - i) by omega, Nat.pow_add, ← Nat.div_div_eq_div_mul, Nat.add_comm,
      Nat.add_mul_div_right _ _ hpos, Nat.div_eq_of_lt (Nat.mod_lt _ hpos), Nat.zero_add]
  · by_cases h : planeLo true n ≤ u ∧ u ≤ planeHi true n
    · have h1 : ¬ u < planeLo true n := by omega
      have h2 : ¬ planeHi true n < u := by omega
      simp [h, h1, h2, flagIf]
    · have h1 : u < planeLo true n ∨ planeHi true n < u := by omega
      simp [h, h1, flagIf]

/-- SA of a clamped delta beside SA of a clamped sum. -/
theorem flags_or_clamped {fl : FlagSet} {p : Prop} [Decidable p] (h : fl = if p then 0 else flSA) {dl x : ℤ} :
    fl ||| flagIf (dl != x) flSA = if dl = x ∧ p then 0 else flSA := by
  by_cases hp : p <;> by_cases hx : dl = x <;> simp [h, hp, hx, flagIf]

/-- R212: `vpladd`. -/
theorem vpladd_completes {s : State} {e : ExIn} {f : IForm} {sp p n d a : Nat} (h : slotReads s e) (hp : (sp, p, n) = planesOf f)
    (hd : d = e.view f.d f.x) (ha : a = e.view f.a f.x) (hv : viewsOk e [d, a]) (hwf : (Instr.vpladd f).wf = true) :
    completesHeld s e (.vpladd f) 0 fun o =>
      let x (k : Nat) : Int := (lane32 e a k).toInt
      let dl (k : Nat) : Int := if x k < -8 then -8 else if 7 < x k then 7 else x k
      let ones : Int := ((List.range n).map fun i => (16 : Int) ^ i).sum
      let u (k : Nat) : Int := digitsInt n (nib e d sp (64 * p + k)) + dl k
      ∃ (new : Nat → Nat) (fl : Nat → FlagSet), writesPlanes e o d sp n p f.q False new fl ∧ ∀ k, maskBit e f.q k →
        digitsInt n (fun j => new k / 16 ^ (sp - 1 - j) % 16) = (if u k < -8 * ones then -8 * ones else if 7 * ones < u k then 7 * ones else u k) ∧
        fl k = if dl k = x k ∧ -8 * ones ≤ u k ∧ u k ≤ 7 * ones then 0 else flSA := by
  obtain ⟨rfl, rfl, rfl⟩ : sp = (layOf (f.imm.toNat / 8)).1 ∧ p = (layOf (f.imm.toNat / 8)).2 ∧ n = f.imm.toNat / 2 % 4 + 1 := by
    simpa [planesOf] using hp
  subst hd ha
  have hn : f.imm.toNat / 2 % 4 + 1 ≤ (layOf (f.imm.toNat / 8)).1 := by
    have : vpladdOk f.imm = true := hwf
    simp only [vpladdOk, Bool.and_eq_true, decide_eq_true_eq] at this
    exact this.2
  refine completesHeld_of_exOp h (exec_vpladd f) hv rfl ⟨_, _, writesPlanes_planeWrite hn (by simp) fun k _ => rfl, fun k hk => ?_⟩
  have hlane : (lanesOf 4 (e.vec (e.view f.a f.x))).getD k 0 = elem e (e.view f.a f.x) 4 k := by
    rw [lanesOf_vec]
    simp [List.getD_eq_getElem?_getD, hk.1]
  obtain ⟨hsum, hfl⟩ := bpPladd_spec (nib_lt e (e.view f.d f.x) (layOf (f.imm.toNat / 8)).1 (64 * (layOf (f.imm.toNat / 8)).2 + k))
    (Nat.le_add_left 1 (f.imm.toNat / 2 % 4)) hn (satI (lane32 e (e.view f.a f.x) k).toInt (-8) 7)
  have hk64 := hk.1
  dsimp only
  rw [hlane, sextN_eq_toInt (by decide), elemDigits_vec fun j hj => plane_in_view f.imm (by omega) hj, ← planeLo_eq, ← planeHi_eq]
  exact ⟨hsum, flags_or_clamped hfl⟩

theorem planeWriteValues : Claims.PlaneWriteValues :=
  fun _ _ _ _ _ _ _ _ h hp hd ha hv => ⟨fun _ hf hi => vplwr_completes h hp hd ha hv hf hi, vpladd_completes h hp hd ha hv⟩

/-! ## The second port (R43, R213) -/

/-- Where every write to an address writes one byte, and there is one, the address has it. -/
theorem memGet_memScatter_const {l : List (Nat × Byte)} {a : Nat} {v : Byte} (hl : ∀ c ∈ l, c.1 = a → c.2 = v) (m : Mem)
    (h : memGet m a = v ∨ ∃ c ∈ l, c.1 = a) : memGet (memScatter m l) a = v := by
  induction l generalizing m with
  | nil => simpa [memScatter] using h
  | cons c r ih =>
    have hr : ∀ c ∈ r, c.1 = a → c.2 = v := fun d hd => hl d (List.mem_cons_of_mem _ hd)
    refine ih hr (memPut m c.1 c.2) ?_
    by_cases hc : c.1 = a
    · exact .inl (by rw [hc, memGet_memPut_same, hl c List.mem_cons_self hc])
    · rcases h with h | ⟨d, hd, hda⟩
      · exact .inl (by rw [memGet_memPut_ne _ _ (Ne.symm hc), h])
      · rcases List.mem_cons.mp hd with rfl | hd
        · exact absurd hda hc
        · exact .inr ⟨d, hd, hda⟩

theorem tabGet_of_find? {α : Type} {d : α} {t : Tab α} {a : Nat} {w : α} (h : t.find? (fun c => c.1 == a) = some (a, w)) : tabGet d t a = w := by
  induction t with
  | nil => cases h
  | cons c r ih =>
    obtain ⟨j, u⟩ := c
    rw [List.find?_cons] at h
    by_cases hj : j = a
    · simp only [hj, beq_self_eq_true, Option.some.injEq, Prod.mk.injEq] at h
      simp [tabGet, hj, h.2]
    · simp only [beq_eq_false_iff_ne.mpr hj] at h
      simp [tabGet, hj, ih h]

/-- The second port's writes of this clock to bytes that a plane write will write. -/
def claimedWrites (x : Context) (clk : Nat) (o : InFlight) : List (Nat × Byte) :=
  (x.noteAt clk).prior.filter fun c => !(x.noteAt clk).exw.contains c.1 && o.bytes.any fun b => b.1 == c.1

/-- The second port's writes of this clock to the blocks of those bytes. -/
def takenBack (x : Context) (clk : Nat) (o : InFlight) : List (Nat × Byte) :=
  (x.noteAt clk).prior.filter fun c =>
    !(x.noteAt clk).exw.contains c.1 && ((claimedWrites x clk o).map fun c => c.1 / 64).contains (c.1 / 64)

theorem claim_eq (x : Context) (clk : Nat) (o : InFlight) : x.claim clk o =
    if !o.hold || ((claimedWrites x clk o).map fun c => c.1 / 64).isEmpty then x
    else { x with pool := memScatter x.pool (takenBack x clk o),
                  ex := { x.ex with held := x.ex.held ++ (takenBack x clk o).map fun c =>
                    ⟨c.1, memGet x.pool c.1, tabGet .mx (x.noteAt clk).second c.1⟩ } } := rfl

theorem planeWritesClaimBlocks : Claims.PlaneWritesClaimBlocks := by
  intro x clk o
  refine ⟨?_, fun a v b hh hb hv hne hall => ?_, fun a ha => ?_⟩
  · rintro (h | h) <;> simp [Context.claim, h]
  · have hclaimed : (a, v) ∈ claimedWrites x clk o := by
      refine List.mem_filter.mpr ⟨hv, ?_⟩
      simp only [Bool.and_eq_true, Bool.not_eq_true', List.contains_eq_mem, decide_eq_false_iff_not, List.any_eq_true, beq_iff_eq]
      exact ⟨hne, (a, b), hb, rfl⟩
    have hback : (a, v) ∈ takenBack x clk o := by
      refine List.mem_filter.mpr ⟨hv, ?_⟩
      simp only [Bool.and_eq_true, Bool.not_eq_true', List.contains_eq_mem, decide_eq_false_iff_not, decide_eq_true_eq, List.mem_map]
      exact ⟨hne, (a, v), hclaimed, rfl⟩
    have hne' : ¬ (!o.hold || ((claimedWrites x clk o).map fun c => c.1 / 64).isEmpty) = true := by
      simp [hh, List.ne_nil_of_mem hclaimed]
    rw [claim_eq, if_neg hne']
    refine ⟨memGet_memScatter_const (fun c hc => hall c (List.mem_filter.mp hc).1) _ (.inr ⟨_, hback, rfl⟩), ?_⟩
    exact ⟨_, List.mem_append_right _ (List.mem_map_of_mem hback), rfl, rfl, fun w hw => tabGet_of_find? hw⟩
  · rw [claim_eq]
    split_ifs
    · rfl
    · exact memGet_memScatter_ne _ _ _ fun c hc hca => ha c.2 (hca ▸ (List.mem_filter.mp hc).1)

/-! ## Held writes (R43, R213, R239) -/

/-- The blocks of held writes that a plane write still bars. -/
def barredHeld (x : Context) : List Nat := (x.ex.held.filter fun h => x.heldByte h.addr).map fun h => h.addr / 64

/-- The held writes that land. -/
def landing (x : Context) : List HeldWrite := x.ex.held.filter fun h => !(barredHeld x).contains (h.addr / 64)

theorem landHeld_eq (x : Context) (clk : Nat) : x.landHeld clk = if (landing x).isEmpty then x else
    { x with
      pool := memScatter x.pool ((landing x).map fun h => (h.addr, h.byte)),
      ex := { x.ex with held := x.ex.held.filter fun h => (barredHeld x).contains (h.addr / 64) },
      cp := { x.cp with runs := x.cp.runs.map fun r => if (landing x).any fun h => h.src == .cp r.num then { r with wclk := clk } else r },
      note := x.notePrior clk [] ((landing x).map fun h => (h.addr, h.src)) } := rfl

theorem mem_barredHeld {x : Context} {k : Nat} : k ∈ barredHeld x ↔ ∃ g ∈ x.ex.held, g.addr / 64 = k ∧ x.heldByte g.addr = true := by
  simp only [barredHeld, List.mem_map, List.mem_filter, and_assoc, and_comm (a := x.heldByte _ = true)]

theorem heldWritesLand : Claims.HeldWritesLand := by
  intro x clk h hm hall
  rw [landHeld_eq]
  refine ⟨fun hfree => ?_, fun hbar => ?_⟩
  · have hnot : h.addr / 64 ∉ barredHeld x := fun hb => by
      obtain ⟨g, hg, hga, hgb⟩ := mem_barredHeld.mp hb
      simp [hfree g hg hga] at hgb
    have hland : h ∈ landing x := List.mem_filter.mpr ⟨hm, by simpa using hnot⟩
    rw [if_neg (by simp [List.ne_nil_of_mem hland])]
    refine ⟨memGet_memScatter_const ?_ _ (.inr ⟨_, List.mem_map_of_mem hland, rfl⟩), fun hin => ?_, fun r k hsrc hr => ?_⟩
    · intro c hc hca
      obtain ⟨g, hg, rfl⟩ := List.mem_map.mp hc
      exact hall g (List.mem_filter.mp hg).1 hca
    · exact hnot (by simpa using (List.mem_filter.mp hin).2)
    · have hany : ((landing x).any fun g => g.src == .cp r.num) = true := List.any_eq_true.mpr ⟨h, hland, by simp [hsrc]⟩
      simp only [List.getElem?_map, hr, Option.map_some, hany, if_true]
  · split_ifs
    · exact hm
    · exact List.mem_filter.mpr ⟨hm, by simpa using mem_barredHeld.mpr hbar⟩

/-- Settles O24, from the values of plane reads and writes and the rules of the second port. -/
theorem planesReadAndWrite : Obligations.PlanesReadAndWrite := by
  unfold Obligations.PlanesReadAndWrite
  exact ⟨planeReadValues, planeWriteValues, planeWritesClaimBlocks, heldWritesLand⟩

end Sys2Proof.Proofs


/-! The consistency rules (R73 to R87). In a sequential execution every order of R86 runs from an earlier event to a later one, and
a byte's coherence order is the order of its events; each condition of R86 then compares places in the list. -/

namespace Sys2Proof.Proofs
open Sys2Proof.Machine Sys2Proof.Claims Sys2Proof.Consistency

/-! ## The events of an execution -/

theorem ev_of_le {x : Execution} {i : Nat} (h : x.evs.length ≤ i) :
    x.ev i = ⟨.outside, .other, false, false, 0, 0, [], none, none, none, false, 0⟩ := by
  simp [Execution.ev, List.getElem?_eq_none h]

theorem lt_of_mem_writes {x : Execution} {i b : Nat} (h : b ∈ (x.ev i).writes) : i < x.evs.length := by
  by_contra hi
  simp [ev_of_le (Nat.le_of_not_lt hi), Ev.writes] at h

theorem lt_of_wheel {x : Execution} {i c : Nat} (h : (x.ev i).kind = .wheel c) : i < x.evs.length := by
  by_contra hi
  simp [ev_of_le (Nat.le_of_not_lt hi)] at h

theorem lt_of_po {x : Execution} {a b : Nat} (h : x.po a b = true) : a < b := by
  simp only [Execution.po, Bool.and_eq_true, decide_eq_true_eq] at h
  exact h.1

theorem contains_writes (evs : List Ev) (b n : Nat) :
    ((evs[n]?).map fun e => e.writes.contains b).getD false = ((sequential evs).ev n).writes.contains b := by
  simp only [Execution.ev, sequential, List.getD_eq_getElem?_getD]
  cases evs[n]? <;> simp [Ev.writes]

/-! ## The sequential execution -/

section
variable {evs : List Ev}

theorem lastWrite_sound {b n w : Nat} (h : lastWrite evs b n = some w) : w < n ∧ b ∈ ((sequential evs).ev w).writes := by
  induction n with
  | zero => simp [lastWrite] at h
  | succ n ih =>
    rw [lastWrite, contains_writes] at h
    split at h
    next hw => cases h; exact ⟨Nat.lt_succ_self _, List.contains_iff_mem.mp hw⟩
    next => exact ⟨Nat.lt_succ_of_lt (ih h).1, (ih h).2⟩

theorem le_lastWrite {b n v : Nat} (hv : v < n) (hb : b ∈ ((sequential evs).ev v).writes) :
    ∃ w, lastWrite evs b n = some w ∧ v ≤ w := by
  induction n with
  | zero => omega
  | succ n ih =>
    rw [lastWrite, contains_writes]
    split
    next => exact ⟨n, rfl, by omega⟩
    next hn =>
      refine ih (lt_of_le_of_ne (Nat.le_of_lt_succ hv) ?_)
      rintro rfl
      exact hn (List.contains_iff_mem.mpr hb)

theorem src_sequential {r b : Nat} (hr : b ∈ ((sequential evs).ev r).reads) :
    (sequential evs).src r b = lastWrite evs b r := by
  have hlt : r < evs.length := by
    by_contra h
    rw [ev_of_le (x := sequential evs) (Nat.le_of_not_lt h)] at hr
    simp [Ev.reads] at hr
  have hev : (sequential evs).ev r = evs[r] := by simp [Execution.ev, sequential, hlt]
  have hmem : ((r, b), lastWrite evs b r) ∈ (sequential evs).rf := by
    simp only [sequential, List.mem_flatMap, List.mem_map, List.mem_range]
    exact ⟨r, hlt, b, by simpa [hlt, hev] using hr, rfl⟩
  unfold Execution.src
  cases hf : (sequential evs).rf.find? fun p => p.1 == (r, b) with
  | none => simpa using List.find?_eq_none.mp hf _ hmem
  | some q =>
    have hq := List.find?_some hf
    have hin := List.mem_of_find?_eq_some hf
    simp only [sequential, List.mem_flatMap, List.mem_map, List.mem_range] at hin
    obtain ⟨i, -, c, -, rfl⟩ := hin
    simp only [beq_iff_eq, Prod.mk.injEq] at hq
    obtain ⟨rfl, rfl⟩ := hq
    rfl

theorem order_sequential (b : Nat) :
    (sequential evs).order b = (List.range evs.length).filter fun i => ((sequential evs).ev i).writes.contains b := by
  simp only [Execution.order, ← contains_writes]
  cases hf : (sequential evs).co.find? fun p => p.1 == b with
  | some q =>
    have hq := List.find?_some hf
    have hin := List.mem_of_find?_eq_some hf
    simp only [sequential, List.mem_map] at hin
    obtain ⟨c, -, rfl⟩ := hin
    simp only [beq_iff_eq] at hq
    subst hq
    rfl
  | none =>
    symm
    simp only [Option.map_none, Option.getD_none, List.filter_eq_nil_iff, contains_writes, List.contains_iff_mem]
    intro i hi hb
    have hi : i < evs.length := List.mem_range.mp hi
    have hev : (sequential evs).ev i = evs[i] := by simp [Execution.ev, sequential, hi]
    have hmem : b ∈ evs.flatMap (·.writes) := List.mem_flatMap.mpr ⟨evs[i], List.getElem_mem hi, hev ▸ hb⟩
    simpa using List.find?_eq_none.mp hf _ (List.mem_map_of_mem hmem)

theorem mem_order {b j : Nat} : j ∈ (sequential evs).order b ↔ b ∈ ((sequential evs).ev j).writes := by
  rw [order_sequential, List.mem_filter, List.contains_iff_mem, List.mem_range]
  exact ⟨fun h => h.2, fun h => ⟨lt_of_mem_writes h, h⟩⟩

/-- What stands behind `i` in a list of rising numbers. -/
theorem mem_tail_dropWhile {l : List Nat} (hl : l.Pairwise (· < ·)) (i j : Nat) :
    j ∈ (l.dropWhile (· != i)).tail ↔ i ∈ l ∧ j ∈ l ∧ i < j := by
  induction l with
  | nil => simp
  | cons a l ih =>
    obtain ⟨ha, hl⟩ := List.pairwise_cons.mp hl
    by_cases hai : a = i
    · subst hai
      simp only [bne_self_eq_false, List.dropWhile_cons, Bool.false_eq_true, if_false, List.tail_cons, List.mem_cons, true_or,
        true_and]
      exact ⟨fun h => ⟨.inr h, ha j h⟩, fun ⟨h, hlt⟩ => h.resolve_left (by omega)⟩
    · rw [List.dropWhile_cons_of_pos (by simpa using hai), ih hl]
      simp only [List.mem_cons, Ne.symm hai, false_or]
      refine and_congr_right fun hi => ⟨fun ⟨h, hlt⟩ => ⟨.inr h, hlt⟩, fun ⟨h, hlt⟩ => ⟨h.resolve_left ?_, hlt⟩⟩
      have := ha i hi
      omega

theorem before_sequential {b i j : Nat} : (sequential evs).before b (some i) (some j) = true ↔
    b ∈ ((sequential evs).ev i).writes ∧ b ∈ ((sequential evs).ev j).writes ∧ i < j := by
  rw [Execution.before, List.contains_iff_mem, mem_tail_dropWhile, mem_order, mem_order]
  rw [order_sequential]
  exact List.pairwise_lt_range.filter _

/-- What a read returns stands before it. -/
theorem src_lt {r b w : Nat} (hr : b ∈ ((sequential evs).ev r).reads) (hw : (sequential evs).src r b = some w) :
    w < r ∧ b ∈ ((sequential evs).ev w).writes :=
  lastWrite_sound (src_sequential hr ▸ hw)

/-- A read misses no write that stands before it. -/
theorem not_before_src {r b v : Nat} (hr : b ∈ ((sequential evs).ev r).reads) (hv : v < r) :
    (sequential evs).before b ((sequential evs).src r b) (some v) = false := by
  rw [src_sequential hr, Bool.eq_false_iff]
  intro hbef
  have hb : b ∈ ((sequential evs).ev v).writes := by
    cases hw : lastWrite evs b r with
    | none => rw [hw, Execution.before, List.contains_iff_mem] at hbef; exact mem_order.mp hbef
    | some w => rw [hw] at hbef; exact (before_sequential.mp hbef).2.1
  obtain ⟨w, hw, hvw⟩ := le_lastWrite hv hb
  rw [hw, before_sequential] at hbef
  omega

/-- A later read returns no earlier write than an earlier one. -/
theorem not_before_src_src {i j b : Nat} (hi : b ∈ ((sequential evs).ev i).reads) (hj : b ∈ ((sequential evs).ev j).reads)
    (hij : i < j) : (sequential evs).before b ((sequential evs).src j b) ((sequential evs).src i b) = false := by
  cases hw : (sequential evs).src i b with
  | none => cases (sequential evs).src j b <;> rfl
  | some w => exact not_before_src hj ((src_lt hi hw).1.trans hij)

theorem before_src_self {r b : Nat} (hr : b ∈ ((sequential evs).ev r).reads) (hw : b ∈ ((sequential evs).ev r).writes) :
    (sequential evs).before b ((sequential evs).src r b) (some r) = true := by
  cases hs : (sequential evs).src r b with
  | none => exact List.contains_iff_mem.mpr (mem_order.mpr hw)
  | some w => exact before_sequential.mpr ⟨(src_lt hr hs).2, hw, (src_lt hr hs).1⟩

/-! ## Every order of R86 goes forward -/

/-- What `forward` says of two events. -/
theorem forward_spec (h : forward evs = true) {i j : Nat} (hi : i < evs.length) (hj : j < evs.length) :
    (∀ p, ((sequential evs).ev i).pushed = some p → p < i) ∧
    ((sequential evs).after j i = true → j < i) ∧
    (∀ s paths, ((sequential evs).ev i).kind = .fenceX s paths →
      (sequential evs).drainedBy paths i j = true ∨ (sequential evs).seenBy paths i j = true → j < i) ∧
    ∀ c d, ((sequential evs).ev j).kind = .wheel c → ((sequential evs).ev i).kind = .wheel d → j < i → c ≤ d := by
  have hi' := List.all_eq_true.mp h i (List.mem_range.mpr hi)
  simp only [Bool.and_eq_true] at hi'
  obtain ⟨⟨-, hpush⟩, hall⟩ := hi'
  have hj' := List.all_eq_true.mp hall j (List.mem_range.mpr hj)
  simp only [Bool.and_eq_true] at hj'
  obtain ⟨⟨hafter, hfence⟩, hwheel⟩ := hj'
  refine ⟨fun p hp => ?_, fun ha => ?_, fun s paths hk hd => ?_, fun c d hc hd hlt => ?_⟩
  · simpa [hp] using hpush
  · simpa [ha] using hafter
  · simp only [hk, Bool.or_eq_true, Bool.not_eq_true', Bool.or_eq_false_iff, decide_eq_true_eq] at hfence
    rcases hfence with ⟨h1, h2⟩ | hlt
    · simp [h1, h2] at hd
    · exact hlt
  · simpa [hc, hd, hlt] using hwheel

theorem lt_of_wheels (h : forward evs = true) {i j c d : Nat} (hi : ((sequential evs).ev i).kind = .wheel c)
    (hj : ((sequential evs).ev j).kind = .wheel d) (hcd : c < d) : i < j := by
  rcases Nat.lt_trichotomy i j with hlt | rfl | hgt
  · exact hlt
  · rw [hi, Kind.wheel.injEq] at hj; omega
  · have := (forward_spec h (lt_of_wheel hi) (lt_of_wheel hj)).2.2.2 d c hj hi hgt
    omega

theorem lt_of_mem_ordered {x : Execution} {a b : Nat} {s : Scope} (hs : s ∈ x.ordered a b) : a < b := by
  simp only [Execution.ordered] at hs
  split at hs
  · simp at hs
  next hpo => exact lt_of_po (by simpa using hpo)

theorem lt_of_mem_fenced (h : forward evs = true) {a b : Nat} (ha : a < evs.length) (hb : b < evs.length) {s : Scope}
    (hs : s ∈ (sequential evs).fenced a b) : a < b := by
  simp only [Execution.fenced, List.mem_flatMap, List.mem_range] at hs
  obtain ⟨k, hk, hs⟩ := hs
  split at hs
  case h_2 => simp at hs
  next t paths hkind =>
  simp only [List.mem_ite_nil_right, Bool.or_eq_true, Bool.and_eq_true] at hs
  obtain ⟨hor, -⟩ := hs
  have hak : a < k := by
    refine (forward_spec h hk ha).2.2.1 t paths hkind ?_
    rcases hor with ⟨hd, -⟩ | ⟨hd, -⟩
    · exact .inl hd
    · exact .inr hd
  have hafter : (sequential evs).po k b = true ∨
      (match ((sequential evs).ev b).pushed with | some p => decide (k < p) | none => false) = true := by
    rcases hor with ⟨-, hp | ⟨-, -, hp⟩⟩ | ⟨-, hp | ⟨-, hp⟩⟩
    · exact .inl hp
    · exact .inr hp
    · exact .inl hp
    · exact .inr hp
  rcases hafter with hpo | hp
  · exact hak.trans (lt_of_po hpo)
  · cases hpush : ((sequential evs).ev b).pushed with
    | none => simp [hpush] at hp
    | some p =>
      rw [hpush, decide_eq_true_eq] at hp
      have := (forward_spec h hb ha).1 p hpush
      omega

theorem lt_of_mem_others (h : forward evs = true) {a b : Nat} (ha : a < evs.length) (hb : b < evs.length) {s : Scope}
    (hs : s ∈ (sequential evs).others a b) : a < b := by
  simp only [Execution.others, List.mem_append] at hs
  rcases hs with (hrel | hpush) | hwheel
  · split at hrel
    · split at hrel
      next hafter => exact (forward_spec h hb ha).2.1 hafter
      next => simp at hrel
    · simp at hrel
  · split at hpush
    next p hp =>
      split at hpush
      next hc =>
        simp only [Bool.and_eq_true] at hc
        obtain ⟨⟨⟨-, hpo⟩, -⟩, -⟩ := hc
        exact (lt_of_po hpo).trans ((forward_spec h hb ha).1 p hp)
      next => simp at hpush
    · simp at hpush
  · split at hwheel
    next c d hc hd =>
      split at hwheel
      next hcd => exact lt_of_wheels h hc hd hcd
      next => simp at hwheel
    · simp at hwheel

theorem lt_of_syncs {obs : List Agent} {a b : Nat} (hs : (sequential evs).syncs obs a b = true) : a < b := by
  simp only [Execution.syncs] at hs
  split at hs
  next =>
    simp only [Bool.and_eq_true, List.any_eq_true] at hs
    obtain ⟨-, c, hc, -, hsrc⟩ := hs
    split at hsrc
    next w hw =>
      have hwb := (src_lt hc hw).1
      simp only [Bool.or_eq_true, Bool.and_eq_true, beq_iff_eq, before_sequential] at hsrc
      rcases hsrc with rfl | ⟨⟨-, -, haw⟩, -⟩
      · exact hwb
      · exact haw.trans hwb
    next => simp at hsrc
  next => simp at hs

theorem lt_of_edge (h : forward evs = true) {obs : List Agent} {a b : Nat} (ha : a < evs.length) (hb : b < evs.length)
    (he : (sequential evs).edge obs a b = true) : a < b := by
  simp only [Execution.edge, Bool.or_eq_true, List.any_eq_true, List.mem_append] at he
  rcases he with ⟨s, (ho | hf) | ho, -⟩ | hs
  · exact lt_of_mem_ordered ho
  · exact lt_of_mem_fenced h ha hb hf
  · exact lt_of_mem_others h ha hb ho
  · exact lt_of_syncs hs

theorem lt_of_chain (h : forward evs = true) {obs : List Agent} {n a b : Nat} (ha : a < evs.length) (hb : b < evs.length)
    (hc : (sequential evs).chain obs n a b = true) : a < b := by
  induction n generalizing a with
  | zero => exact lt_of_edge h ha hb hc
  | succ n ih =>
    simp only [Execution.chain, Bool.or_eq_true, List.any_eq_true, List.mem_range, Bool.and_eq_true] at hc
    rcases hc with he | ⟨c, hclt, he, hcb⟩
    · exact lt_of_edge h ha hb he
    · exact (lt_of_edge h ha hclt he).trans (ih hclt hcb)

/-- Happens-before goes forward. -/
theorem lt_of_hb (h : forward evs = true) {obs : List Agent} {a b : Nat} (ha : a < evs.length) (hb : b < evs.length)
    (hh : (sequential evs).hb obs a b = true) : a < b :=
  lt_of_chain h ha hb hh

/-! ## The conditions of R86 -/

theorem sequential_shaped : (sequential evs).shaped = true := by
  simp only [Execution.shaped, List.all_eq_true, Bool.and_eq_true]
  refine fun i hi => ⟨fun b hb => ?_, fun b hb => ?_⟩
  · cases hw : (sequential evs).src i b with
    | none => rfl
    | some w =>
      obtain ⟨hlt, hwb⟩ := src_lt hb hw
      simpa using ⟨hlt.ne, hwb⟩
  · have hnodup : ((sequential evs).order b).Nodup := by
      rw [order_sequential]; exact List.nodup_range.filter _
    rw [beq_iff_eq, List.filter_beq, List.count_eq_one_of_mem hnodup (mem_order.mpr hb)]
    rfl

theorem sequential_coherent : (sequential evs).coherent = true := by
  have hlt : ∀ {i j}, (sequential evs).inOrder i j = true → i < j := fun h => by
    simp only [Execution.inOrder, Bool.and_eq_true] at h
    exact lt_of_po h.1
  simp only [Execution.coherent, List.all_eq_true, Bool.and_eq_true]
  refine fun i hi j hj => ⟨fun b hb => ?_, fun b hb => ⟨⟨?_, ?_⟩, ?_⟩⟩
  · rw [Bool.or_eq_true, before_sequential, Bool.not_eq_true', Bool.eq_false_iff, ← imp_iff_not_or, Bool.and_eq_true,
      List.contains_iff_mem]
    exact fun ⟨ho, hw⟩ => ⟨hb, hw, hlt ho⟩
  · rw [Bool.or_eq_true, Bool.not_eq_true', Bool.eq_false_iff, ← imp_iff_not_or, Bool.and_eq_true, Bool.and_eq_true]
    rintro ⟨ho, -⟩
    have hij := hlt ho
    cases hw : (sequential evs).src i b with
    | none => exact ⟨rfl, rfl⟩
    | some w =>
      have hwi := (src_lt hb hw).1
      refine ⟨by simp; omega, ?_⟩
      rw [Bool.not_eq_true', Bool.eq_false_iff, Ne, before_sequential]
      omega
  · rw [Bool.or_eq_true, Bool.not_eq_true', Bool.eq_false_iff, ← imp_iff_not_or, Bool.and_eq_true, List.contains_iff_mem]
    rintro ⟨ho, hr⟩
    simp [not_before_src_src hb hr (lt_of_po ho)]
  · rw [Bool.or_eq_true, Bool.not_eq_true', Bool.eq_false_iff, ← imp_iff_not_or, List.contains_iff_mem]
    intro hw
    refine Bool.and_eq_true _ _ ▸ ⟨before_src_self hb hw, ?_⟩
    rw [Bool.not_eq_true', Bool.eq_false_iff, Ne, Bool.and_eq_true, before_sequential]
    rintro ⟨hbef, -, -, hji⟩
    exact absurd hbef (by simp [not_before_src hb hji])

theorem sequential_fresh (h : forward evs = true) : (sequential evs).fresh = true := by
  simp only [Execution.fresh, List.all_eq_true, Bool.and_eq_true]
  refine fun r hr b hb => ⟨?_, fun v hv => ?_⟩
  · cases hw : (sequential evs).src r b with
    | none => rfl
    | some w =>
      obtain ⟨hlt, hwb⟩ := src_lt hb hw
      rw [Bool.not_eq_true', Bool.eq_false_iff]
      intro hh
      have := lt_of_hb h (List.mem_range.mp hr) (lt_of_mem_writes hwb) hh
      omega
  · rw [Bool.or_eq_true, Bool.not_eq_true', Bool.eq_false_iff, ← imp_iff_not_or, Bool.and_eq_true, Bool.not_eq_true',
      Bool.eq_false_iff]
    rintro ⟨-, hbef⟩ hh
    have hvr := lt_of_hb h (List.mem_range.mp hv) (List.mem_range.mp hr) hh
    exact absurd hbef (by simp [not_before_src hb hvr])

theorem sequential_wheelOrder (h : forward evs = true) : (sequential evs).wheelOrder = true := by
  simp only [Execution.wheelOrder, List.all_eq_true]
  intro i hi j hj
  split
  next c d hc hd =>
    rw [Bool.or_eq_true, Bool.not_eq_true', decide_eq_false_iff_not, ← imp_iff_not_or, List.all_eq_true]
    intro hcd b hb
    rw [Bool.not_eq_true', Bool.eq_false_iff, Ne, Bool.and_eq_true, List.contains_iff_mem]
    rintro ⟨hr, hbef⟩
    exact absurd hbef (by simp [not_before_src_src hb hr (lt_of_wheels h hc hd hcd)])
  next => rfl

theorem sequential_atomic : (sequential evs).atomic = true := by
  simp only [Execution.atomic, Bool.and_eq_true, List.all_eq_true]
  refine ⟨fun r hr b hb c hc => ?_, fun w hw b hb c hc => ?_⟩
  · cases hs : (sequential evs).src r b with
    | none => simp
    | some w => simp [not_before_src hc (src_lt hb hs).1]
  · rw [Bool.or_eq_true]
    refine .inr (List.all_eq_true.mpr fun v hv => ?_)
    rw [Bool.or_eq_true, Bool.not_eq_true', Bool.eq_false_iff, ← imp_iff_not_or]
    simp only [Bool.and_eq_true, List.contains_iff_mem, before_sequential]
    exact fun ⟨⟨_, hvc⟩, _, _, hlt⟩ => ⟨hc, hvc, hlt⟩

end

theorem sequentialRunsAreAllowed : SequentialRunsAreAllowed := by
  intro evs h
  simp [Execution.allowed, sequential_shaped, sequential_coherent, sequential_fresh h, sequential_wheelOrder h, sequential_atomic]

end Sys2Proof.Proofs


/-! What no allowed execution does (R67, R74, R80, R85, R86): the conditions of R86 one by one, then the four shapes of the statement. -/

namespace Sys2Proof.Proofs
open Sys2Proof.Machine Sys2Proof.Claims Sys2Proof.Consistency

/-! ## What the conditions of R86 say of an execution -/

section
variable {x : Execution}

theorem lt_of_mem_reads {i b : Nat} (h : b ∈ (x.ev i).reads) : i < x.evs.length := by
  by_contra hi
  simp [ev_of_le (Nat.le_of_not_lt hi), Ev.reads] at h

theorem allowed_iff : x.allowed = true ↔
    x.shaped = true ∧ x.coherent = true ∧ x.fresh = true ∧ x.wheelOrder = true ∧ x.atomic = true := by
  simp only [Execution.allowed, Bool.and_eq_true, and_assoc]

theorem mem_writes_of_src (h : x.shaped = true) {r b w : Nat} (hb : b ∈ (x.ev r).reads) (hw : x.src r b = some w) :
    b ∈ (x.ev w).writes := by
  have hr := List.all_eq_true.mp h r (List.mem_range.mpr (lt_of_mem_reads hb))
  rw [Bool.and_eq_true] at hr
  have hs := List.all_eq_true.mp hr.1 b hb
  simp only [hw, Bool.and_eq_true, List.contains_iff_mem] at hs
  exact hs.2

/-- A write comes after the value before all writes. -/
theorem before_none (h : x.shaped = true) {i b : Nat} (hb : b ∈ (x.ev i).writes) : x.before b none (some i) = true := by
  have hi := List.all_eq_true.mp h i (List.mem_range.mpr (lt_of_mem_writes hb))
  rw [Bool.and_eq_true] at hi
  have ho := beq_iff_eq.mp (List.all_eq_true.mp hi.2 b hb)
  have hmem : i ∈ (x.order b).filter (· == i) := by rw [ho]; exact List.mem_singleton_self i
  exact List.contains_iff_mem.mpr (List.mem_filter.mp hmem).1

theorem read_not_older (h : x.coherent = true) {i j b : Nat} (hij : x.po i j = true) (hi : b ∈ (x.ev i).reads)
    (hj : b ∈ (x.ev j).reads) : x.before b (x.src j b) (x.src i b) = false := by
  have hc := List.all_eq_true.mp (List.all_eq_true.mp h i (List.mem_range.mpr (lt_of_mem_reads hi))) j
    (List.mem_range.mpr (lt_of_mem_reads hj))
  simp only [Bool.and_eq_true] at hc
  have hread := List.all_eq_true.mp hc.2 b hi
  simp only [Bool.and_eq_true] at hread
  obtain ⟨⟨-, hlater⟩, -⟩ := hread
  simpa [hij, hj] using hlater

/-- The agent of the write a read returns, if there is one. -/
def sourceAgent (x : Execution) : Option Nat → List Agent
  | some i => [(x.ev i).agent]
  | none => []

/-- Condition 2 of R86. -/
theorem read_not_missed (h : x.fresh = true) {r v b : Nat} (hb : b ∈ (x.ev r).reads) (hv : v < x.evs.length) (hvr : v ≠ r)
    (hh : x.hb ((x.ev r).agent :: (x.ev v).agent :: sourceAgent x (x.src r b)) v r = true) :
    x.before b (x.src r b) (some v) = false := by
  have hf := List.all_eq_true.mp (List.all_eq_true.mp h r (List.mem_range.mpr (lt_of_mem_reads hb))) b hb
  rw [Bool.and_eq_true] at hf
  have hf := List.all_eq_true.mp hf.2 v (List.mem_range.mpr hv)
  cases hw : x.src r b with
  | none =>
    rw [hw, sourceAgent] at hh
    simpa [hw, hvr, hh] using hf
  | some w =>
    rw [hw, sourceAgent] at hh
    simpa [hw, hvr, hh] using hf

/-- Condition 1 of R86. -/
theorem read_not_returned (h : x.fresh = true) {r w b : Nat} (hb : b ∈ (x.ev r).reads) (hw : x.src r b = some w) :
    x.hb [(x.ev r).agent, (x.ev w).agent] r w = false := by
  have hf := List.all_eq_true.mp (List.all_eq_true.mp h r (List.mem_range.mpr (lt_of_mem_reads hb))) b hb
  rw [Bool.and_eq_true] at hf
  simpa [hw] using hf.1

/-- Condition 3 of R86. -/
theorem wheel_not_older (h : x.wheelOrder = true) {i j c d b : Nat} (hi : (x.ev i).kind = .wheel c) (hj : (x.ev j).kind = .wheel d)
    (hcd : c < d) (hbi : b ∈ (x.ev i).reads) (hbj : b ∈ (x.ev j).reads) : x.before b (x.src j b) (x.src i b) = false := by
  have hw := List.all_eq_true.mp (List.all_eq_true.mp h i (List.mem_range.mpr (lt_of_mem_reads hbi))) j
    (List.mem_range.mpr (lt_of_mem_reads hbj))
  simp only [hi, hj, hcd, decide_true, Bool.not_true, Bool.false_or, List.all_eq_true] at hw
  simpa [hbj] using hw b hbi

/-- Condition 4 of R86, of a read. -/
theorem read_not_torn (h : x.atomic = true) {r w b c : Nat} (hb : b ∈ (x.ev r).reads) (hc : c ∈ (x.ev r).reads)
    (hr : (x.ev r).together b c = true) (hw : x.src r b = some w) (hwt : (x.ev w).together b c = true)
    (hwc : c ∈ (x.ev w).writes) : x.before c (x.src r c) (some w) = false := by
  rw [Execution.atomic, Bool.and_eq_true] at h
  have ha := List.all_eq_true.mp (List.all_eq_true.mp (List.all_eq_true.mp h.1 r (List.mem_range.mpr (lt_of_mem_reads hb))) b hb) c hc
  simpa [hr, hw, hwt, hwc] using ha

/-! ## Edges and chains -/

theorem chain_of_edge {obs : List Agent} {a b : Nat} (he : x.edge obs a b = true) (n : Nat) : x.chain obs n a b = true := by
  cases n <;> simp [Execution.chain, he]

theorem hb_of_edge {obs : List Agent} {a b : Nat} (he : x.edge obs a b = true) : x.hb obs a b = true :=
  chain_of_edge he _

theorem chain_cons {obs : List Agent} {n a b c : Nat} (hc : c < x.evs.length) (he : x.edge obs a c = true)
    (h : x.chain obs n c b = true) : x.chain obs (n + 1) a b = true := by
  simp only [Execution.chain, Bool.or_eq_true, List.any_eq_true, Bool.and_eq_true]
  exact .inr ⟨c, List.mem_range.mpr hc, he, h⟩

theorem edge_of_ordered {obs : List Agent} {a b : Nat} {s : Scope} (hs : s ∈ x.ordered a b)
    (ho : ∀ g ∈ obs, inScope s (x.ev a).agent g = true) : x.edge obs a b = true := by
  simp only [Execution.edge, Bool.or_eq_true, List.any_eq_true, List.mem_append, List.all_eq_true]
  exact .inl ⟨s, .inl (.inl hs), ho⟩

/-- The wheel's order (R85) counts for every outcome within the device. -/
theorem edge_of_wheels {obs : List Agent} {a b c d : Nat} (ha : (x.ev a).kind = .wheel c) (hb : (x.ev b).kind = .wheel d)
    (hcd : c < d) (hao : (x.ev a).agent ≠ .outside) (ho : ∀ g ∈ obs, g ≠ .outside) : x.edge obs a b = true := by
  simp only [Execution.edge, Bool.or_eq_true, List.any_eq_true, List.mem_append, List.all_eq_true]
  refine .inl ⟨.dev, .inr ?_, fun g hg => ?_⟩
  · simp [Execution.others, ha, hb, hcd]
  · simp [inScope, hao, ho g hg]

theorem mem_ordered_of_kinds {a b : Nat} {s : Scope} (hpo : x.po a b = true) (hsq : (x.ev a).isSq = true)
    (hs : s ∈ (x.ev a).kind.ordered (x.ev b).kind) : s ∈ x.ordered a b := by
  simp only [Execution.ordered, hpo, hsq, Bool.not_true, Bool.false_eq_true, if_false, List.mem_append]
  exact .inr (.inl hs)

end

/-! ## Scopes between engines -/

theorem inScope_self (s : Scope) (c : CtxId) (p : Nat) : inScope s (.eng c p) (.eng c p) = true := by
  cases s <;> simp [inScope]

theorem inScope_comm {s : Scope} {c d : CtxId} {p q : Nat} (h : inScope s (.eng c p) (.eng d q) = true) :
    inScope s (.eng d q) (.eng c p) = true := by
  cases s <;> simp_all [inScope]

/-! ## The bytes and units of the shapes' events -/

theorem mem_span {a n b : Nat} : b ∈ span a n ↔ a ≤ b ∧ b < a + n := by
  simp only [span, List.mem_map, List.mem_range]
  exact ⟨fun ⟨i, hi, he⟩ => by omega, fun h => ⟨b - a, by omega, by omega⟩⟩

theorem mem_reads_access (c : CtxId) (k : Kind) (a : Nat) : a ∈ (access c k false a).reads := by
  simp [Ev.reads, access, mem_span]

theorem mem_writes_access (c : CtxId) (k : Kind) (a : Nat) : a ∈ (access c k true a).writes := by
  simp [Ev.writes, access, mem_span]

/-- A whole plane block is one unit. -/
theorem blockAccess_together (g : Agent) (wr : Bool) {w k i j : Nat} (hw : 0 < w) (hi : i < w) (hj : j < w) :
    (blockAccess g wr (w * k) w).together (w * k + i) (w * k + j) = true := by
  rw [Ev.together, List.any_eq_true]
  refine ⟨span (w * k) w, ?_, by simp [mem_span, hi, hj]⟩
  have hdiv : w * k / w = k := Nat.mul_div_cancel_left k hw
  simp only [Ev.units, blockAccess, hw.ne', if_false, planeUnits, List.mem_flatMap, List.mem_range]
  exact ⟨0, Nat.succ_pos _, by simp [hdiv, Nat.mul_comm k w, hw.ne']⟩

/-! ## What a sequencer's order preserves around a release and an acquire (R76) -/

theorem ordered_plain_release (c : BitVec 4) (s : Scope) (m : BitVec 16) :
    (Kind.plain c).ordered (.release s m) = (if meets m (1#16 <<< c.toNat) then [s] else []) ++ [] := rfl

theorem ordered_acquire_plain (c : BitVec 4) (s : Scope) (m : BitVec 16) :
    (Kind.acquire s m).ordered (.plain c) = (if meets m (1#16 <<< c.toNat) then [s] else []) ++ [] ++ [] := rfl

theorem meets_class {m : BitVec 16} {c : BitVec 4} (h : m.getLsbD c.toNat = true) : meets m (1#16 <<< c.toNat) = true := by
  rw [meets, bne_iff_ne]
  intro h0
  have hlt := c.isLt
  have hbit : (m &&& 1#16 <<< c.toNat).getLsbD c.toNat = true := by
    simp [h, BitVec.getLsbD_shiftLeft]
    omega
  simp [h0] at hbit

/-! ## The statement's parts -/

/-- The four conditions of R86 as the statement has them. -/
theorem allowed_reads (x : Execution) (h : x.allowed = true) :
    (∀ i j b, x.po i j = true → b ∈ (x.ev i).reads → b ∈ (x.ev j).reads → i < x.evs.length → j < x.evs.length →
      x.before b (x.src j b) (x.src i b) = false) ∧
    (∀ v r b w, b ∈ (x.ev r).reads → x.src r b = some w → v ≠ r → v < x.evs.length → r < x.evs.length →
      x.hb [(x.ev r).agent, (x.ev v).agent, (x.ev w).agent] v r = true → x.before b (some w) (some v) = false) ∧
    (∀ r b w, b ∈ (x.ev r).reads → r < x.evs.length → x.src r b = some w → x.hb [(x.ev r).agent, (x.ev w).agent] r w = false) ∧
    ∀ i j b c d, (x.ev i).kind = .wheel c → (x.ev j).kind = .wheel d → c < d → b ∈ (x.ev j).reads →
      (b ∈ (x.ev i).reads → x.before b (x.src j b) (x.src i b) = false) ∧
      (b ∈ (x.ev i).writes → (∀ k < x.evs.length, (x.ev k).agent ≠ .outside) → x.before b (x.src j b) (some i) = false) := by
  obtain ⟨hs, hc, hf, hw, -⟩ := allowed_iff.mp h
  refine ⟨fun i j b hpo hi hj _ _ => read_not_older hc hpo hi hj, fun v r b w hb hsrc hvr hv _ hh => ?_,
    fun r b w hb _ hsrc => read_not_returned hf hb hsrc, fun i j b c d hi hj hcd hbj => ⟨fun hbi => ?_, fun hbi hin => ?_⟩⟩
  · exact hsrc ▸ read_not_missed hf hb hv hvr (by simpa [hsrc, sourceAgent] using hh)
  · exact wheel_not_older hw hi hj hcd hbi hbj
  · have hne : i ≠ j := by
      rintro rfl
      rw [hi, Kind.wheel.injEq] at hj
      omega
    refine read_not_missed hf hbj (lt_of_wheel hi) hne (hb_of_edge (edge_of_wheels hi hj hcd (hin i (lt_of_wheel hi)) ?_))
    simp only [List.forall_mem_cons]
    refine ⟨hin j (lt_of_wheel hj), hin i (lt_of_wheel hi), ?_⟩
    cases hsrc : x.src j b with
    | none => simp [sourceAgent]
    | some w => simpa [sourceAgent] using hin w (lt_of_mem_writes (mem_writes_of_src hs hbj hsrc))

/-- A release and the acquire that reads it pass on what was written before it (R76, R80). -/
theorem message_passed (x : Execution) (a b : CtxId) (s : Scope) (c d : BitVec 4) (m n : BitVec 16) (p q : Nat)
    (hin : inScope s (.eng a 0) (.eng b 0) = true) (hm : m.getLsbD c.toNat = true) (hn : n.getLsbD d.toNat = true)
    (hx : x.evs = [access a (.plain c) true p, access a (.release s m) true q, access b (.acquire s n) false q,
      access b (.plain d) false p]) (hq : x.src 2 q = some 1) (hp : x.src 3 p = none) : x.allowed = false := by
  have e0 : x.ev 0 = access a (.plain c) true p := by simp [Execution.ev, hx]
  have e1 : x.ev 1 = access a (.release s m) true q := by simp [Execution.ev, hx]
  have e2 : x.ev 2 = access b (.acquire s n) false q := by simp [Execution.ev, hx]
  have e3 : x.ev 3 = access b (.plain d) false p := by simp [Execution.ev, hx]
  have hlen : x.evs.length = 4 := by simp [hx]
  have hself := inScope_self s
  have hobs : ∀ g ∈ [Agent.eng b 0, Agent.eng a 0], inScope s (.eng a 0) g = true ∧ inScope s (.eng b 0) g = true := by
    simp [hin, inScope_comm hin, hself]
  have h01 : x.edge [.eng b 0, .eng a 0] 0 1 = true := by
    refine edge_of_ordered (mem_ordered_of_kinds (s := s) ?_ ?_ ?_) fun g hg => ?_
    · simp [Execution.po, e0, e1, access]
    · simp [Ev.isSq, e0, access]
    · simp [e0, e1, access, ordered_plain_release, meets_class hm]
    · simpa [e0, access] using (hobs g hg).1
  have h12 : x.edge [.eng b 0, .eng a 0] 1 2 = true := by
    have hsync : x.syncs [.eng b 0, .eng a 0] 1 2 = true := by
      simp only [Execution.syncs, e1, e2, access, Kind.rel, Kind.acq, Bool.and_eq_true, List.any_eq_true]
      refine ⟨by simp [hin, inScope_comm hin, hself], q, ?_, ?_, ?_⟩
      · simp [Ev.reads, mem_span]
      · simp [Ev.writes, mem_span]
      · simp [hq]
    simp [Execution.edge, hsync]
  have h23 : x.edge [.eng b 0, .eng a 0] 2 3 = true := by
    refine edge_of_ordered (mem_ordered_of_kinds (s := s) ?_ ?_ ?_) fun g hg => ?_
    · simp [Execution.po, e2, e3, access]
    · simp [Ev.isSq, e2, access]
    · simp [e2, e3, access, ordered_acquire_plain, meets_class hn]
    · simpa [e2, access] using (hobs g hg).2
  have hhb : x.hb [.eng b 0, .eng a 0] 0 3 = true := by
    rw [Execution.hb, hlen]
    exact chain_cons (by omega) h01 (chain_cons (by omega) h12 (chain_of_edge h23 2))
  rw [Bool.eq_false_iff]
  intro hall
  obtain ⟨hs, -, hf, -, -⟩ := allowed_iff.mp hall
  have hold := read_not_missed hf (r := 3) (v := 0) (b := p) (e3 ▸ mem_reads_access b _ p) (by omega) (by omega)
    (by simpa [hp, sourceAgent, e0, e3, access] using hhb)
  rw [hp, before_none hs (e0 ▸ mem_writes_access a _ p)] at hold
  cases hold

/-- Two contexts do not both miss the other's `.sc` store (R85). -/
theorem stores_not_both_missed (x : Execution) (a b : CtxId) (c1 c2 c3 c4 p q : Nat) (h12 : c1 < c2) (h34 : c3 < c4)
    (hx : x.evs = [access a (.wheel c1) true p, access a (.wheel c2) false q, access b (.wheel c3) true q,
      access b (.wheel c4) false p]) (hq : x.src 1 q = none) (hp : x.src 3 p = none) : x.allowed = false := by
  have e0 : x.ev 0 = access a (.wheel c1) true p := by simp [Execution.ev, hx]
  have e1 : x.ev 1 = access a (.wheel c2) false q := by simp [Execution.ev, hx]
  have e2 : x.ev 2 = access b (.wheel c3) true q := by simp [Execution.ev, hx]
  have e3 : x.ev 3 = access b (.wheel c4) false p := by simp [Execution.ev, hx]
  have hlen : x.evs.length = 4 := by simp [hx]
  have hin : ∀ k < x.evs.length, (x.ev k).agent ≠ .outside := by
    intro k hk
    rw [hlen] at hk
    interval_cases k <;> simp [e0, e1, e2, e3, access]
  rw [Bool.eq_false_iff]
  intro hall
  obtain ⟨hs, -⟩ := allowed_iff.mp hall
  obtain ⟨-, -, -, hwheel⟩ := allowed_reads x hall
  rcases Nat.lt_or_ge c1 c4 with h14 | h41
  · have hold := (hwheel 0 3 p c1 c4 (by simp [e0, access]) (by simp [e3, access]) h14 (e3 ▸ mem_reads_access b _ p)).2
      (e0 ▸ mem_writes_access a _ p) hin
    rw [hp, before_none hs (e0 ▸ mem_writes_access a _ p)] at hold
    cases hold
  · have hold := (hwheel 2 1 q c3 c2 (by simp [e2, access]) (by simp [e1, access]) (by omega) (e1 ▸ mem_reads_access a _ q)).2
      (e2 ▸ mem_writes_access b _ q) hin
    rw [hq, before_none hs (e2 ▸ mem_writes_access b _ q)] at hold
    cases hold

/-- A whole plane block is not torn (R43). -/
theorem block_not_torn (x : Execution) (g h : Agent) (k w i j : Nat) (_ : w ∈ [16, 32, 64])
    (hx : x.evs = [blockAccess g true (w * k) w, blockAccess h false (w * k) w]) (hi : i < w) (hj : j < w)
    (hsi : x.src 1 (w * k + i) = some 0) (hsj : x.src 1 (w * k + j) = none) : x.allowed = false := by
  have e0 : x.ev 0 = blockAccess g true (w * k) w := by simp [Execution.ev, hx]
  have e1 : x.ev 1 = blockAccess h false (w * k) w := by simp [Execution.ev, hx]
  have hr : ∀ l < w, w * k + l ∈ (x.ev 1).reads := fun l hl => by simp [e1, Ev.reads, blockAccess, mem_span, hl]
  have hwr : w * k + j ∈ (x.ev 0).writes := by simp [e0, Ev.writes, blockAccess, mem_span, hj]
  have hpos : 0 < w := by omega
  rw [Bool.eq_false_iff]
  intro hall
  obtain ⟨hs, -, -, -, ha⟩ := allowed_iff.mp hall
  have hold := read_not_torn ha (hr i hi) (hr j hj) (e1 ▸ blockAccess_together h false hpos hi hj) hsi
    (e0 ▸ blockAccess_together g true hpos hi hj) hwr
  rw [hsj, before_none hs hwr] at hold
  cases hold

/-- Settles O60: in a sequential execution every order of R86 goes forward, so no condition can fail; each excluded outcome makes a read
miss a write that happens before it, or tears a unit. -/
theorem sequentialExecutionsAreAllowed : Obligations.SequentialExecutionsAreAllowed := by
  unfold Obligations.SequentialExecutionsAreAllowed
  exact ⟨sequentialRunsAreAllowed, allowed_reads, message_passed, stores_not_both_missed, block_not_torn⟩

end Sys2Proof.Proofs


/-! Conversions of byte streams (R42, R242): the elements of a stream, the stream of given elements, and what a conversion makes of one
from the other. -/

namespace Sys2Proof.Proofs
open Sys2Proof.Machine Sys2Proof.Claims

/-! ## Numbers and bytes -/

theorem length_leBytes' (w x : Nat) : (leBytes w x).length = w := by
  rw [leBytes_eq_map, List.length_map, List.length_range]

theorem leNat_leBytes_mod (w x : Nat) : leNat (leBytes w x) = x % 256 ^ w := by
  induction w generalizing x with
  | zero => simp [leBytes, leNat, Nat.mod_one]
  | succ w ih =>
    rw [leBytes, leNat, ih, BitVec.toNat_ofNat, show 2 ^ 8 = 256 from rfl, Nat.pow_succ', Nat.mod_mul]

/-- The `k`-th group of a list of groups of `w`. -/
theorem take_drop_flatMap {α β : Type} {w : Nat} {g : α → List β} (hg : ∀ a, (g a).length = w) (l : List α) {k : Nat} (hk : k < l.length) :
    ((l.flatMap g).drop (w * k)).take w = g l[k] := by
  induction l generalizing k with
  | nil => simp at hk
  | cons a l ih =>
    cases k with
    | zero => simp [hg a]
    | succ k =>
      rw [List.flatMap_cons, Nat.mul_succ, Nat.add_comm, ← List.drop_drop, List.drop_left' (hg a)]
      exact ih (by simpa using hk)

/-- An entry of a group of a list of groups of `w`. -/
theorem getElem?_flatMap {α β : Type} {w : Nat} {g : α → List β} (hg : ∀ a, (g a).length = w) (l : List α) {k i : Nat} (hk : k < l.length)
    (hi : i < w) : (l.flatMap g)[w * k + i]? = (g l[k])[i]? := by
  rw [← take_drop_flatMap hg l hk, List.getElem?_take_of_lt hi, List.getElem?_drop]

theorem length_flatMap_const {α β : Type} {w : Nat} {g : α → List β} (hg : ∀ a, (g a).length = w) (l : List α) :
    (l.flatMap g).length = w * l.length := by
  simp [List.length_flatMap, hg, Nat.mul_comm]

/-- Packed digits as a sum. -/
theorem packed_eq_sum (d : Nat → Nat) (s : Nat) : packed d s = ((List.range s).map fun j => d j * 16 ^ (s - 1 - j)).sum := by
  induction s with
  | zero => rfl
  | succ s ih =>
    have hterm : (List.range s).map (fun j => d j * 16 ^ (s + 1 - 1 - j)) = (List.range s).map fun j => d j * 16 ^ (s - 1 - j) * 16 := by
      refine List.map_congr_left fun j hj => ?_
      have : j < s := List.mem_range.mp hj
      rw [show s + 1 - 1 - j = (s - 1 - j) + 1 by omega, Nat.pow_succ, mul_assoc]
    rw [packed_succ, ih, List.range_succ, List.map_append, List.sum_append, hterm, List.sum_map_mul_right]
    simp

/-- The digits of a number, packed again. -/
theorem packed_digits (p s : Nat) : packed (fun j => p / 16 ^ (s - 1 - j) % 16) s = p % 16 ^ s := by
  induction s generalizing p with
  | zero => simp [packed, Nat.mod_one]
  | succ s ih =>
    have hlead : packed (fun j => p / 16 ^ (s + 1 - 1 - j) % 16) s = packed (fun j => p / 16 / 16 ^ (s - 1 - j) % 16) s := by
      refine packed_congr fun j hj => ?_
      rw [show s + 1 - 1 - j = (s - 1 - j) + 1 by omega, Nat.pow_succ', Nat.div_div_eq_div_mul]
    rw [packed_succ, hlead, ih, Nat.pow_succ', Nat.mod_mul]
    simp
    ring

/-! ## Formats -/

/-- The formats of a conversion: planes, and those of whole bytes (R242). -/
theorem cvtOk_cases {c : Nat} (h : cvtOk c = true) : c < 8 ∨ 8 ≤ c ∧ fmtBits c = 8 * fmtBytes c ∧ 0 < fmtBytes c := by
  have hc : c < 0x13 := by
    simp [cvtOk, fmtIsFloat] at h
    omega
  have hall : ∀ c < 0x13, cvtOk c = true → c < 8 ∨ 8 ≤ c ∧ fmtBits c = 8 * fmtBytes c ∧ 0 < fmtBytes c := by decide
  exact hall c hc h

theorem fmtBits_plane {c : Nat} (h : c < 8) : fmtBits c = 4 * (c % 4 + 1) := by
  interval_cases c <;> rfl

theorem planeStride_pos (n : Nat) : 0 < planeStride n := by
  unfold planeStride
  split_ifs <;> decide

theorem le_planeStride {n : Nat} (h : n ≤ 4) : 16 * n ≤ planeStride n := by
  unfold planeStride
  split_ifs <;> omega

/-! ## The elements of a stream -/

theorem elemDigits_eq_streamElem {c : Nat} (h : c < 8) (bs : List Byte) (k : Nat) : elemDigits bs (fmtPlanes c) k = streamElem c bs k := by
  rw [streamElem, if_pos h]
  refine (packed_eq_sum _ _).trans (congrArg List.sum (List.map_congr_left fun j _ => ?_))
  rw [fmtPlanes, show k % 32 % 2 = k % 2 by omega]

theorem elemsOf_eq {c cnt : Nat} {bs : List Byte} (hc : cvtOk c = true) (hl : bs.length = streamBytes c cnt) (h32 : c < 8 → cnt % 32 = 0) :
    elemsOf c bs = (List.range cnt).map (streamElem c bs) := by
  rcases cvtOk_cases hc with h8 | ⟨h8, -, hpos⟩
  · have hcnt : 32 * (bs.length / planeStride (fmtPlanes c)) = cnt := by
      rw [hl, streamBytes, if_pos h8, fmtPlanes, Nat.mul_div_cancel_left _ (planeStride_pos _)]
      have := h32 h8
      omega
    rw [elemsOf, fmtIsPlane, decide_eq_true h8, if_pos rfl, hcnt]
    exact List.map_congr_left fun k _ => elemDigits_eq_streamElem h8 bs k
  · have hn : ¬ c < 8 := by omega
    rw [elemsOf, fmtIsPlane, decide_eq_false hn, if_neg Bool.false_ne_true, numsOf, hl, streamBytes, if_neg hn,
      Nat.mul_div_cancel_left _ hpos]
    exact List.map_congr_left fun k _ => by rw [streamElem, if_neg hn]

/-! ## The stream of given elements -/

theorem length_blockBytes (base sp np b : Nat) (el : Nat → Nat) : (blockBytes base sp np b el).length = 16 * np :=
  (length_flatMap_const (w := 16) (fun _ => by simp) _).trans (by rw [List.length_range])

theorem length_planeBlock {n : Nat} (hn : n ≤ 4) (el : Nat → Nat) : (planeBlock n el).length = planeStride n := by
  have := le_planeStride hn
  rw [planeBlock, List.length_append, List.length_map, length_blockBytes, List.length_replicate]
  omega

/-- The two digits of a byte of plane `j`. -/
theorem getElem?_planeBlock {n j k : Nat} (hj : j < n) (hk : k < 16) (el : Nat → Nat) : (planeBlock n el)[16 * j + k]? =
    some (BitVec.ofNat 8 (el (2 * k) / 16 ^ (n - 1 - j) % 16 + 16 * (el (2 * k + 1) / 16 ^ (n - 1 - j) % 16))) := by
  have hlen : 16 * j + k < ((blockBytes 0 n n 0 el).map Prod.snd).length := by
    rw [List.length_map, length_blockBytes]
    omega
  rw [planeBlock, List.getElem?_append_left hlen, List.getElem?_map, blockBytes,
    getElem?_flatMap (w := 16) (fun _ => by simp) _ (by simpa using hj) hk]
  simp [hk]

/-- What is left of a block after its planes is zero. -/
theorem getElem?_planeBlock_pad {n i : Nat} (hi : 16 * n ≤ i) (hs : i < planeStride n) (el : Nat → Nat) :
    (planeBlock n el)[i]? = some 0 := by
  have hlen : ((blockBytes 0 n n 0 el).map Prod.snd).length = 16 * n := by rw [List.length_map, length_blockBytes]
  rw [planeBlock, List.getElem?_append_right (hlen.le.trans hi), hlen, List.getElem?_replicate, if_pos (by omega)]

/-- A digit of a byte of two. -/
theorem nibble_pair {x y : Nat} (i : Nat) (hx : x < 16) (hy : y < 16) :
    (BitVec.ofNat 8 (x + 16 * y)).toNat / 16 ^ (i % 2) % 16 = if i % 2 = 0 then x else y := by
  rw [BitVec.toNat_ofNat, Nat.mod_eq_of_lt (show x + 16 * y < 2 ^ 8 by omega)]
  rcases Nat.mod_two_eq_zero_or_one i with h | h <;> rw [h] <;> simp <;> omega

/-- A digit of an element of a block. -/
theorem digit_planeBlock {n j i : Nat} (hj : j < n) (hi : i < 32) (el : Nat → Nat) :
    ((planeBlock n el).getD (16 * j + i / 2) 0).toNat / 16 ^ (i % 2) % 16 = el i / 16 ^ (n - 1 - j) % 16 := by
  rw [List.getD_eq_getElem?_getD, getElem?_planeBlock hj (by omega), Option.getD_some,
    nibble_pair i (Nat.mod_lt _ (by decide)) (Nat.mod_lt _ (by decide))]
  split
  next he => rw [show 2 * (i / 2) = i by omega]
  next ho => rw [show 2 * (i / 2) + 1 = i by omega]

section
variable {c : Nat} {l : List Nat}

theorem bytesOf_plane (h8 : c < 8) : bytesOf c l =
    (List.range (l.length / 32)).flatMap fun b => planeBlock (c % 4 + 1) fun i => l.getD (32 * b + i) 0 := by
  rw [bytesOf, fmtIsPlane, decide_eq_true h8, if_pos rfl, fmtPlanes]

theorem bytesOf_bytes (h8 : ¬ c < 8) : bytesOf c l = l.flatMap (leBytes (fmtBytes c)) := by
  rw [bytesOf, fmtIsPlane, decide_eq_false h8, if_neg Bool.false_ne_true]

theorem length_bytesOf : (bytesOf c l).length = streamBytes c l.length := by
  by_cases h8 : c < 8
  · rw [bytesOf_plane h8, streamBytes, if_pos h8, length_flatMap_const (fun _ => length_planeBlock (by omega) _), List.length_range]
  · rw [bytesOf_bytes h8, streamBytes, if_neg h8, length_flatMap_const (length_leBytes' _)]

/-- A byte of block `b`. -/
theorem getElem?_bytesOf_plane (h8 : c < 8) {b i : Nat} (hb : b < l.length / 32) (hi : i < planeStride (c % 4 + 1)) :
    (bytesOf c l)[planeStride (c % 4 + 1) * b + i]? = (planeBlock (c % 4 + 1) fun i => l.getD (32 * b + i) 0)[i]? := by
  rw [bytesOf_plane h8, getElem?_flatMap (fun _ => length_planeBlock (by omega) _) _ (by simpa using hb) hi, List.getElem_range]

theorem streamElem_bytesOf (hc : cvtOk c = true) (h32 : c < 8 → l.length % 32 = 0) {k : Nat} (hk : k < l.length) :
    streamElem c (bytesOf c l) k = l.getD k 0 % 2 ^ fmtBits c := by
  rcases cvtOk_cases hc with h8 | ⟨h8, hbits, hpos⟩
  · have := h32 h8
    have hdigit : ∀ j, j < c % 4 + 1 → ((bytesOf c l).getD (planeStride (c % 4 + 1) * (k / 32) + 16 * j + k % 32 / 2) 0).toNat / 16 ^ (k % 2) % 16
        = l.getD k 0 / 16 ^ (c % 4 + 1 - 1 - j) % 16 := fun j hj => by
      have hs := le_planeStride (n := c % 4 + 1) (by omega)
      rw [List.getD_eq_getElem?_getD, Nat.add_assoc, getElem?_bytesOf_plane h8 (by omega) (by omega), ← List.getD_eq_getElem?_getD,
        show k % 2 = k % 32 % 2 by omega, digit_planeBlock hj (Nat.mod_lt _ (by decide)), show 32 * (k / 32) + k % 32 = k by omega]
    rw [streamElem, if_pos h8, fmtBits_plane h8, Nat.pow_mul, ← packed_digits, packed_eq_sum]
    exact congrArg List.sum (List.map_congr_left fun j hj => by rw [hdigit j (List.mem_range.mp hj)])
  · have hn : ¬ c < 8 := by omega
    rw [streamElem, if_neg hn, bytesOf_bytes hn, take_drop_flatMap (length_leBytes' _) l hk, leNat_leBytes_mod, hbits, Nat.pow_mul,
      List.getD_eq_getElem?_getD, List.getElem?_eq_getElem hk]
    rfl

/-- The padding of three planes is zero. -/
theorem padding_bytesOf (h8 : c < 8) (h3 : c % 4 = 2) {b i : Nat} (hb : 64 * b + 63 < (bytesOf c l).length) (hi : i < 16) :
    (bytesOf c l)[64 * b + 48 + i]? = some 0 := by
  have hs : planeStride (c % 4 + 1) = 64 := by rw [h3]; rfl
  rw [length_bytesOf, streamBytes, if_pos h8, hs] at hb
  have := getElem?_bytesOf_plane (l := l) h8 (b := b) (i := 48 + i) (by omega) (by omega)
  rw [hs, ← Nat.add_assoc] at this
  rw [this]
  exact getElem?_planeBlock_pad (by omega) (by omega) _

end

/-! ## A conversion -/

theorem convertedStreams : ConvertedStreams := by
  intro sc dc cnt bs hsc hdc hlen h32
  dsimp only
  have hel : elemsOf sc bs = (List.range cnt).map (streamElem sc bs) := elemsOf_eq hsc hlen fun h => h32 (.inl h)
  have hl : (((elemsOf sc bs).map (convertVal sc dc)).map Prod.fst).length = cnt := by simp [hel]
  refine ⟨?_, fun k hk => ?_, fun h3 h8 b i hb hi => padding_bytesOf h8 h3 hb hi, fun j => ?_, ?_⟩
  · rw [convertBytes, length_bytesOf, hl]
  · rw [convertBytes, streamElem_bytesOf hdc (fun h => hl ▸ h32 (.inr h)) (hl ▸ hk), hel]
    simp [List.getD_eq_getElem?_getD, hk]
  · rw [convertBytes, getLsbD_flagUnion, hel]
    simp
  · simp only [convertBytes, hel, ← List.countP_eq_length_filter, List.countP_map]
    exact List.countP_congr fun k _ => by simp

end Sys2Proof.Proofs


/-! A plain copy command with local sides makes its moves as it begins (R240 to R244, R254, log entry 16): what its engine reads, where its
bytes land, and what it leaves alone. -/

namespace Sys2Proof.Proofs
open Sys2Proof.Machine Sys2Proof.Claims

/-! ## Bytes over a list of runs -/

@[simp] theorem byteAt_nil : byteAt [] = [] := rfl

theorem byteAt_cons (r : Nat × Nat) (l : List (Nat × Nat)) : byteAt (r :: l) = (List.range r.2).map (r.1 + ·) ++ byteAt l := rfl

theorem mem_byteAt {a : Nat} {l : List (Nat × Nat)} : a ∈ byteAt l ↔ ∃ r ∈ l, r.1 ≤ a ∧ a < r.1 + r.2 := by
  simp only [byteAt, List.mem_flatMap, List.mem_map, List.mem_range]
  refine exists_congr fun r => and_congr_right fun _ => ⟨fun ⟨i, hi, he⟩ => by omega, fun h => ⟨a - r.1, by omega, by omega⟩⟩

theorem length_byteAt (l : List (Nat × Nat)) : (byteAt l).length = (l.map Prod.snd).sum := by
  simp [byteAt, List.length_flatMap]

theorem placed_eq_zip {l : List Byte} {n : Nat} (h : l.length ≤ n) (a : Nat) : placed a l = ((List.range n).map (a + ·)).zip l := by
  induction l generalizing a n with
  | nil => simp [placed]
  | cons b l ih =>
    obtain ⟨n, rfl⟩ : ∃ m, n = m + 1 := ⟨n - 1, by simp at h; omega⟩
    rw [placed, ih (n := n) (by simpa using h), List.range_succ_eq_map]
    simp [Function.comp_def, Nat.add_assoc, Nat.add_comm 1]

theorem zip_append_take {α β : Type} (l₁ l₂ : List α) (bs : List β) :
    (l₁ ++ l₂).zip bs = l₁.zip (bs.take l₁.length) ++ l₂.zip (bs.drop l₁.length) := by
  induction l₁ generalizing bs with
  | nil => simp
  | cons a l ih => cases bs <;> simp [ih]

/-- The first run takes the first bytes. -/
theorem zip_byteAt_cons (a n : Nat) (l : List (Nat × Nat)) (bs : List Byte) :
    (byteAt ((a, n) :: l)).zip bs = placed a (bs.take n) ++ (byteAt l).zip (bs.drop n) := by
  rw [byteAt_cons, zip_append_take, List.length_map, List.length_range, placed_eq_zip (List.length_take_le n bs)]

theorem memScatter_append (m : Mem) (l r : List (Nat × Byte)) : memScatter m (l ++ r) = memScatter (memScatter m l) r := by
  induction l generalizing m with
  | nil => rfl
  | cons c l ih => exact ih _

theorem memWrite_eq_memScatter (m : Mem) (a : Nat) (l : List Byte) : memWrite m a l = memScatter m (placed a l) := by
  induction l generalizing m a with
  | nil => rfl
  | cons b l ih => exact ih _ _

/-- Of the bytes written to an address the last stays. -/
theorem memGet_memScatter_last {l : List (Nat × Byte)} {k a : Nat} {v : Byte} (hk : l[k]? = some (a, v))
    (hlast : ∀ j w, k < j → l[j]? ≠ some (a, w)) (m : Mem) : memGet (memScatter m l) a = v := by
  induction l generalizing k m with
  | nil => simp at hk
  | cons c l ih =>
    cases k with
    | zero =>
      obtain rfl : c = (a, v) := by simpa using hk
      rw [memScatter, memGet_memScatter_ne, memGet_memPut_same]
      rintro ⟨b, w⟩ hc rfl
      obtain ⟨j, hj⟩ := List.mem_iff_getElem?.mp hc
      exact hlast (j + 1) w (by omega) hj
    | succ k => exact ih hk (fun j w hj => hlast (j + 1) w (by omega)) _

/-! ## Reading the source -/

section
variable {s : State} {c : CtxId}

/-- Pool bytes outside the buffers of the ports are read as they stand (R157). -/
theorem poolRead_of_clear {x : Context} {a n : Nat} (h : ∀ i < n, x.inBuffer (a + i) = false) : s.poolRead x a n = (x.poolGet s.clk a n, s) := by
  have hb : ((List.range n).any fun i => x.inBuffer (a + i)) = false := List.any_eq_false.mpr fun i hi => by simp [h i (List.mem_range.mp hi)]
  simp [State.poolRead, hb]

theorem cpRead_local {r : CpRun} {pool : Bool} {l : List (Nat × Nat)} (h : localSrc s c pool l) :
    s.cpRead c r pool l = (srcBytes s c pool l, s) := by
  induction l with
  | nil => rfl
  | cons q l ih =>
    obtain ⟨a, n⟩ := q
    have hq := h (a, n) List.mem_cons_self
    have hl := ih fun r hr => h r (List.mem_cons_of_mem _ hr)
    cases pool with
    | true => simp [State.cpRead, poolRead_of_clear (s := s) hq, hl, srcBytes, byteAt_cons, Context.poolGet, Function.comp_def]
    | false => simp [State.cpRead, show isRemote a = false from hq, hl, srcBytes, byteAt_cons, memRead, Function.comp_def]

/-- Sides that share no byte leave nothing undefined (R233). -/
theorem overlapFree_of_apart {same : Bool} {src dst : List (Nat × Nat)} {bs : List Byte} (h : same = true → ∀ a ∈ byteAt dst, a ∉ byteAt src) :
    s.overlapFree same src dst bs = (bs, s) := by
  have hno : (same && (byteAt dst).any fun a => src.any fun r => decide (r.1 ≤ a) && decide (a < r.1 + r.2)) = false := by
    rw [Bool.and_eq_false_imp]
    intro hs
    refine List.any_eq_false.mpr fun a ha hit => h hs a ha (mem_byteAt.mpr ?_)
    simpa using hit
  exact if_neg (by simpa [byteAt] using hno)

/-! ## Writing the destination -/

/-- `t` is `s` with the bytes of `l` written in memory or pool, and with another note of the clock's pool writes. -/
structure WritesAt (s t : State) (c : CtxId) (pool : Bool) (l : List (Nat × Byte)) : Prop where
  focus : t.focus = s.focus
  mem : t.mem = if pool then s.mem else memScatter s.mem l
  ctx : ∃ n, t.ctx c = { s.ctx c with pool := if pool then memScatter (s.ctx c).pool l else (s.ctx c).pool, note := n }

/-- A second-port write made in full. -/
def wrotePool (x : Context) (clk : Nat) (src : HeldBy) (l : List (Nat × Byte)) : Context :=
  { x with pool := memScatter x.pool l, note := x.notePrior clk [] (l.map fun p => (p.1, src)) }

/-- A second-port write that nothing bars is made in full, and bars nothing itself (R66, R213). -/
theorem poolPut_of_clear {x : Context} {clk : Nat} {src : HeldBy} {l : List (Nat × Byte)} (hb : ∀ p ∈ l, x.barred clk p.1 = false)
    (hx : ∀ p ∈ l, p.1 ∉ (x.noteAt clk).exw) : x.poolPut clk src l = wrotePool x clk src l := by
  have hbars : x.barredBlocks clk l = [] := by
    rw [Context.barredBlocks, List.map_eq_nil_iff, List.filter_eq_nil_iff]
    exact fun p hp => by simp [hb p hp]
  have hall : l.filter (fun p => !decide (p.1 ∈ (x.noteAt clk).exw)) = l :=
    List.filter_eq_self.mpr fun p hp => by simpa using hx p hp
  simp [Context.poolPut, wrotePool, hbars, hall]

theorem noteAt_wrotePool (x : Context) (clk : Nat) (src : HeldBy) (l : List (Nat × Byte)) :
    ((wrotePool x clk src l).noteAt clk).exw = (x.noteAt clk).exw ∧ ((wrotePool x clk src l).noteAt clk).landed = (x.noteAt clk).landed := by
  have hclk : (wrotePool x clk src l).note.clk = clk := by
    simp only [wrotePool, Context.notePrior, Context.noteAt]
    split <;> simp_all
  rw [Context.noteAt, if_pos hclk]
  exact ⟨rfl, rfl⟩

/-- A pool write to bytes of a local destination. -/
theorem poolStore_local {src : HeldBy} {a n : Nat} {l : List (Nat × Nat)} {d : List Byte} (hd : d.length ≤ n)
    (h : localDst s c true ((a, n) :: l)) : s.poolStore (s.ctx c) src (placed a d) = (wrotePool (s.ctx c) s.clk src (placed a d), s) := by
  have hclear : ∀ p ∈ placed a d, (s.ctx c).inBuffer p.1 = false ∧ (s.ctx c).barred s.clk p.1 = false ∧
      p.1 ∉ ((s.ctx c).noteAt s.clk).exw := by
    rintro ⟨b, v⟩ hp
    obtain ⟨i, rfl, hi⟩ := mem_placed.mp hp
    obtain ⟨hbuf, hheld, hx, hland, hno⟩ := h (a, n) List.mem_cons_self i ((List.getElem?_eq_some_iff.mp hi).1.trans_le hd)
    refine ⟨hbuf, ?_, hx⟩
    rw [Context.barred, hheld, List.contains_eq_mem, decide_eq_false hland, List.any_eq_false.mpr fun g hg => by simpa using hno g hg]
    rfl
  have hbuf : ((placed a d).any fun p => (s.ctx c).inBuffer p.1) = false :=
    List.any_eq_false.mpr fun p hp => by simp [(hclear p hp).1]
  simp only [State.poolStore, hbuf, Bool.false_eq_true, if_false,
    poolPut_of_clear (fun p hp => (hclear p hp).2.1) fun p hp => (hclear p hp).2.2]

theorem cpWrite_local {r : CpRun} {pool : Bool} {l : List (Nat × Nat)} (off : Nat) (bs : List Byte) (h : localDst s c pool l) :
    WritesAt s (s.cpWrite c r pool off l bs).1 c pool ((byteAt l).zip bs) := by
  induction l generalizing s off bs with
  | nil => exact ⟨rfl, by simp [State.cpWrite, memScatter], (s.ctx c).note, by simp [State.cpWrite, memScatter]⟩
  | cons q l ih =>
    obtain ⟨a, n⟩ := q
    have hl : localDst s c pool l := fun r hr => h r (List.mem_cons_of_mem _ hr)
    rw [zip_byteAt_cons]
    cases pool with
    | false =>
      obtain ⟨hrem, hslot⟩ : isRemote a = false ∧ ∀ i < n, s.inSlot (a + i) = false := h (a, n) List.mem_cons_self
      have hstore : s.store a (bs.take n) = { s with mem := memScatter s.mem (placed a (bs.take n)) } := by
        rw [store_plain fun i hi => hslot i (hi.trans_le (List.length_take_le n bs)), memWrite_eq_memScatter]
      have hhost : inHost a = false := (Bool.or_eq_false_iff.mp hrem).1
      obtain ⟨hf, hm, m, hx⟩ := ih (s := { s with mem := memScatter s.mem (placed a (bs.take n)) }) (off + n) (bs.drop n) hl
      have hw : (s.cpWrite c r false off ((a, n) :: l) bs).1 =
          (({ s with mem := memScatter s.mem (placed a (bs.take n)) } : State).cpWrite c r false (off + n) l (bs.drop n)).1 := by
        simp [State.cpWrite, hhost, peerOf_of_local hrem, hstore]
      exact ⟨hw ▸ hf, by rw [hw, hm, memScatter_append]; rfl, m, by rw [hw, hx]; rfl⟩
    | true =>
      let y := wrotePool (s.ctx c) s.clk (.cp r.num) (placed a (bs.take n))
      have hctx : (s.setCtx c y).ctx c = y := State.ctx_setCtx_same _ _ _
      obtain ⟨hexw, hlanded⟩ := noteAt_wrotePool (s.ctx c) s.clk (.cp r.num) (placed a (bs.take n))
      have hl' : localDst (s.setCtx c y) c true l := by
        intro q hq i hi
        rw [hctx]
        obtain ⟨hbuf, hheld, hx, hland, hno⟩ := hl q hq i hi
        exact ⟨hbuf, hheld, hexw.symm ▸ hx, hlanded.symm ▸ hland, hno⟩
      obtain ⟨hf, hm, m, hx⟩ := ih (off + n) (bs.drop n) hl'
      have hw : (s.cpWrite c r true off ((a, n) :: l) bs).1 = ((s.setCtx c y).cpWrite c r true (off + n) l (bs.drop n)).1 := by
        simp only [State.cpWrite, if_true, poolStore_local (List.length_take_le n bs) h, y]
      exact ⟨hw ▸ hf, by rw [hw, hm]; rfl, m, by rw [hw, hx, hctx, memScatter_append]; rfl⟩

end

end Sys2Proof.Proofs


/-! Settles O30: each plain copy command from its begin to its moved bytes (R240 to R244, R254). -/

namespace Sys2Proof.Proofs
open Sys2Proof.Machine Sys2Proof.Claims

/-! ## The run's record of its moves (R239) -/

/-- Updates of CKR touch neither pool nor registers. -/
theorem flushCks_data (n : Nat) (x : Context) : (flushCks x n).pool = x.pool ∧ (flushCks x n).x = x.x := by
  induction n generalizing x with
  | zero => exact ⟨rfl, rfl⟩
  | succ n ih =>
    rw [flushCks]
    split
    · exact ih _
    · exact ⟨rfl, rfl⟩

theorem cpSum_data (x : Context) (num : W32) : (x.cpSum num).pool = x.pool ∧ (x.cpSum num).x = x.x := by
  unfold Context.cpSum
  split
  · split
    · exact flushCks_data _ _
    · exact ⟨rfl, rfl⟩
  · exact ⟨rfl, rfl⟩

theorem cpRun_cpSum (x : Context) (num n : W32) : (x.cpSum n).cpRun num = x.cpRun num := by
  rw [Context.cpRun, (cpSum_frame x n).1]
  rfl

/-- A run with its moves made. -/
def withMoves (sums : List (Nat × Nat × Option W32)) (fl : FlagSet) (satn clk : Nat) (r : CpRun) : CpRun :=
  { r with moved := true, sums := sums, flags := r.flags ||| fl, satn := r.satn + satn, wclk := clk }

theorem cpPut_ctx (s : State) (c : CtxId) (r : CpRun) (bs : List Byte) (fl : FlagSet) (satn : Nat) :
    (s.cpPut c r bs fl satn).ctx c = (((s.cpWrite c r r.t.dpool 0 r.dst bs).1.ctx c).modRun r.num
      (withMoves (s.cpWrite c r r.t.dpool 0 r.dst bs).2 fl satn s.clk)).cpSum r.num := by
  rw [State.cpPut, modCtx_ctx, modRun_ctx]
  rfl

section
variable {s : State} {e : CpEntry} {tl : CpTail} {k : CpKind} {src dst : List (Nat × Nat)} {bs : List Byte} {fl : FlagSet} {satn : Nat}

/-- The state in which a command has begun and asked for what lies outside, which is nothing. -/
def askedBegin (s : State) (e : CpEntry) (tl : CpTail) (k : CpKind) (src dst : List (Nat × Nat)) : State :=
  (s.modCtx s.focus fun x => x.newRun e tl k src dst).modRun s.focus e.num fun r => { r with asked := true }

/-- The command's run then. -/
def askedRun (s : State) (e : CpEntry) (tl : CpTail) (k : CpKind) (src dst : List (Nat × Nat)) : CpRun :=
  { freshRun (cur s) e tl k src dst with asked := true }

theorem askedBegin_ctx : (askedBegin s e tl k src dst).ctx s.focus =
    ((cur s).newRun e tl k src dst).modRun e.num fun r => { r with asked := true } := by
  rw [askedBegin, modRun_ctx, modCtx_ctx]

theorem askedBegin_run (hrun : (cur s).cpRun e.num = none) :
    ((askedBegin s e tl k src dst).ctx s.focus).cpRun e.num = some (askedRun s e tl k src dst) := by
  rw [askedBegin_ctx]
  exact cpRun_modRun_same (fun _ => rfl) (cpRun_newRun hrun)

theorem localSrc_askedBegin {pool : Bool} {l : List (Nat × Nat)} (h : localSrc s s.focus pool l) :
    localSrc (askedBegin s e tl k src dst) s.focus pool l := by
  unfold localSrc
  rw [askedBegin_ctx]
  exact h

theorem localDst_askedBegin {pool : Bool} {l : List (Nat × Nat)} (h : localDst s s.focus pool l) :
    localDst (askedBegin s e tl k src dst) s.focus pool l := by
  unfold localDst
  rw [askedBegin_ctx]
  exact h

theorem srcBytes_askedBegin (pool : Bool) (l : List (Nat × Nat)) :
    srcBytes (askedBegin s e tl k src dst) s.focus pool l = srcBytes s s.focus pool l := by
  unfold srcBytes
  rw [askedBegin_ctx]
  rfl

/-- The device side of a local side. -/
theorem device_of_localSrc {c : CtxId} {pool : Bool} {l : List (Nat × Nat)} (h : localSrc s c pool l) :
    ∀ q ∈ (if pool then [] else l), isRemote q.1 = false := by
  cases pool with
  | true => simp
  | false => exact h

/-- A begun command with local sides acts at once (log entry 16). -/
theorem cpAdvance_acts (hrun : (cur s).cpRun e.num = none) (hk : ∀ b side n, k ≠ .bank b side n true)
    (hsrc : localSrc s s.focus tl.spool src) (hdst : localDst s s.focus tl.dpool dst) :
    (s.modCtx s.focus fun x => x.newRun e tl k src dst).cpAdvance s.focus e.num =
      (askedBegin s e tl k src dst).cpAct s.focus (askedRun s e tl k src dst) := by
  have h1 : ((s.modCtx s.focus fun x => x.newRun e tl k src dst).ctx s.focus).cpRun e.num = some (freshRun (cur s) e tl k src dst) := by
    rw [modCtx_ctx]
    exact cpRun_newRun hrun
  have hport : (if tl.dpool then none else (askedBegin s e tl k src dst).downFault true dst) = none := by
    cases hd : tl.dpool with
    | true => rfl
    | false =>
      rw [hd] at hdst
      exact downFault_of_local fun q hq => (hdst q hq).1
  have hmove : (askedBegin s e tl k src dst).cpMove s.focus (askedRun s e tl k src dst) =
      (askedBegin s e tl k src dst).cpAct s.focus (askedRun s e tl k src dst) := by
    simp only [State.cpMove, show (askedRun s e tl k src dst).host = [] from rfl, show (askedRun s e tl k src dst).peer = [] from rfl,
      List.isEmpty_nil, Bool.and_self, if_true, show (askedRun s e tl k src dst).t = tl from rfl,
      show (askedRun s e tl k src dst).dst = dst from rfl, hport]
  exact (cpAdvance_of_local h1 rfl rfl rfl rfl hk (device_of_localSrc hsrc)).trans hmove

/-! ## The bytes land -/

/-- Bytes of one length with their destination are where `bytesLand` says, the others as they were. -/
theorem bytesLand_of_writesAt {t : State} {c : CtxId} {pool : Bool} (hlen : bs.length = (byteAt dst).length)
    (hmem : t.mem = if pool then s.mem else memScatter s.mem ((byteAt dst).zip bs))
    (hpool : (t.ctx c).pool = if pool then memScatter (s.ctx c).pool ((byteAt dst).zip bs) else (s.ctx c).pool) :
    bytesLand s t c pool dst bs [] := by
  have hside : ∀ a, ∃ m, sideByte s c pool a = memGet m a ∧ sideByte t c pool a = memGet (memScatter m ((byteAt dst).zip bs)) a := by
    intro a
    cases pool with
    | true => exact ⟨(s.ctx c).pool, rfl, by rw [sideByte, if_pos rfl, hpool, if_pos rfl]⟩
    | false => exact ⟨s.mem, rfl, by rw [sideByte, if_neg Bool.false_ne_true, hmem, if_neg Bool.false_ne_true]⟩
  refine ⟨fun i a hi hlast => ?_, fun a ha _ => ?_⟩
  · obtain ⟨m, -, ht⟩ := hside a
    have hlt : i < bs.length := hlen ▸ (List.getElem?_eq_some_iff.mp hi).1
    have hzip : ((byteAt dst).zip bs)[i]? = some (a, bs[i]) := List.getElem?_zip_eq_some.mpr ⟨hi, List.getElem?_eq_getElem hlt⟩
    rw [ht, memGet_memScatter_last hzip fun j w hj hw => hlast j hj (List.getElem?_zip_eq_some.mp hw).1, List.getElem?_eq_getElem hlt]
  · obtain ⟨m, hs, ht⟩ := hside a
    rw [hs, ht, memGet_memScatter_ne]
    rintro ⟨b, v⟩ hb rfl
    exact ha (List.of_mem_zip hb).1

/-- The moves of a begun command put its bytes. -/
theorem movedTo_cpPut (hrun : (cur s).cpRun e.num = none) (hdst : localDst s s.focus tl.dpool dst)
    (hlen : bs.length = (byteAt dst).length) :
    movedTo s ((askedBegin s e tl k src dst).cpPut s.focus (askedRun s e tl k src dst) bs fl satn) e tl dst bs fl satn := by
  obtain ⟨hfocus, hmem, m, hctx⟩ := cpWrite_local (s := askedBegin s e tl k src dst) (c := s.focus) (r := askedRun s e tl k src dst) 0 bs
    (localDst_askedBegin hdst)
  set m0 := askedBegin s e tl k src dst with hm0
  set r0 := askedRun s e tl k src dst with hr0
  have hput := cpPut_ctx m0 s.focus r0 bs fl satn
  have hcur : cur (m0.cpPut s.focus r0 bs fl satn) = (m0.cpPut s.focus r0 bs fl satn).ctx s.focus := congrArg _ hfocus
  have htm : (m0.cpPut s.focus r0 bs fl satn).mem = if tl.dpool then s.mem else memScatter s.mem ((byteAt dst).zip bs) := hmem
  have htp : ((m0.cpPut s.focus r0 bs fl satn).ctx s.focus).pool =
      if tl.dpool then memScatter (cur s).pool ((byteAt dst).zip bs) else (cur s).pool := by
    rw [hput, (cpSum_data _ _).1]
    refine (congrArg Context.pool hctx).trans ?_
    rw [hm0, askedBegin_ctx]
    rfl
  refine ⟨bytesLand_of_writesAt hlen htm htp, ?_, ?_, ?_⟩
  · cases hd : tl.dpool with
    | true => rw [if_pos rfl, htm, hd, if_pos rfl]
    | false => rw [if_neg Bool.false_ne_true, hcur, htp, hd, if_neg Bool.false_ne_true]
  · rw [hcur, hput, (cpSum_data _ _).2]
    refine (congrArg Context.x hctx).trans ?_
    rw [hm0, askedBegin_ctx]
    rfl
  · have hr : ((m0.cpWrite s.focus r0 tl.dpool 0 dst bs).1.ctx s.focus).cpRun e.num = some r0 := by
      rw [hctx]
      exact askedBegin_run hrun
    refine ⟨withMoves (m0.cpWrite s.focus r0 tl.dpool 0 dst bs).2 fl satn s.clk r0, ?_, rfl, rfl, rfl, BitVec.zero_or, Nat.zero_add _⟩
    rw [hcur, hput, cpRun_cpSum]
    exact cpRun_modRun_same (fun _ => rfl) hr

/-- A command whose begin goes on to put `bs` at local addresses has made its moves. -/
theorem moves_of_begin {i : Instr} (hx : exec i s = .next ((s.modCtx s.focus fun x => x.newRun e tl k src dst).cpAdvance s.focus e.num))
    (hrun : (cur s).cpRun e.num = none) (hk : ∀ b side n, k ≠ .bank b side n true) (hsrc : localSrc s s.focus tl.spool src)
    (hdst : localDst s s.focus tl.dpool dst)
    (hact : (askedBegin s e tl k src dst).cpAct s.focus (askedRun s e tl k src dst) =
      (askedBegin s e tl k src dst).cpPut s.focus (askedRun s e tl k src dst) bs fl satn)
    (hlen : bs.length = (byteAt dst).length) : ∃ t, exec i s = .next t ∧ movedTo s t e tl dst bs fl satn := by
  refine ⟨_, hx.trans (congrArg _ ((cpAdvance_acts hrun hk hsrc hdst).trans hact)), movedTo_cpPut hrun hdst hlen⟩

/-- The act of a move reads its source, converts it and puts it. -/
theorem cpAct_move {cvt : Bool} {sf df : Nat} (hsrc : localSrc s s.focus tl.spool src) (hap : apart tl src dst) :
    let b := srcBytes s s.focus tl.spool src
    let v := if cvt then convertBytes sf df b else (b, 0, 0)
    (askedBegin s e tl (.move cvt sf df) src dst).cpAct s.focus (askedRun s e tl (.move cvt sf df) src dst) =
      (askedBegin s e tl (.move cvt sf df) src dst).cpPut s.focus (askedRun s e tl (.move cvt sf df) src dst) v.1 v.2.1 v.2.2 := by
  have hread : (askedBegin s e tl (.move cvt sf df) src dst).cpRead s.focus (askedRun s e tl (.move cvt sf df) src dst) tl.spool src =
      (srcBytes s s.focus tl.spool src, askedBegin s e tl (.move cvt sf df) src dst) := by
    rw [cpRead_local (localSrc_askedBegin hsrc), srcBytes_askedBegin]
  have hfree (bs : List Byte) : (askedBegin s e tl (.move cvt sf df) src dst).overlapFree (tl.spool == tl.dpool) src dst bs =
      (bs, askedBegin s e tl (.move cvt sf df) src dst) := overlapFree_of_apart fun h => hap (beq_iff_eq.mp h)
  simp only [State.cpAct, askedRun, freshRun] at hread hfree ⊢
  rw [hread, hfree]

/-- A plain command whose bytes are `bs` moves them. -/
theorem cpMoveOp_moves {i : Instr} {high ready : Bool} {reason : Option Nat} {early : List (Bool × Nat × W64)} {sal dal : Nat}
    {isrc idst : List (Int × Nat)} (hx : exec i s = s.cpMoveOp tl high reason early k sal dal isrc idst ready) (h : cpMay s e tl)
    (hh : high = false) (hr : reason = none) (hy : ready = true) (hf : early.find? (·.1) = none)
    (hc : clearOf s (moveItems tl sal dal isrc idst)) (hk : ∀ b side n, k ≠ .bank b side n true)
    (hsrc : localSrc s s.focus tl.spool (natRuns isrc)) (hdst : localDst s s.focus tl.dpool (natRuns idst))
    (hact : (askedBegin s e tl k (natRuns isrc) (natRuns idst)).cpAct s.focus (askedRun s e tl k (natRuns isrc) (natRuns idst)) =
      (askedBegin s e tl k (natRuns isrc) (natRuns idst)).cpPut s.focus (askedRun s e tl k (natRuns isrc) (natRuns idst)) bs fl satn)
    (hlen : bs.length = (byteAt (natRuns idst)).length) :
    ∃ t, exec i s = .next t ∧ movedTo s t e tl (natRuns idst) bs fl satn := by
  refine moves_of_begin (hx.trans ?_) (cpRun_of_cpHead h.1) hk hsrc hdst hact hlen
  exact cpOp_begins_of_cpMay (plan := fun _ _ => ⟨tl, high, reason, early, moveItems tl sal dal isrc idst,
    moveItems tl sal dal isrc idst, ready⟩) (go := fun c e s =>
      (s.modCtx c fun x => x.newRun e tl k (natRuns isrc) (natRuns idst)).cpAdvance c e.num) h hh hr hy hc.1 hf hc.2

/-! ## `copy` and `copya` (R241, R242) -/

theorem length_srcBytes (c : CtxId) (pool : Bool) (l : List (Nat × Nat)) : (srcBytes s c pool l).length = (byteAt l).length :=
  List.length_map _

theorem fmtUnit_plane {c : Nat} (h : c < 8) : fmtUnit c = (planeStride (c % 4 + 1), 32) := by simp [fmtUnit, fmtIsPlane, fmtPlanes, h]

theorem fmtUnit_bytes {c : Nat} (h : ¬ c < 8) : fmtUnit c = (fmtBytes c, 1) := by simp [fmtUnit, fmtIsPlane, h]

/-- The bytes of whole units. -/
theorem streamBytes_eq {c cnt : Nat} (h32 : c < 8 → cnt % 32 = 0) : streamBytes c cnt = cnt * (fmtUnit c).1 / (fmtUnit c).2 := by
  unfold streamBytes
  split
  next h8 =>
    obtain ⟨q, rfl⟩ := Nat.dvd_of_mod_eq_zero (h32 h8)
    rw [fmtUnit_plane h8, Nat.mul_div_cancel_left q (by decide), Nat.mul_assoc, Nat.mul_div_cancel_left _ (by decide), Nat.mul_comm]
  next h8 => rw [fmtUnit_bytes h8, Nat.div_one, Nat.mul_comm]

/-- The units of so many bytes have those bytes. -/
theorem streamBytes_count {c n : Nat} (hc : cvtOk c = true) (h : n % (fmtUnit c).1 = 0) :
    streamBytes c (n * (fmtUnit c).2 / (fmtUnit c).1) = n := by
  obtain ⟨q, rfl⟩ := Nat.dvd_of_mod_eq_zero h
  unfold streamBytes
  split
  next h8 =>
    rw [fmtUnit_plane h8, Nat.mul_assoc, Nat.mul_div_cancel_left _ (planeStride_pos _), Nat.mul_div_cancel _ (show 0 < 32 by decide)]
  next h8 =>
    have hpos : 0 < fmtBytes c := ((cvtOk_cases hc).resolve_left h8).2.2
    rw [fmtUnit_bytes h8, Nat.mul_one, Nat.mul_div_cancel_left _ hpos]

/-- A conversion gives as many bytes as R242 counts. -/
theorem length_cvtBytes {cvt : Bool} {sf df : BitVec 5} {n : Nat} (hok : formatsOk cvt sf df)
    (hbad : countBad n (moveUnits cvt sf df).1 (moveUnits cvt sf df).2 = false) (hlen : bs.length = n) :
    (cvtBytes cvt sf df bs).1.length =
      n * (moveUnits cvt sf df).1.2 / (moveUnits cvt sf df).1.1 * (moveUnits cvt sf df).2.1 / (moveUnits cvt sf df).2.2 := by
  cases cvt with
  | false => simp [cvtBytes, moveUnits, hlen]
  | true =>
    obtain ⟨hs, hd⟩ := hok rfl
    obtain ⟨hwhole, h32⟩ : n % (fmtUnit sf.toNat).1 = 0 ∧
        ((fmtUnit sf.toNat).2 ≠ 1 ∨ (fmtUnit df.toNat).2 ≠ 1 → n * (fmtUnit sf.toNat).2 / (fmtUnit sf.toNat).1 % 32 = 0) := by
      simpa [countBad, moveUnits, or_imp, imp_iff_not_or] using hbad
    have hcnt : sf.toNat < 8 ∨ df.toNat < 8 → n * (fmtUnit sf.toNat).2 / (fmtUnit sf.toNat).1 % 32 = 0 := fun h =>
      h32 (h.imp (fun h => by simp [fmtUnit_plane h]) fun h => by simp [fmtUnit_plane h])
    have hl := (convertedStreams sf.toNat df.toNat _ bs hs hd (hlen.trans (streamBytes_count hs hwhole).symm) hcnt).1
    exact hl.trans (streamBytes_eq fun h => hcnt (.inr h))

theorem length_byteAt_single (a n : Nat) : (byteAt [(a, n)]).length = n := by simp [length_byteAt]

theorem length_byteAt_runs (p : PatSlot) (base : Int) : (byteAt (natRuns (p.runs base))).length = p.len := by
  have hall : ∀ n ∈ (natRuns (p.runs base)).map Prod.snd, n = p.run := by
    simp only [natRuns, PatSlot.runs, List.mem_map, List.mem_flatMap]
    rintro n ⟨-, ⟨-, ⟨-, -, -, -, -, -, rfl⟩, rfl⟩, rfl⟩
    rfl
  rw [length_byteAt, List.sum_eq_card_nsmul _ _ hall]
  simp [natRuns, PatSlot.runs, PatSlot.len]
  ring

theorem copy_moves (f : CopyForm) (h : cpMay s e f.t) (hp : poolAddrs f.t f.src f.dst) (hok : formatsOk f.cvt f.sfmt f.dfmt)
    (hbad : countBad f.len.toNat (moveUnits f.cvt f.sfmt f.dfmt).1 (moveUnits f.cvt f.sfmt f.dfmt).2 = false)
    (hc : clearOf s (copyItems f)) :
    movesBytes s (.copy f) e f.t [(f.src.toNat, f.len.toNat)]
      [(f.dst.toNat, copyCount f * (moveUnits f.cvt f.sfmt f.dfmt).2.1 / (moveUnits f.cvt f.sfmt f.dfmt).2.2)]
      (cvtBytes f.cvt f.sfmt f.dfmt (srcBytes s s.focus f.t.spool [(f.src.toNat, f.len.toNat)])) := by
  intro hsrc hdst hap
  have hx : exec (.copy f) s = execCopy f s := rfl
  refine cpMoveOp_moves (k := .move f.cvt f.sfmt.toNat f.dfmt.toNat) hx h (poolHigh_eq_false_iff.mpr hp) (cvtReason_of_formatsOk hok) rfl
    (by simp [hbad]) hc (fun _ _ _ => CpKind.noConfusion) hsrc hdst (cpAct_move hsrc hap) ?_
  refine (length_cvtBytes hok hbad ((length_srcBytes _ _ _).trans (length_byteAt_single _ _))).trans ?_
  exact (length_byteAt_single _ _).symm

theorem copya_moves (f : CopyaForm) (h : cpMay s e f.t) (hp : poolAddrs f.t f.src f.dst) (hok : formatsOk f.cvt f.sfmt f.dfmt)
    (hbad : countBad ((cur s).pat f.spat).len (moveUnits f.cvt f.sfmt f.dfmt).1 (moveUnits f.cvt f.sfmt f.dfmt).2 = false)
    (hlen : ((cur s).pat f.dpat).len * (moveUnits f.cvt f.sfmt f.dfmt).2.2 =
      ((cur s).pat f.spat).len * (moveUnits f.cvt f.sfmt f.dfmt).1.2 / (moveUnits f.cvt f.sfmt f.dfmt).1.1 * (moveUnits f.cvt f.sfmt f.dfmt).2.1)
    (hsa : ((cur s).pat f.spat).aligned (moveUnits f.cvt f.sfmt f.dfmt).1.1 = true)
    (hda : ((cur s).pat f.dpat).aligned (moveUnits f.cvt f.sfmt f.dfmt).2.1 = true)
    (hc : clearOf s (moveItems f.t (moveUnits f.cvt f.sfmt f.dfmt).1.1 (moveUnits f.cvt f.sfmt f.dfmt).2.1
      (((cur s).pat f.spat).runs f.src.toNat) (((cur s).pat f.dpat).runs f.dst.toNat))) :
    movesBytes s (.copya f) e f.t (natRuns (((cur s).pat f.spat).runs f.src.toNat)) (natRuns (((cur s).pat f.dpat).runs f.dst.toNat))
      (cvtBytes f.cvt f.sfmt f.dfmt (srcBytes s s.focus f.t.spool (natRuns (((cur s).pat f.spat).runs f.src.toNat)))) := by
  intro hsrc hdst hap
  have hx : exec (.copya f) s = execCopya f s := rfl
  have hpos : 0 < (moveUnits f.cvt f.sfmt f.dfmt).2.2 := by
    unfold moveUnits fmtUnit
    split_ifs <;> exact Nat.succ_pos _
  refine cpMoveOp_moves (k := .move f.cvt f.sfmt.toNat f.dfmt.toNat) hx h (poolHigh_eq_false_iff.mpr hp) (cvtReason_of_formatsOk hok) rfl
    (by simp [hbad, hlen, hsa, hda]) hc (fun _ _ _ => CpKind.noConfusion) hsrc hdst (cpAct_move hsrc hap) ?_
  refine (length_cvtBytes hok hbad ((length_srcBytes _ _ _).trans (length_byteAt_runs _ _))).trans ?_
  rw [length_byteAt_runs, ← hlen, Nat.mul_div_cancel _ hpos]

/-! ## `fill` and `ckst` (R244, R254) -/

theorem fill_moves (f : FillForm) (h : cpMay s e f.t) (hp : poolAddrs f.t 0 f.dst)
    (hc : clearOf s (moveItems f.t 1 1 [] [(f.dst.toNat, f.len.toNat)])) :
    movesBytes s (.fill f) e f.t [] [(f.dst.toNat, f.len.toNat)]
      ((List.range f.len.toNat).map fun k => BitVec.ofNat 8 (f.patv.toNat / 2 ^ (8 * (k % 8))), 0, 0) := by
  intro hsrc hdst _
  have hx : exec (.fill f) s = execFill f s := rfl
  refine cpMoveOp_moves (k := .fill f.patv) hx h (poolHigh_eq_false_iff.mpr hp) rfl rfl rfl hc (fun _ _ _ => CpKind.noConfusion) hsrc
    hdst ?_ (by simp [length_byteAt, natRuns])
  have hlen : runsLen (natRuns [((f.dst.toNat : Int), f.len.toNat)]) = f.len.toNat := Nat.zero_add _
  have hval : (fun k : Nat => BitVec.ofNat 8 (f.patv.toNat / 256 ^ (k % 8))) = fun k => BitVec.ofNat 8 (f.patv.toNat / 2 ^ (8 * (k % 8))) :=
    funext fun k => by rw [Nat.pow_mul]
  simp only [State.cpAct, askedRun, freshRun, hlen, hval]

theorem ckst_moves (d : Addr) (h : cpMay s e tl) (hp : poolAddrs tl 0 d) (hks : (cur s).cp.cks = [])
    (hrs : ∀ r ∈ (cur s).cp.runs, r.t.ckm = 0) (hc : clearOf s (moveItems tl 1 4 [] [(d.toNat, 4)])) :
    movesBytes s (.ckst d tl) e tl [] [(d.toNat, 4)] (leBytes 4 (cur s).cp.ckr.toNat, 0, 0) := by
  intro hsrc hdst _
  have hx : exec (.ckst d tl) s = execCkst d tl s := rfl
  have hdone : (cur s).sumsDone = true := by
    rw [Context.sumsDone, hks, List.all_eq_true.mpr fun r hr => by simp [hrs r hr]]
    rfl
  refine cpMoveOp_moves (k := .ckst) hx h (poolHigh_eq_false_iff.mpr hp) rfl hdone rfl hc (fun _ _ _ => CpKind.noConfusion) hsrc hdst
    ?_ (by simp [length_byteAt, natRuns, length_leBytes'])
  have hckr : ((askedBegin s e tl .ckst (natRuns []) (natRuns [((d.toNat : Int), 4)])).ctx s.focus).cp.ckr = (cur s).cp.ckr := by
    rw [askedBegin_ctx]
    rfl
  simp only [State.cpAct, askedRun, freshRun] at hckr ⊢
  rw [hckr]

/-! ## `gather` and `scatter` (R243) -/

/-- `n` runs of `len` bytes. -/
theorem length_byteAt_records (n len : Nat) (g : Nat → Int) : (byteAt (natRuns ((List.range n).map fun k => (g k, len)))).length = n * len := by
  simp [length_byteAt, natRuns, Function.comp_def]

/-- Consecutive numbers of pool bytes. -/
theorem numsOf_poolGet (x : Context) (clk a n : Nat) {w : Nat} (hw : 0 < w) :
    numsOf w (x.poolGet clk a (w * n)) = (List.range n).map fun k => leNat (x.poolGet clk (a + w * k) w) := by
  have hlen : (x.poolGet clk a (w * n)).length = w * n := by simp [Context.poolGet]
  rw [numsOf, hlen, Nat.mul_div_cancel_left _ hw]
  refine List.map_congr_left fun k hk => ?_
  have : w * k + w ≤ w * n := (Nat.mul_succ w k).symm.trans_le (Nat.mul_le_mul_left w (List.mem_range.mp hk))
  rw [poolGet_slice x clk a this]

/-- The records that the indices of a `gather` or `scatter` name from `a`. -/
def indexedRuns (s : State) (f : GatherForm) (a : Addr) : List (Int × Nat) :=
  (List.range (f.countM1.toNat + 1)).map fun k =>
    ((a.toNat + leNat ((cur s).poolGet s.clk (f.idx.toNat + 4 * k) 4) * (f.rlenM1.toNat + 1) : Nat), f.rlenM1.toNat + 1)

/-- The records of the plain side. -/
def plainRuns (f : GatherForm) (a : Addr) : List (Int × Nat) :=
  (List.range (f.countM1.toNat + 1)).map fun k => ((a.toNat + k * (f.rlenM1.toNat + 1) : Nat), f.rlenM1.toNat + 1)

/-- What is checked before the indices are read. -/
def gatherFirst (f : GatherForm) (sc : Bool) : List CpItem :=
  (if sc then ⟨f.t.spool, f.src.toNat, (f.countM1.toNat + 1) * (f.rlenM1.toNat + 1), false, 1, false⟩
    else ⟨f.t.dpool, f.dst.toNat, (f.countM1.toNat + 1) * (f.rlenM1.toNat + 1), true, 1, false⟩) ::
    ⟨true, f.idx.toNat, 4 * (f.countM1.toNat + 1), false, 4, false⟩ :: tailItems f.t

/-- What is checked once they are read. -/
def gatherSecond (s : State) (f : GatherForm) (sc : Bool) : List CpItem :=
  if sc then itemsOf f.t.dpool true 1 false (indexedRuns s f f.dst) else itemsOf f.t.spool false 1 false (indexedRuns s f f.src)

theorem gather_begins {f : GatherForm} {sc : Bool} (h : cpMay s e f.t) (hp : poolAddrs f.t f.src f.dst) (hfirst : clearOf s (gatherFirst f sc))
    (hrecs : clearOf s (gatherSecond s f sc)) (hidx : localSrc s s.focus true [(f.idx.toNat, 4 * (f.countM1.toNat + 1))]) :
    s.cpGather f sc = .next ((s.modCtx s.focus fun x => x.newRun e f.t (.move false 0 0)
      (natRuns (if sc then plainRuns f f.src else indexedRuns s f f.src))
      (natRuns (if sc then indexedRuns s f f.dst else plainRuns f f.dst))).cpAdvance s.focus e.num) := by
  have hread : s.poolRead (cur s) f.idx.toNat (4 * (f.countM1.toNat + 1)) =
      ((cur s).poolGet s.clk f.idx.toNat (4 * (f.countM1.toNat + 1)), s) := poolRead_of_clear (hidx _ List.mem_cons_self)
  have hnums (a : Addr) : (numsOf 4 ((cur s).poolGet s.clk f.idx.toNat (4 * (f.countM1.toNat + 1)))).map (fun i =>
      (((a.toNat + i * (f.rlenM1.toNat + 1) : Nat) : Int), f.rlenM1.toNat + 1)) = indexedRuns s f a := by
    rw [numsOf_poolGet _ _ _ _ (by decide), List.map_map]
    rfl
  unfold State.cpGather
  refine (cpOp_begins_of_cpMay (plan := fun _ _ => ⟨f.t, poolHigh f.t f.src f.dst, none, [], gatherFirst f sc, gatherFirst f sc, true⟩) h
    (poolHigh_eq_false_iff.mpr hp) rfl rfl hfirst.1 rfl hfirst.2).trans (congrArg _ ?_)
  obtain ⟨hclash, hfault⟩ := hrecs
  cases sc with
  | true =>
    simp only [gatherSecond, if_true] at hclash hfault
    simp only [hread, hnums, hclash, hfault, if_true, Bool.false_eq_true, if_false]
    rfl
  | false =>
    simp only [gatherSecond, Bool.false_eq_true, if_false] at hclash hfault
    simp only [hread, hnums, hclash, hfault, Bool.false_eq_true, if_false]
    rfl

theorem gather_moves (f : GatherForm) (sc : Bool) (h : cpMay s e f.t) (hp : poolAddrs f.t f.src f.dst) (hfirst : clearOf s (gatherFirst f sc))
    (hrecs : clearOf s (gatherSecond s f sc))
    (hidx : localSrc s s.focus true [(f.idx.toNat, 4 * (f.countM1.toNat + 1))]) :
    movesBytes s (if sc then .scatter f else .gather f) e f.t (natRuns (if sc then plainRuns f f.src else indexedRuns s f f.src))
      (natRuns (if sc then indexedRuns s f f.dst else plainRuns f f.dst))
      (srcBytes s s.focus f.t.spool (natRuns (if sc then plainRuns f f.src else indexedRuns s f f.src)), 0, 0) := by
  intro hsrc hdst hap
  have hx : exec (if sc then .scatter f else .gather f) s = s.cpGather f sc := by cases sc <;> rfl
  refine moves_of_begin (hx.trans (gather_begins h hp hfirst hrecs hidx)) (cpRun_of_cpHead h.1) (fun _ _ _ => CpKind.noConfusion) hsrc hdst (cpAct_move hsrc hap) ?_
  have hplain (a : Addr) := length_byteAt_records (f.countM1.toNat + 1) (f.rlenM1.toNat + 1) fun k =>
    ((a.toNat + k * (f.rlenM1.toNat + 1) : Nat) : Int)
  have hindexed (a : Addr) := length_byteAt_records (f.countM1.toNat + 1) (f.rlenM1.toNat + 1) fun k =>
    ((a.toNat + leNat ((cur s).poolGet s.clk (f.idx.toNat + 4 * k) 4) * (f.rlenM1.toNat + 1) : Nat) : Int)
  refine (length_srcBytes _ _ _).trans ?_
  cases sc with
  | true => exact (hplain f.src).trans (hindexed f.dst).symm
  | false => exact (hindexed f.src).trans (hplain f.dst).symm

end

theorem plainMovesBytes : PlainMovesBytes := by
  intro s e
  refine ⟨fun f _ h hp hok hbad hc => copy_moves f h hp hok hbad hc,
    fun f _ h hp hok hbad hlen hsa hda hc => copya_moves f h hp hok hbad hlen hsa hda hc, ?_,
    fun f _ h hp hc => fill_moves f h hp hc, fun d _ _ h hp hks hrs hc => ckst_moves d h hp hks hrs hc⟩
  intro f sc h hp n len plain idx recs src dst whole hfirst hrecs hidx
  have hsecond : clearOf s (gatherSecond s f sc) := by
    unfold gatherSecond
    cases sc with
    | true =>
      rw [if_pos rfl] at hrecs ⊢
      exact hrecs
    | false =>
      rw [if_neg Bool.false_ne_true] at hrecs ⊢
      exact hrecs
  exact gather_moves f sc h hp hfirst hsecond hidx

/-- Settles O30: a plain command with local sides reads, converts and writes its bytes in the clock it begins; a conversion goes element
by element. -/
theorem copyMovesBytes : Obligations.CopyMovesBytes := by
  unfold Obligations.CopyMovesBytes
  exact ⟨plainMovesBytes, convertedStreams⟩

end Sys2Proof.Proofs


/-! Sums into accumulators (R53 to R55, R58) and the values a drain writes (R48, R288). -/

namespace Sys2Proof.Proofs
open Sys2Proof.Machine Sys2Proof.Claims

/-! ## Sums that saturate (R54, R58) -/

theorem isFormat_fp32 : IsFormat fp32 := by simp [IsFormat]
theorem noInf_fp32 : fp32.noInf = false := rfl

theorem sat32_of_flags {r : Nat × FlagSet} (h : r.2.getLsbD 2 = false) : sat32 r = r := by
  have hall : ∀ fl : FlagSet, fl.getLsbD 2 = false → fl &&& flOF = 0 := by decide
  exact if_pos (hall _ h)

@[simp] theorem sat32_infResult (n : Bool) : sat32 (infResult fp32 n) = infResult fp32 n :=
  sat32_of_flags (show (0 : FlagSet).getLsbD 2 = false by decide)
@[simp] theorem sat32_nanResult (n : Bool) : sat32 (nanResult fp32 n) = nanResult fp32 n := 
  sat32_of_flags (by cases n <;> decide)

theorem satRounded_sat32 {x : ℚ} {r : Nat × FlagSet} (h : rounded fp32 x r) : satRounded x (sat32 r) := by
  refine ⟨r, h, sat32_of_flags, fun hof => ?_⟩
  obtain ⟨E, n, -, -, -, -, hle, hgt⟩ := h
  rcases le_or_gt ((n : ℚ) * 2 ^ (max E (1 - fp32.bias) - fp32.mb : ℤ)) (largest fp32) with hy | hy
  · obtain ⟨-, -, -, h2, -⟩ := hle hy
    exact absurd (h2.symm.trans hof) Bool.false_ne_true
  · have hr : r = (signed fp32 (decide (x < 0)) (infMag fp32), flOF ||| flNX) := hgt hy
    rw [hr]
    cases decide (x < 0) <;> decide

/-- A saturating sum never leaves the finite numbers. -/
theorem isFin_of_satRounded {x : ℚ} {r : Nat × FlagSet} (h : satRounded x r) : isFin (fp32.dec r.1) := by
  obtain ⟨r0, ⟨E, n, -, -, -, -, hle, hgt⟩, hsame, hsat⟩ := h
  rcases le_or_gt ((n : ℚ) * 2 ^ (max E (1 - fp32.bias) - fp32.mb : ℤ)) (largest fp32) with hy | hy
  · obtain ⟨⟨m, e, hd, -⟩, -, -, h2, -⟩ := hle hy
    exact hsame h2 ▸ ⟨_, _, _, hd⟩
  · have hr : r0 = (signed fp32 (decide (x < 0)) (infMag fp32), flOF ||| flNX) := hgt hy
    obtain ⟨m, e, hd, -⟩ := dec_signed isFormat_fp32 (decide (x < 0)) (mag := 0x7F7FFFFF) (by decide)
    rw [hsat (hr ▸ show (flOF ||| flNX).getLsbD 2 = true by decide)]
    exact ⟨_, _, _, hd⟩

theorem sat32_exactly {x : ℚ} {neg : Bool} {r : Nat × FlagSet} (h : exactly fp32 x neg r) :
    (x ≠ 0 → satRounded x (sat32 r)) ∧ (x = 0 → sat32 r = (signed fp32 neg 0, 0)) := by
  obtain ⟨h1, h2⟩ := h
  exact ⟨fun hx => satRounded_sat32 (h1 hx), fun hx => by rw [h2 hx]; exact sat32_of_flags (show (0 : FlagSet).getLsbD 2 = false by decide)⟩

/-- What decodes to an infinity. -/
theorem of_dec_inf {f : FFmt} {w : Nat} {n : Bool} (hi : f.noInf = false) (h : f.dec w = .inf n) :
    w / 2 ^ f.mb % 2 ^ f.eb = 2 ^ f.eb - 1 ∧ w % 2 ^ f.mb = 0 ∧ (w / 2 ^ (f.mb + f.eb) % 2 == 1) = n := by
  simp only [FFmt.dec, hi, Bool.false_and, Bool.false_eq_true, if_false, Bool.not_false, Bool.true_and, beq_iff_eq] at h
  split_ifs at h with hex hfr
  exact ⟨hex, hfr, FVal.inf.inj h⟩

theorem eq_of_dec_inf {w : Nat} {n : Bool} (hw : w < 2 ^ 32) (h : fp32.dec w = .inf n) : w = signed fp32 n (infMag fp32) := by
  obtain ⟨hex, hfr, rfl⟩ := of_dec_inf noInf_fp32 h
  rw [signed, show infMag fp32 = 0x7F800000 from rfl]
  simp only [fp32, beq_iff_eq] at *
  split_ifs <;> omega

/-! ## One block into a scaled accumulator (R54, R55) -/

theorem accFloat_zero (acc ea eb : Nat) : accFloat acc 0 ea eb = (acc, 0) := if_pos rfl

/-- A block's product, rounded once. -/
def blockProduct (bi : ℤ) (ea eb : Nat) : Nat × FlagSet := sat32 (fp32.round (decide (bi < 0)) bi.natAbs ((ea : ℤ) + eb - 254))

theorem satRounded_blockProduct {bi : ℤ} (h : bi ≠ 0) (ea eb : Nat) : satRounded (bi * (2 : ℚ) ^ (ea + eb - 254 : ℤ)) (blockProduct bi ea eb) := by
  rw [← ratio_fin_natAbs]
  exact satRounded_sat32 (rounded_round isFormat_fp32 _ _ (Int.natAbs_ne_zero.mpr h))

theorem accFloat_eq {bi : ℤ} (h : bi ≠ 0) (acc ea eb : Nat) : accFloat acc bi ea eb =
    ((sat32 (fp32.add acc (blockProduct bi ea eb).1)).1, (blockProduct bi ea eb).2 ||| (sat32 (fp32.add acc (blockProduct bi ea eb).1)).2) :=
  if_neg h

/-- A special sum as R47 has it. -/
theorem add_special {a b : Nat} {r : Nat × FlagSet} (h : sumSpecial fp32 (fp32.dec a) (fp32.dec b) = some r) : fp32.add a b = r :=
  addV_special noInf_fp32 h

theorem accFloat_sums {acc ea eb : Nat} {bi : ℤ} (hbi : bi ≠ 0) (hacc : acc < 2 ^ 32) :
    ∃ p, satRounded (bi * (2 : ℚ) ^ (ea + eb - 254 : ℤ)) p ∧
    (isFin (fp32.dec acc) → ∃ r, accFloat acc bi ea eb = (r.1, p.2 ||| r.2) ∧
      (ratio (fp32.dec acc) + ratio (fp32.dec p.1) ≠ 0 → satRounded (ratio (fp32.dec acc) + ratio (fp32.dec p.1)) r) ∧
      (ratio (fp32.dec acc) + ratio (fp32.dec p.1) = 0 →
        r = (signed fp32 ((fp32.dec acc).sign && (fp32.dec p.1).sign) 0, 0))) ∧
    (∀ n, fp32.dec acc = .inf n → accFloat acc bi ea eb = (acc, p.2)) ∧
    (∀ n, fp32.dec acc = .nan n → accFloat acc bi ea eb = (fp32.qnan, p.2 ||| if n then flNV else 0)) := by
  have hp := satRounded_blockProduct hbi ea eb
  obtain ⟨b, m, e, hfin⟩ := isFin_of_satRounded hp
  refine ⟨blockProduct bi ea eb, hp, fun hx => ?_, fun n hn => ?_, fun n hn => ?_⟩
  · exact ⟨_, accFloat_eq hbi _ _ _, sat32_exactly (exactly_addV isFormat_fp32 hx ⟨b, m, e, hfin⟩)⟩
  · have hsum : fp32.add acc (blockProduct bi ea eb).1 = infResult fp32 n := add_special (by rw [hn, hfin]; rfl)
    rw [accFloat_eq hbi, hsum, sat32_infResult, eq_of_dec_inf hacc hn]
    simp [infResult]
  · have hsum : fp32.add acc (blockProduct bi ea eb).1 = nanResult fp32 n := add_special (by rw [hn, hfin]; rfl)
    rw [accFloat_eq hbi, hsum, sat32_nanResult]
    rfl

/-! ## A Hadamard sum (R58) -/

/-- The exact sum of values, from the first on. -/
def sumFrom (a : Option FVal) (l : List FVal) : Option FVal := l.foldl (fun a v => a.bind fun x => x.addV v) a

theorem sumFrom_cons (a : FVal) (v : FVal) (l : List FVal) : sumFrom (some a) (v :: l) = sumFrom (a.addV v) l := rfl

theorem sumFrom_none (l : List FVal) : sumFrom none l = none := by
  induction l with
  | nil => rfl
  | cons v l ih => exact ih

theorem sumFrom_fin {l : List FVal} {a : FVal} (ha : isFin a) (hl : ∀ v ∈ l, isFin v) :
    ∃ v, sumFrom (some a) l = some v ∧ isFin v ∧ ratio v = ratio a + (l.map ratio).sum := by
  induction l generalizing a with
  | nil => exact ⟨a, rfl, ha, by simp⟩
  | cons b l ih =>
    obtain ⟨v, hv, hvf, hvr, -⟩ := addV_fin ha (hl b List.mem_cons_self)
    obtain ⟨w, hw, hwf, hwr⟩ := ih hvf fun v hv => hl v (List.mem_cons_of_mem _ hv)
    exact ⟨w, by rw [sumFrom_cons, hv, hw], hwf, by rw [hwr, hvr, List.map_cons, List.sum_cons]; ring⟩

/-- The sum of two values that are no NaN: invalid for two infinities of opposite signs, infinite for another infinity, else finite. -/
theorem addV_cases {a b : FVal} (ha : a.isNaN = false) (hb : b.isNaN = false) :
    (∃ n, a = .inf n ∧ b = .inf (!n) ∧ a.addV b = none) ∨
      (∃ n, (a = .inf n ∨ b = .inf n) ∧ a ≠ .inf (!n) ∧ b ≠ .inf (!n) ∧ a.addV b = some (.inf n)) ∨
      (isFin a ∧ isFin b ∧ ∃ v, a.addV b = some v ∧ isFin v) := by
  rcases a with s | n | ⟨n, m, e⟩
  · cases ha
  · rcases b with s | k | ⟨k, p, q⟩
    · cases hb
    · rcases Bool.eq_or_eq_not k n with rfl | rfl
      · exact .inr (.inl ⟨k, by simp [FVal.addV]⟩)
      · exact .inl ⟨n, by simp [FVal.addV]⟩
    · exact .inr (.inl ⟨n, by simp [FVal.addV]⟩)
  · rcases b with s | k | ⟨k, p, q⟩
    · cases hb
    · exact .inr (.inl ⟨k, by simp [FVal.addV]⟩)
    · obtain ⟨v, hv, hf, -⟩ := addV_fin (x := .fin n m e) (y := .fin k p q) ⟨_, _, _, rfl⟩ ⟨_, _, _, rfl⟩
      exact .inr (.inr ⟨⟨_, _, _, rfl⟩, ⟨_, _, _, rfl⟩, v, hv, hf⟩)

theorem inf_ne_of_isFin {a : FVal} (h : isFin a) (n : Bool) : a ≠ .inf n := by
  obtain ⟨b, m, e, rfl⟩ := h
  exact FVal.noConfusion

/-- Infinities of one sign make the sum infinite, those of both signs invalid. -/
theorem sumFrom_inf {l : List FVal} {a : FVal} (hn : ∀ v ∈ a :: l, v.isNaN = false) (n : Bool) (h : FVal.inf n ∈ a :: l) :
    (FVal.inf (!n) ∉ a :: l → sumFrom (some a) l = some (.inf n)) ∧ (FVal.inf (!n) ∈ a :: l → sumFrom (some a) l = none) := by
  induction l generalizing a with
  | nil =>
    obtain rfl : FVal.inf n = a := by simpa using h
    exact ⟨fun _ => rfl, fun h' => by simp at h'⟩
  | cons b l ih =>
    have hna := hn a List.mem_cons_self
    have hnb := hn b (List.mem_cons_of_mem _ List.mem_cons_self)
    have hnl : ∀ v ∈ l, v.isNaN = false := fun v hv => hn v (by simp [hv])
    have hmem : ∀ v, v ∈ a :: b :: l ↔ v = a ∨ v = b ∨ v ∈ l := fun v => by simp
    rw [sumFrom_cons]
    rcases addV_cases hna hnb with ⟨k, rfl, rfl, hsum⟩ | ⟨k, hab, hak, hbk, hsum⟩ | ⟨hfa, hfb, v, hsum, hfv⟩
    · rw [hsum, sumFrom_none]
      refine ⟨fun hno => absurd ?_ hno, fun _ => rfl⟩
      rcases Bool.eq_or_eq_not k n with rfl | rfl <;> simp
    · rw [hsum]
      have hcons : ∀ v ∈ FVal.inf k :: l, v.isNaN = false := by simpa using hnl
      have hsame : ∀ m, FVal.inf m ∈ FVal.inf k :: l ↔ FVal.inf m ∈ a :: b :: l := fun m => by
        rw [hmem, List.mem_cons]
        constructor
        · rintro (he | hl)
          · rcases hab with rfl | rfl
            · exact .inl he
            · exact .inr (.inl he)
          · exact .inr (.inr hl)
        · rintro (he | he | hl)
          · rcases Bool.eq_or_eq_not m k with rfl | rfl
            · exact .inl rfl
            · exact absurd he.symm hak
          · rcases Bool.eq_or_eq_not m k with rfl | rfl
            · exact .inl rfl
            · exact absurd he.symm hbk
          · exact .inr hl
      rw [← hsame (!n)]
      exact ih hcons ((hsame n).mpr h)
    · rw [hsum]
      have hcons : ∀ u ∈ v :: l, u.isNaN = false := by simpa [isNaN_of_isFin hfv] using hnl
      have hsame : ∀ m, FVal.inf m ∈ v :: l ↔ FVal.inf m ∈ a :: b :: l := fun m => by
        simp [hmem, (inf_ne_of_isFin hfa m).symm, (inf_ne_of_isFin hfb m).symm, (inf_ne_of_isFin hfv m).symm]
      rw [← hsame (!n)]
      exact ih hcons ((hsame n).mpr h)

/-- The values of a signed sum. -/
def signedVals (l : List (Nat × Bool)) : List FVal := l.map fun p => if p.2 then (fp32.dec p.1).neg else fp32.dec p.1

theorem hsumFloat_eq {l : List (Nat × Bool)} {a : FVal} {vs : List FVal} (h : signedVals l = a :: vs) :
    hsumFloat l = sat32 (fp32.withNaN (a :: vs) (sumFrom (some a) vs)) := by
  rw [← h]
  show sat32 (fp32.withNaN (signedVals l) (sumFrom (signedVals l).head? (signedVals l).tail)) = _
  rw [h]
  rfl

theorem hadamardSums {l : List (Nat × Bool)} {vs : List FVal} (hne : l ≠ []) (hvs : vs = signedVals l) :
    ((∀ v ∈ vs, isFin v) → ((vs.map ratio).sum ≠ 0 → satRounded (vs.map ratio).sum (hsumFloat l)) ∧
      ((vs.map ratio).sum = 0 → (hsumFloat l).1 % 2 ^ 31 = 0 ∧ (hsumFloat l).2 = 0)) ∧
    ((∃ v ∈ vs, v.isNaN = true) → (hsumFloat l).1 = fp32.qnan) ∧
    ((∀ v ∈ vs, v.isNaN = false) → FVal.inf true ∈ vs → FVal.inf false ∈ vs → hsumFloat l = (fp32.qnan, flNV)) ∧
    (∀ n, (∀ v ∈ vs, v.isNaN = false) → FVal.inf n ∈ vs → FVal.inf (!n) ∉ vs → hsumFloat l = infResult fp32 n) := by
  obtain ⟨a, rest, hl⟩ : ∃ a rest, signedVals l = a :: rest := List.exists_cons_of_ne_nil (by simpa [signedVals] using hne)
  rw [hvs, hl, hsumFloat_eq hl]
  refine ⟨fun hfin => ?_, fun ⟨v, hv, hnan⟩ => ?_, fun hnan ht hf => ?_, fun n hnan hin hout => ?_⟩
  · obtain ⟨v, hv, hvf, hvr⟩ := sumFrom_fin (hfin a List.mem_cons_self) fun v hv => hfin v (List.mem_cons_of_mem _ hv)
    rw [withNaN_of_none fun v hv => isNaN_of_isFin (hfin v hv), hv]
    obtain ⟨h1, h2⟩ := sat32_exactly (exactly_enc isFormat_fp32 hvf (x := ((a :: rest).map ratio).sum) (neg := v.sign)
      (by simpa using hvr) fun _ => rfl)
    refine ⟨h1, fun h0 => ?_⟩
    rw [FFmt.result, h2 h0]
    cases v.sign <;> decide
  · rw [withNaN_of_some (List.any_eq_true.mpr ⟨v, hv, hnan⟩), sat32_nanResult]
    rfl
  · rw [withNaN_of_none hnan, (sumFrom_inf hnan true ht).2 hf, result_none, sat32_nanResult]
    rfl
  · rw [withNaN_of_none hnan, (sumFrom_inf hnan n hin).1 hout, result_inf noInf_fp32, sat32_infResult]

theorem accumulatorSums : AccumulatorSums :=
  ⟨accFloat_zero, fun _ _ _ _ hbi hacc => accFloat_sums hbi hacc, fun _ _ hne hvs => hadamardSums hne hvs⟩

end Sys2Proof.Proofs


/-! One element of a drain (R40, R48, R288). -/

namespace Sys2Proof.Proofs
open Sys2Proof.Machine Sys2Proof.Claims

/-! ## Integers of a range (R48) -/

theorem nearest_neg {x : ℚ} {n : ℤ} (h : nearest x n) : nearest (-x) (-n) := by
  have habs : |(-x) - ((-n : ℤ) : ℚ)| = |x - n| := by
    rw [← abs_neg]
    push_cast
    ring_nf
  unfold nearest
  rw [habs]
  exact h.imp id fun ⟨h1, h2⟩ => ⟨h1, by omega⟩

/-- A finite value rounded to an integer. -/
theorem rneInt_spec (neg : Bool) (m : Nat) (e : ℤ) : nearest (ratio (.fin neg m e)) (rneInt neg m e).1 ∧
    ((rneInt neg m e).2 = true ↔ ((rneInt neg m e).1 : ℚ) ≠ ratio (.fin neg m e)) := by
  obtain ⟨hn, hx⟩ := rneAt_spec m e 0
  rw [zpow_zero, div_one] at hn hx
  cases neg with
  | false =>
    have hr : ratio (.fin false m e) = m * 2 ^ e := by simp [ratio]
    rw [hr]
    exact ⟨hn, by exact_mod_cast hx⟩
  | true =>
    have hr : ratio (.fin true m e) = -(m * 2 ^ e) := by simp [ratio]
    rw [hr]
    refine ⟨nearest_neg hn, ?_⟩
    simp only [rneInt, if_true, Int.cast_neg, ne_eq, neg_inj]
    exact_mod_cast hx

theorem toRange_toIntSat {lo hi : ℤ} (hlh : lo ≤ hi) (v : FVal) : toRange lo hi v (toIntSat lo hi v).1 (toIntSat lo hi v).2 := by
  have hsa : flSaNx = flSA ||| flNX := by decide
  rcases v with s | n | ⟨n, m, e⟩
  · refine ⟨fun _ _ => ⟨rfl, rfl⟩, fun n h => FVal.noConfusion h, fun ⟨_, _, _, h⟩ => FVal.noConfusion h⟩
  · refine ⟨fun _ h => FVal.noConfusion h, fun k h => ?_, fun ⟨_, _, _, h⟩ => FVal.noConfusion h⟩
    cases h
    exact ⟨rfl, hsa⟩
  · obtain ⟨hn, hx⟩ := rneInt_spec n m e
    refine ⟨fun _ h => FVal.noConfusion h, fun _ h => FVal.noConfusion h, fun _ => ⟨_, hn, fun hlt => ?_, fun hgt => ?_, fun h1 h2 => ?_⟩⟩
    · simp only [toIntSat, if_pos (Or.inl hlt), satI, if_pos hlt]
      exact ⟨trivial, hsa⟩
    · simp only [toIntSat, if_pos (Or.inr hgt), satI, if_neg (show ¬ (rneInt n m e).1 < lo by omega), if_pos hgt]
      exact ⟨trivial, hsa⟩
    · have hin : ¬ ((rneInt n m e).1 < lo ∨ hi < (rneInt n m e).1) := by omega
      simp only [toIntSat, if_neg hin]
      refine ⟨trivial, ?_⟩
      unfold flagIf
      by_cases hb : (rneInt n m e).2 = true
      · rw [if_pos hb, if_neg (hx.mp hb)]
      · rw [if_neg hb, if_pos (not_not.mp (mt hx.mpr hb))]

/-! ## A value written into a format -/

theorem floatOf_some {o : Nat} {g : FFmt} (h : floatOf o = some g) : fmtIsFloat o = true ∧ fmtFloat o = g ∧ IsFormat g := by
  unfold floatOf at h
  split_ifs at h with h0 h1 h2 <;> cases h
  · subst h0; exact ⟨rfl, rfl, by simp [IsFormat]⟩
  · subst h1; exact ⟨rfl, rfl, by simp [IsFormat]⟩
  · subst h2; exact ⟨rfl, rfl, by simp [IsFormat]⟩

theorem encVal_float {o : Nat} {g : FFmt} (h : floatOf o = some g) (v : FVal) : encVal o v = g.enc v := by
  obtain ⟨h1, h2, -⟩ := floatOf_some h
  rw [encVal, if_pos h1, h2]

theorem encVal_plane {o : Nat} (h : o < 8) (v : FVal) : encVal o v = bpEncode (decide (o < 4)) (o % 4 + 1) v := by
  have hsigned : fmtSigned o = decide (o < 4) := by
    unfold fmtSigned
    interval_cases o <;> rfl
  have hfloat : fmtIsFloat o = false := by
    simp [fmtIsFloat]
    omega
  rw [encVal, hfloat, fmtIsPlane, decide_eq_true h, hsigned, fmtPlanes]
  rfl

/-- The integer formats hold their range (R36). -/
theorem encVal_int {o : Nat} (h8 : 0x08 ≤ o) (hE : o ≤ 0x0E) (v : FVal) :
    (fmtRange o).1 ≤ (fmtRange o).2 ∧ encVal o v = (wrapN (fmtBits o) (toIntSat (fmtRange o).1 (fmtRange o).2 v).1,
      (toIntSat (fmtRange o).1 (fmtRange o).2 v).2) := by
  interval_cases o <;> exact ⟨by decide, rfl⟩

/-! ## The value that is written (R288) -/

/-- The value before the target's scale, with the flags of its product. -/
def drainValue (f : DrainForm) (fw : W64) (e : Nat) : FVal × FlagSet :=
  let x := if fwMode fw then fp32.dec e else FVal.ofInt (sextN 64 e)
  if f.uscl then drainScale x f.scl.toNat else (x, 0)

theorem drainElem_eq (f : DrainForm) (fw : W64) (e scale : Nat) : drainElem f fw e scale =
    let r := encVal (fwOfmt fw) (if fmtIsPlane (fwOfmt fw) then (drainValue f fw e).1.scale (127 - (scale : ℤ)) else (drainValue f fw e).1)
    (r.1, r.2 ||| (drainValue f fw e).2) := rfl

/-- The product with SCL is exact, with IEEE's specials (R288). -/
theorem drainScale_spec (x : FVal) (scl : Nat) :
    (isFin x → isFin (fp32.dec scl) → isFin (drainScale x scl).1 ∧ ratio (drainScale x scl).1 = ratio x * ratio (fp32.dec scl) ∧
      (drainScale x scl).1.sign = (x.sign != (fp32.dec scl).sign) ∧ (drainScale x scl).2 = 0) ∧
    ((x.isNaN || (fp32.dec scl).isNaN) = true → (drainScale x scl).1.isNaN = true ∧
      (drainScale x scl).2 = if x.isSNaN || (fp32.dec scl).isSNaN then flNV else 0) ∧
    ((x.isNaN || (fp32.dec scl).isNaN) = false → zeroTimesInf x (fp32.dec scl) = true →
      (drainScale x scl).1.isNaN = true ∧ (drainScale x scl).2 = flNV) ∧
    ∀ n, zeroTimesInf x (fp32.dec scl) = false → infProduct x (fp32.dec scl) = some n →
      (drainScale x scl).1 = .inf n ∧ (drainScale x scl).2 = 0 := by
  unfold drainScale
  generalize fp32.dec scl = y
  refine ⟨fun hx hy => ?_, fun hnan => ?_, fun hnan hz => ?_, fun n _ hp => ?_⟩
  · obtain ⟨v, hv, hf, hr, hs⟩ := mulV_fin hx hy
    simp only [isNaN_of_isFin hx, isNaN_of_isFin hy, Bool.or_self, Bool.false_eq_true, if_false, hv]
    exact ⟨hf, hr, hs, trivial⟩
  · simp only [hnan, if_true]
    exact ⟨rfl, rfl⟩
  · obtain ⟨hm, -⟩ := mulV_zeroTimesInf hz
    simp only [hnan, Bool.false_eq_true, if_false, hm]
    exact ⟨rfl, trivial⟩
  · obtain ⟨hm, hx, hy⟩ := mulV_infProduct hp
    simp only [hx, hy, Bool.or_self, Bool.false_eq_true, if_false, hm]
    exact ⟨trivial, trivial⟩

theorem scale_of_not_isFin {v : FVal} (h : ¬ isFin v) (k : ℤ) : v.scale k = v := by
  rcases v with s | n | ⟨n, m, e⟩
  · rfl
  · rfl
  · exact absurd ⟨_, _, _, rfl⟩ h

theorem drainElementsRoundOnce : DrainElementsRoundOnce := by
  intro f fw e scale _ _ x y o
  have hint : sextN 64 e = int64 e := sextN_eq_toInt (by decide) e
  have hval : drainValue f fw e = if f.uscl then drainScale x f.scl.toNat else (x, 0) := by
    rw [drainValue, hint]
  refine ⟨(drainValue f fw e).1, (drainValue f fw e).2, fun hu => ?_, fun hu => ?_, fun hp => ?_, fun hp => ?_⟩
  · rw [hval, hu]
    exact ⟨rfl, rfl⟩
  · rw [hval, if_pos hu]
    exact drainScale_spec x f.scl.toNat
  · refine ⟨(drainValue f fw e).1.scale (127 - (scale : ℤ)), fun hv => ⟨isFin_scale hv _, ratio_scale _ _⟩,
      fun hv => scale_of_not_isFin hv _, ?_⟩
    rw [drainElem_eq, if_pos hp, encVal_plane (by simpa [fmtIsPlane] using hp)]
  · refine ⟨encVal o (drainValue f fw e).1, ?_, fun g hg => ?_, fun h8 hE => ?_⟩
    · rw [drainElem_eq, if_neg (by simpa using hp)]
    · rw [encVal_float hg]
      refine ⟨fun hv => exactly_enc (floatOf_some hg).2.2 hv rfl fun _ => rfl, fun n hn => ?_, fun hn => ?_⟩
      · rw [hn, enc_inf]
      · obtain ⟨s, hs⟩ : ∃ s, (drainValue f fw e).1 = .nan s := by
          cases hd : (drainValue f fw e).1 with
          | nan s => exact ⟨s, rfl⟩
          | inf n => simp [hd] at hn
          | fin n m k => simp [hd] at hn
        rw [hs, enc_nan]
        rfl
    · obtain ⟨hle, henc⟩ := encVal_int h8 hE (drainValue f fw e).1
      rw [henc]
      exact ⟨_, toRange_toIntSat hle _, rfl⟩

end Sys2Proof.Proofs


/-! The tiles and outputs that matrix commands compute (R53, R57, R58, R284, R285, R287 to R290). -/

namespace Sys2Proof.Proofs
open Sys2Proof.Machine Sys2Proof.Claims

/-! ## Elements of a tile -/

theorem sat64_eq (x : ℤ) : (sat64 x).1 = bits64 (acc64 x) := by
  have hsat : satI x (-(2 ^ 63 : Nat)) ((2 ^ 63 - 1 : Nat) : ℤ) = acc64 x := by
    unfold satI acc64
    split_ifs <;> omega
  show wrapN 64 (satI x (-(2 ^ 63 : Nat)) ((2 ^ 63 - 1 : Nat) : ℤ)) = _
  rw [hsat, wrapN_eq_ofInt]
  rfl

theorem sextN_64 (n : Nat) : sextN 64 n = int64 n := sextN_eq_toInt (by decide) n

/-- One element of a tile. -/
def tileAt (f32 : Bool) (bs : List Byte) (q : Nat) : Nat := leNat ((bs.drop ((if f32 then 4 else 8) * q)).take (if f32 then 4 else 8))

theorem tileElems_eq (f32 : Bool) (bs : List Byte) : tileElems f32 bs = (List.range 1024).map (tileAt f32 bs) := rfl

theorem getD_map_range {n q : Nat} (h : q < n) (g : Nat → Nat) (d : Nat) : ((List.range n).map g).getD q d = g q := by
  simp [List.getD_eq_getElem?_getD, h]

theorem withFlags_map (n : Nat) (g : Nat → Nat × FlagSet) : (withFlags ((List.range n).map g)).1 = (List.range n).map fun q => (g q).1 := by
  simp [withFlags, Function.comp_def]

/-- Bytes of 1024 elements written to tile ACC are the tile's result. -/
theorem tileResult_of_eq {j : Job} {u : MxRun} {acc : Byte} {f32 : Bool} {l : List Nat} {val : Nat → Nat}
    (hw : u.writes = placed (tileRange j acc f32).1 (tileBytes f32 l)) (hl : l = (List.range 1024).map val) : tileResult j u acc f32 val := by
  rw [tileResult, hw, hl]

/-- Two ways to give the elements of a tile. -/
theorem map_range_congr {n : Nat} {g h : Nat → Nat} (hgh : ∀ q < n, g q = h q) : (List.range n).map g = (List.range n).map h :=
  List.map_congr_left fun q hq => hgh q (List.mem_range.mp hq)

/-! ## Hadamard tiles (R57, R58, R287) -/

theorem neg_one_pow_countP (p : Nat → Bool) (l : List Nat) (a : Bool) :
    (if l.foldl (fun a k => a != p k) a then (-1 : ℤ) else 1) = (if a then -1 else 1) * (-1) ^ l.countP p := by
  induction l generalizing a with
  | nil => cases a <;> rfl
  | cons k l ih =>
    rw [List.foldl_cons, ih, List.countP_cons]
    cases a <;> cases p k <;> simp [pow_succ]

theorem hadamard_eq (i j : Nat) : hadamard i j = if hadamardNeg i j then -1 else 1 := by
  have h := neg_one_pow_countP (fun k => i.testBit k && j.testBit k) (List.range 5) false
  rw [if_neg Bool.false_ne_true, one_mul] at h
  exact h.symm

theorem decide_hadamard (i j : Nat) : decide (hadamard i j = -1) = hadamardNeg i j := by
  rw [hadamard_eq]
  cases hadamardNeg i j <;> rfl

theorem hsumInt_eq (l : List (Nat × Bool)) : (hsumInt l).1 = bits64 (acc64 (l.map fun p => if p.2 then -int64 p.1 else int64 p.1).sum) := by
  have hfold : ∀ (l : List (Nat × Bool)) (a : ℤ), l.foldl (fun s p => if p.2 then s - sextN 64 p.1 else s + sextN 64 p.1) a =
      a + (l.map fun p => if p.2 then -int64 p.1 else int64 p.1).sum := by
    intro l
    induction l with
    | nil => simp
    | cons p l ih =>
      intro a
      rw [List.foldl_cons, ih, List.map_cons, List.sum_cons, sextN_64]
      split <;> ring
  rw [hsumInt, sat64_eq, hfold, zero_add]

theorem hrotTile_int (side : Bool) (bs : List Byte) : (hrotTile false side (tileElems false bs)).1 = (List.range 1024).map fun q =>
    bits64 (acc64 ((List.range 32).map fun k =>
      if side then hadamard (q / 32) k * int64 ((tileElems false bs).getD (32 * k + q % 32) 0)
      else int64 ((tileElems false bs).getD (32 * (q / 32) + k) 0) * hadamard k (q % 32)).sum) := by
  rw [hrotTile, withFlags_map]
  refine map_range_congr fun q _ => ?_
  rw [if_neg Bool.false_ne_true, hsumInt_eq, List.map_map]
  refine congrArg (fun l : List ℤ => bits64 (acc64 l.sum)) (List.map_congr_left fun k _ => ?_)
  cases side with
  | true =>
    rw [Function.comp_apply, if_pos rfl, if_pos rfl, hadamard_eq]
    split <;> ring
  | false =>
    rw [Function.comp_apply, if_neg Bool.false_ne_true, if_neg Bool.false_ne_true, hadamard_eq]
    split <;> ring

theorem hrotTile_float (side : Bool) (bs : List Byte) : (hrotTile true side (tileElems true bs)).1 = (List.range 1024).map fun q =>
    (hsumFloat ((List.range 32).map fun k =>
      if side then ((tileElems true bs).getD (32 * k + q % 32) 0, decide (hadamard (q / 32) k = -1))
      else ((tileElems true bs).getD (32 * (q / 32) + k) 0, decide (hadamard k (q % 32) = -1)))).1 := by
  rw [hrotTile, withFlags_map]
  simp only [decide_hadamard]
  rfl

/-! ## `accadd` (R290) -/

theorem accaddTile (f32 : Bool) (as bs : List Byte) :
    (withFlags (((tileElems f32 as).zip (tileElems f32 bs)).map fun v => accaddElem f32 v.1 v.2)).1 = (List.range 1024).map fun q =>
      let a := (tileElems f32 as).getD q 0
      let b := (tileElems f32 bs).getD q 0
      if f32 then (if b % 2 ^ 31 = 0 then a else (sat32 (fp32.add a b)).1) else bits64 (acc64 (int64 a + int64 b)) := by
  rw [tileElems_eq, tileElems_eq, zip_map_range, List.map_map]
  refine (withFlags_map 1024 _).trans (map_range_congr fun q hq => ?_)
  rw [getD_map_range hq, getD_map_range hq]
  cases f32 with
  | true =>
    simp only [Function.comp_apply, accaddElem, if_true]
    split <;> rfl
  | false => simp only [Function.comp_apply, accaddElem, Bool.false_eq_true, if_false, sat64_eq, sextN_64]

/-! ## `drain` (R288) -/

theorem zipIdx_map_range (n : Nat) (g : Nat → Nat) : ((List.range n).map g).zipIdx = (List.range n).map fun q => (g q, q) := by
  refine List.ext_getElem (by simp) fun i h1 h2 => ?_
  simp

/-- The elements of a drain's output. -/
theorem drainElems_eq (f : DrainForm) (r : MxRun) :
    (withFlags ((tileElems (fwMode r.fmt) r.acc0).zipIdx.map fun p => drainElem f r.fmt p.1 (r.scaleA.getD (p.2 / 32) 0x7F).toNat)).1 =
      (List.range 1024).map fun q =>
        (drainElem f r.fmt ((tileElems (fwMode r.fmt) r.acc0).getD q 0) (r.scaleA.getD (q / 32) 0x7F).toNat).1 := by
  rw [tileElems_eq, zipIdx_map_range, List.map_map]
  refine (withFlags_map 1024 _).trans (map_range_congr fun q hq => ?_)
  rw [getD_map_range hq]
  rfl

/-- A list of `n` groups of `w` as one list. -/
theorem flatMap_range {β : Type} (w n : Nat) (g : Nat → β) :
    ((List.range n).flatMap fun m => (List.range w).map fun b => g (w * m + b)) = (List.range (n * w)).map g := by
  induction n with
  | zero => simp
  | succ n ih =>
    rw [List.range_succ, List.flatMap_append, ih, Nat.succ_mul, List.range_add, List.map_append]
    simp [Function.comp_def, Nat.mul_comm]

/-- A plane block, byte by byte: two digits of a plane, or padding. -/
theorem planeBlock_eq_map {n : Nat} (hn : n ≤ 4) (el : Nat → Nat) : planeBlock n el = (List.range (planeStride n)).map fun b =>
    if b < 16 * n then BitVec.ofNat 8 (el (2 * (b % 16)) / 16 ^ (n - 1 - b / 16) % 16 + 16 * (el (2 * (b % 16) + 1) / 16 ^ (n - 1 - b / 16) % 16))
    else 0 := by
  refine List.ext_getElem? fun b => ?_
  by_cases hb : b < planeStride n
  · rw [List.getElem?_map, List.getElem?_range hb, Option.map_some]
    split
    next h =>
      have := getElem?_planeBlock (n := n) (j := b / 16) (k := b % 16) (by omega) (by omega) el
      rwa [Nat.div_add_mod] at this
    next h => exact getElem?_planeBlock_pad (by omega) hb el
  · rw [List.getElem?_eq_none (by rw [length_planeBlock hn]; omega), List.getElem?_eq_none (by simp; omega)]

theorem planeBlock_congr {n : Nat} (hn : n ≤ 4) {el el' : Nat → Nat} (h : ∀ i < 32, el i = el' i) : planeBlock n el = planeBlock n el' := by
  rw [planeBlock_eq_map hn, planeBlock_eq_map hn]
  refine List.map_congr_left fun b _ => ?_
  rw [h _ (by omega), h _ (by omega)]

/-- The plane blocks of 32 rows of digits. -/
theorem planeRows_eq {n : Nat} (hn : n ≤ 4) (el : Nat → Nat → Nat) :
    ((List.range 32).flatMap fun m => planeBlock n (el m)) = (List.range (32 * planeStride n)).map fun q =>
      if q % planeStride n < 16 * n then
        BitVec.ofNat 8 (el (q / planeStride n) (2 * (q % planeStride n % 16)) / 16 ^ (n - 1 - q % planeStride n / 16) % 16 +
          16 * (el (q / planeStride n) (2 * (q % planeStride n % 16) + 1) / 16 ^ (n - 1 - q % planeStride n / 16) % 16))
      else 0 := by
  rw [← flatMap_range]
  refine List.flatMap_congr fun m _ => ?_
  rw [planeBlock_eq_map hn]
  refine List.map_congr_left fun b hb => ?_
  have hb := List.mem_range.mp hb
  rw [Nat.mul_add_mod, Nat.mod_eq_of_lt hb, Nat.mul_add_div (planeStride_pos n), Nat.div_eq_of_lt hb]
  rfl

/-- What a drain that clears its tile writes there. -/
def drainClear (j : Job) (r : MxRun) (f : DrainForm) : List (Nat × Byte) :=
  if f.clr then placed (tileRange j f.acc (fwMode r.fmt)).1 (List.replicate (tileRange j f.acc (fwMode r.fmt)).2 0) else []

theorem drainResult_bytes (j : Job) (r : MxRun) (f : DrainForm) (h : fmtIsPlane (fwOfmt r.fmt) = false) :
    (drainResult j r f).writes = placed f.dst.toNat ((List.range 1024).flatMap fun q => leBytes (fmtBytes (fwOfmt r.fmt))
      (drainElem f r.fmt ((tileElems (fwMode r.fmt) r.acc0).getD q 0) (r.scaleA.getD (q / 32) 0x7F).toNat).1) ++ drainClear j r f := by
  simp only [drainResult, h, Bool.false_eq_true, if_false, drainElems_eq, List.flatMap_map, drainClear]

theorem drainResult_planes (j : Job) (r : MxRun) (f : DrainForm) (h : fmtIsPlane (fwOfmt r.fmt) = true) :
    (drainResult j r f).writes = placed f.dst.toNat
      (let n := fmtPlanes (fwOfmt r.fmt)
      let dig (m i j : Nat) : Nat := (drainElem f r.fmt ((tileElems (fwMode r.fmt) r.acc0).getD (32 * m + i) 0)
        (r.scaleA.getD m 0x7F).toNat).1 / 16 ^ (n - 1 - j) % 16
      (List.range (32 * planeStride n)).map fun q =>
        let m := q / planeStride n
        let b := q % planeStride n
        if b < 16 * n then BitVec.ofNat 8 (dig m (2 * (b % 16)) (b / 16) + 16 * dig m (2 * (b % 16) + 1) (b / 16)) else 0) ++
      drainClear j r f := by
  have hn : fmtPlanes (fwOfmt r.fmt) ≤ 4 := by
    unfold fmtPlanes
    omega
  have hrows : ((List.range 32).flatMap fun m => planeBlock (fmtPlanes (fwOfmt r.fmt)) fun i => ((List.range 1024).map fun q =>
      (drainElem f r.fmt ((tileElems (fwMode r.fmt) r.acc0).getD q 0) (r.scaleA.getD (q / 32) 0x7F).toNat).1).getD (32 * m + i) 0) =
      (List.range 32).flatMap fun m => planeBlock (fmtPlanes (fwOfmt r.fmt)) fun i =>
        (drainElem f r.fmt ((tileElems (fwMode r.fmt) r.acc0).getD (32 * m + i) 0) (r.scaleA.getD m 0x7F).toNat).1 := by
    refine List.flatMap_congr fun m hm => planeBlock_congr hn fun i hi => ?_
    have := List.mem_range.mp hm
    rw [getD_map_range (by omega), show (32 * m + i) / 32 = m by omega]
  simp only [drainResult, h, if_true, drainElems_eq]
  refine congrArg (fun l => placed f.dst.toNat l ++ drainClear j r f) (hrows.trans (planeRows_eq hn _))

end Sys2Proof.Proofs


/-! The product of a multiply (R52 to R54, R273, R284, R285): block sums, the values that sparse columns meet, and the tile. -/

namespace Sys2Proof.Proofs
open Sys2Proof.Machine Sys2Proof.Claims

/-! ## Values of a block (R273) -/

theorem length_indicesOf (w : Nat) (bs : List Byte) : (indicesOf w bs).length = 8 * bs.length / w := by simp [indicesOf]

/-- A block has 32 values; where its bytes end early, fewer. -/
theorem length_blockVals (c n : Nat) (vq : Bool) (code : List (BitVec 16)) {bs : List Byte} (h : bs.length ≤ (opInfo c vq).stride) :
    (blockVals (opInfo c vq) n code bs).length ≤ 32 ∧
      ((opInfo c vq).w = 0 ∨ bs.length = (opInfo c vq).stride → (blockVals (opInfo c vq) n code bs).length = 32) := by
  by_cases h8 : c < 8
  · simp [opInfo, blockVals, h8]
  · have hw : (opInfo c vq).w = 4 ∨ (opInfo c vq).w = 6 ∨ (opInfo c vq).w = 8 := by
      unfold opInfo
      rw [if_neg h8]
      split_ifs <;> simp
    have hw0 : (opInfo c vq).w ≠ 0 := by omega
    have hstride : (opInfo c vq).stride = if (opInfo c vq).vq then (opInfo c vq).w else 4 * (opInfo c vq).w := by
      unfold opInfo
      rw [if_neg h8]
      cases vq <;> rfl
    have hcount : (blockVals (opInfo c vq) n code bs).length = (if (opInfo c vq).vq then 4 else 1) * (8 * bs.length / (opInfo c vq).w) := by
      unfold blockVals
      rw [if_neg hw0]
      split
      · rw [length_flatMap_const (w := 4) fun _ => by simp, length_indicesOf]
      · rw [List.length_map, length_indicesOf, Nat.one_mul]
    rw [hcount]
    generalize (opInfo c vq).stride = st at *
    generalize (opInfo c vq).w = w at *
    generalize (opInfo c vq).vq = q at *
    subst hstride
    cases q <;> simp only [if_true, Bool.false_eq_true, if_false] at h ⊢ <;> rcases hw with rfl | rfl | rfl <;> omega

theorem blockVals_nil {c n : Nat} {vq : Bool} {code : List (BitVec 16)} (h : (opInfo c vq).w ≠ 0) :
    blockVals (opInfo c vq) n code [] = [] := by
  have hnil : indicesOf (opInfo c vq).w [] = [] := by simp [indicesOf]
  simp [blockVals, h, hnil]

/-- Block `b` of row `m` of an operand, as its bytes give it. -/
theorem operandVals_block {o : OpInfo} {n k : Nat} {code : List (BitVec 16)} {bs : List Byte} {m b : Nat} (hm : m < 32) (hb : b < k) :
    ((operandVals o n k code bs).getD m []).getD b [] = blockVals o n code ((bs.drop ((m * k + b) * o.stride)).take o.stride) := by
  simp [operandVals, List.getD_eq_getElem?_getD, hm, hb]

theorem length_operandVals {c n k : Nat} {vq : Bool} {code : List (BitVec 16)} {bs : List Byte} (m b : Nat) :
    (((operandVals (opInfo c vq) n k code bs).getD m []).getD b []).length ≤ 32 := by
  by_cases hm : m < 32
  · by_cases hb : b < k
    · rw [operandVals_block hm hb]
      exact (length_blockVals c n vq code (List.length_take_le _ _)).1
    · have hrow : ((operandVals (opInfo c vq) n k code bs).getD m []).length ≤ b := by
        simp [operandVals, List.getD_eq_getElem?_getD, hm]
        omega
      rw [List.getD_eq_getElem?_getD, List.getElem?_eq_none hrow]
      exact Nat.zero_le _
  · simp [operandVals, List.getD_eq_getElem?_getD, hm]

/-- Two blocks in a row as one list: the second is empty where the first ends early. -/
theorem getD_two_blocks {c n k : Nat} {vq : Bool} {code : List (BitVec 16)} {bs : List Byte} {m b i : Nat} (hm : m < 32) (hb : b + 1 < k) :
    (((operandVals (opInfo c vq) n k code bs).getD m []).getD b [] ++ ((operandVals (opInfo c vq) n k code bs).getD m []).getD (b + 1) []).getD i 0 =
      if i < 32 then valueAt (operandVals (opInfo c vq) n k code bs) m b i
      else valueAt (operandVals (opInfo c vq) n k code bs) m (b + 1) (i - 32) := by
  simp only [valueAt]
  rw [operandVals_block hm (by omega), operandVals_block hm hb]
  obtain ⟨hle, hfull⟩ := length_blockVals c n vq code (bs := (bs.drop ((m * k + b) * (opInfo c vq).stride)).take (opInfo c vq).stride)
    (List.length_take_le _ _)
  by_cases h : (opInfo c vq).w = 0 ∨ ((bs.drop ((m * k + b) * (opInfo c vq).stride)).take (opInfo c vq).stride).length = (opInfo c vq).stride
  · have hlen := hfull h
    split
    next hi => rw [List.getD_append _ _ _ _ (hlen.symm ▸ hi)]
    next hi => rw [List.getD_append_right _ _ _ _ (hlen.symm ▸ not_lt.mp hi), hlen]
  · obtain ⟨hw, hshort⟩ := not_or.mp h
    have hend : (bs.drop ((m * k + (b + 1)) * (opInfo c vq).stride)).take (opInfo c vq).stride = [] := by
      rw [List.length_take, List.length_drop] at hshort
      rw [List.drop_eq_nil_of_le, List.take_nil]
      rw [← Nat.add_assoc, Nat.add_mul, Nat.one_mul]
      omega
    rw [hend, blockVals_nil hw, List.append_nil]
    split
    next => rfl
    next hi =>
      rw [List.getD_eq_getElem?_getD, List.getElem?_eq_none (by omega)]
      simp

/-! ## The sum of a block (R52) -/

theorem dotInt_eq {a b : List ℤ} (ha : a.length ≤ 32) (hb : b.length ≤ 32) : dotInt a b = blockSum (fun i => a.getD i 0) fun i => b.getD i 0 := by
  have hfold : ∀ (l : List (ℤ × ℤ)) (s : ℤ), l.foldl (fun s p => s + p.1 * p.2) s = s + (l.map fun p => p.1 * p.2).sum := by
    intro l
    induction l with
    | nil => simp
    | cons p l ih => intro s; rw [List.foldl_cons, ih, List.map_cons, List.sum_cons]; ring
  have hzip : ∀ (n : Nat) (a b : List ℤ), a.length ≤ n → b.length ≤ n →
      ((a.zip b).map fun p => p.1 * p.2).sum = ((List.range n).map fun i => a.getD i 0 * b.getD i 0).sum := by
    intro n
    induction n with
    | zero =>
      intro a b ha _
      simp [List.length_eq_zero_iff.mp (Nat.le_zero.mp ha)]
    | succ n ih =>
      intro a b ha hb
      rw [List.range_succ_eq_map]
      cases a with
      | nil => simp [Function.comp_def]
      | cons x a =>
        cases b with
        | nil => simp [Function.comp_def]
        | cons y b =>
          have := ih a b (by simpa using ha) (by simpa using hb)
          simp only [List.zip_cons_cons, List.map_cons, List.sum_cons, this, List.map_map, Function.comp_def]
          simp
  rw [dotInt, hfold, zero_add, hzip 32 a b ha hb]
  rfl

/-! ## Metadata (R285) -/

theorem keptAt_getD (md : Nat) {i : Nat} (h : i < 32) :
    (keptAt md).getD i 0 = 4 * (i / 2) + if i % 2 = 0 then groupOf md (i / 2) % 4 else groupOf md (i / 2) / 4 := by
  rw [keptAt, getD_map_range h]
  rfl

theorem kept_lt (md i : Nat) (h : i < 32) : 4 * (i / 2) + (if i % 2 = 0 then groupOf md (i / 2) % 4 else groupOf md (i / 2) / 4) < 64 := by
  have : groupOf md (i / 2) < 16 := Nat.mod_lt _ (by decide)
  split <;> omega

/-- No reserved group: none is found. -/
theorem sparseBad_eq_none {kb : Nat} {md : List Nat} (h : ∀ i d : Nat, md[i]? = some d → ∀ g < 16, groupOf d g % 4 < groupOf d g / 4) :
    sparseBad kb md = none := by
  rw [sparseBad, List.findSome?_eq_none_iff]
  rintro ⟨i, g, nib⟩ hv
  simp only [List.mem_flatMap, List.mem_map, List.mem_range, Prod.mk.injEq] at hv
  obtain ⟨⟨d, j⟩, hd, k, hk, rfl, rfl, rfl⟩ := hv
  have := h j d (List.mem_zipIdx_iff_getElem?.mp hd) k hk
  exact if_neg (not_le.mpr this)

/-- The number of a command's operation (R269). -/
def opOf (sparse : Bool) : Nat := if sparse then 2 else 1

/-- The metadata dwords as the sender reads them. -/
theorem bSide_md (s : State) (c : CtxId) (j : Job) (r : MxRun) (f : MulForm) :
    (bSide (s.ctx c) s.clk j r f (opOf true)).md =
      (List.range (32 * (f.kbm1.toNat + 1))).map fun i => leNat ((s.ctx c).poolGet s.clk (f.mdat.toNat + 8 * i) 8) := by
  rw [← numsOf_poolGet _ _ _ _ (by decide), ← Nat.mul_assoc]
  rfl

theorem bSide_md_dense (x : Context) (clk : Nat) (j : Job) (r : MxRun) (f : MulForm) : (bSide x clk j r f (opOf false)).md = [] := rfl

theorem sparseBad_of_metaOk {s : State} {c : CtxId} {j : Job} {r : MxRun} {f : MulForm} {sparse : Bool} (h : sparse = true → metaOk s c f) :
    sparseBad (f.kbm1.toNat + 1) (bSide (s.ctx c) s.clk j r f (opOf sparse)).md = none := by
  cases sparse with
  | false => exact sparseBad_eq_none fun i d hd => by simp [bSide_md_dense] at hd
  | true =>
    refine sparseBad_eq_none fun i d hd g hg => ?_
    rw [bSide_md, List.getElem?_map, Option.map_eq_some_iff] at hd
    obtain ⟨i', hi, rfl⟩ := hd
    obtain ⟨hlt, rfl⟩ := List.getElem?_eq_some_iff.mp hi
    rw [List.getElem_range]
    rw [List.length_range] at hlt
    have hmeta := h rfl (i / (f.kbm1.toNat + 1)) (i % (f.kbm1.toNat + 1)) g (Nat.div_lt_of_lt_mul (by rwa [Nat.mul_comm]))
      (Nat.mod_lt _ (Nat.succ_pos _)) hg
    rwa [metaAt, Nat.div_add_mod'] at hmeta

/-! ## The tile (R284, R285) -/

theorem aBlock_sparse (kb : Nat) (row : List (List ℤ)) (md : List Nat) (n b : Nat) : aBlock (opOf true) kb row md n b =
    (keptAt (md.getD (n * kb + b) 0)).map fun k => (row.getD (2 * b) [] ++ row.getD (2 * b + 1) []).getD k 0 := rfl

theorem getD_map {l : List Nat} {i : Nat} (h : i < l.length) (g : Nat → ℤ) : (l.map g).getD i 0 = g (l.getD i 0) := by
  simp [List.getD_eq_getElem?_getD, h]

/-- What a column's block meets of an A row. -/
theorem aBlock_getD {s : State} {cb : CtxId} {jb : Job} {rb : MxRun} {fb : MulForm} {sparse vq : Bool} {c n kb : Nat} {code : List (BitVec 16)}
    {bs : List Byte} {m col k i : Nat} (hkb : fb.kbm1.toNat + 1 = kb) (hm : m < 32) (hn : col < 32) (hk : k < kb) (hi : i < 32) :
    let a := operandVals (opInfo c vq) n (if sparse then 2 * kb else kb) code bs
    (aBlock (opOf sparse) kb (a.getD m []) (bSide (s.ctx cb) s.clk jb rb fb (opOf sparse)).md col k).getD i 0 =
      if sparse then sparseA a (metaAt s cb fb col k) m k i else valueAt a m k i := by
  cases sparse with
  | false => rfl
  | true =>
    have hlt : col * kb + k < 32 * kb := by nlinarith
    have hmd : (bSide (s.ctx cb) s.clk jb rb fb (opOf true)).md.getD (col * kb + k) 0 = metaAt s cb fb col k := by
      rw [bSide_md, hkb, getD_map_range hlt, metaAt, hkb]
    have hkept := kept_lt (metaAt s cb fb col k) i hi
    have hlen : i < (keptAt (metaAt s cb fb col k)).length := by simpa [keptAt] using hi
    dsimp only
    rw [aBlock_sparse, hmd, getD_map hlen, keptAt_getD _ hi, if_pos rfl, if_pos rfl]
    simp only [sparseA]
    generalize 4 * (i / 2) + (if i % 2 = 0 then groupOf (metaAt s cb fb col k) (i / 2) % 4
      else groupOf (metaAt s cb fb col k) (i / 2) / 4) = p at hkept ⊢
    rw [getD_two_blocks hm (by omega)]
    split
    next h => rw [Nat.div_eq_of_lt h, Nat.mod_eq_of_lt h, Nat.add_zero]
    next h => rw [show p / 32 = 1 by omega, show p % 32 = p - 32 by omega]

/-- The flags aside, a fold of values with flags is a fold of values. -/
theorem foldl_fst (step : Nat → Nat → Nat × FlagSet) (l : List Nat) (a : Nat) (fl : FlagSet) :
    (l.foldl (fun s k => ((step s.1 k).1, s.2 ||| (step s.1 k).2)) (a, fl)).1 = l.foldl (fun a k => (step a k).1) a := by
  induction l generalizing a fl with
  | nil => rfl
  | cons k l ih => exact ih _ _

/-- One step of an accumulator element. -/
def accStep (f32 : Bool) (bi : Nat → ℤ) (ea eb : Nat → Nat) (acc k : Nat) : Nat × FlagSet :=
  if f32 then accFloat acc (bi k) (ea k) (eb k) else accInt acc (bi k)

theorem mulElem_eq (f32 : Bool) (kb old : Nat) (bi : Nat → ℤ) (ea eb : Nat → Nat) :
    (List.range kb).foldl (fun acc k => (accStep f32 bi ea eb acc k).1) old = mulElem f32 kb old bi ea eb := by
  cases f32 with
  | true => rfl
  | false =>
    refine List.foldl_ext _ _ _ fun acc k _ => ?_
    rw [accStep, if_neg Bool.false_ne_true, accInt, sat64_eq, sextN_64]

theorem mulElem_congr {f32 : Bool} {kb old : Nat} {bi bi' : Nat → ℤ} {ea eb : Nat → Nat} (h : ∀ k < kb, bi k = bi' k) :
    mulElem f32 kb old bi ea eb = mulElem f32 kb old bi' ea eb := by
  rw [← mulElem_eq, ← mulElem_eq]
  refine List.foldl_ext _ _ _ fun acc k hk => ?_
  rw [accStep, accStep, h k (List.mem_range.mp hk)]

/-- The tile of a multiply, element by element. -/
theorem mulTile_eq (kb op : Nat) (f32 : Bool) (a : List (List (List ℤ))) (b : BSide) (scaleA : List Byte) (acc0 : List Nat) :
    (mulTile kb op f32 a b scaleA acc0).1 = (List.range 1024).map fun q => mulElem f32 kb (acc0.getD q 0)
      (fun k => dotInt (aBlock op kb (a.getD (q / 32) []) b.md (q % 32) k) ((b.vals.getD (q % 32) []).getD k []))
      (fun k => (scaleA.getD (q / 32 * kb + k) 0x7F).toNat) fun k => (b.scale.getD (q % 32 * kb + k) 0x7F).toNat := by
  rw [mulTile, withFlags_map]
  refine map_range_congr fun q _ => ?_
  rw [← mulElem_eq]
  exact foldl_fst (accStep f32 _ _ _) _ _ _

theorem length_aBlock {c n ka kb : Nat} {vq sparse : Bool} {code : List (BitVec 16)} {bs : List Byte} {md : List Nat} (m col k : Nat) :
    (aBlock (opOf sparse) kb ((operandVals (opInfo c vq) n ka code bs).getD m []) md col k).length ≤ 32 := by
  cases sparse with
  | false => exact length_operandVals m k
  | true => simp [aBlock_sparse, keptAt]

/-- A run's result with B of run `rb` is their product (R284, R285). -/
theorem product_mulResult {s : State} {c cb : CtxId} {j jb : Job} {r rb : MxRun} {f fb : MulForm} {sparse : Bool} {free : Nat}
    (hk : f.kbm1 = fb.kbm1) (hm : sparse = true → metaOk s cb fb) :
    product s c cb j jb r rb (mulResult (s.ctx c) s.clk j r f (opOf sparse) (bSide (s.ctx cb) s.clk jb rb fb (opOf sparse)) free) f fb sparse := by
  have hbad : sparseBad (f.kbm1.toNat + 1) (bSide (s.ctx cb) s.clk jb rb fb (opOf sparse)).md = none := by
    rw [hk]
    exact sparseBad_of_metaOk hm
  have hka : (if opOf sparse = 2 then 2 * (f.kbm1.toNat + 1) else f.kbm1.toNat + 1) =
      if sparse then 2 * (f.kbm1.toNat + 1) else f.kbm1.toNat + 1 := by
    cases sparse <;> rfl
  simp only [product, mulResult, hbad, hka, true_and]
  rw [tileResult]
  dsimp only
  rw [mulTile_eq]
  refine congrArg (placed _) (congrArg (tileBytes _) (map_range_congr fun q hq => ?_))
  have hzero : (if f.zacc then [] else tileElems (fwMode r.fmt) r.acc0).getD q 0 =
      if f.zacc then 0 else (tileElems (fwMode r.fmt) r.acc0).getD q 0 := by
    cases f.zacc <;> rfl
  rw [hzero]
  refine mulElem_congr fun k hkb => ?_
  refine (dotInt_eq (length_aBlock (c := fwAfmt r.fmt) (vq := fwAcbf r.fmt) _ _ _)
    (length_operandVals (c := fwBfmt rb.fmt) (vq := fwBcbf rb.fmt) _ _)).trans ?_
  refine congrArg List.sum (List.map_congr_left fun i hi => congrArg₂ (· * ·) ?_ ?_)
  · exact aBlock_getD (c := fwAfmt r.fmt) (vq := fwAcbf r.fmt) (by rw [hk]) (by omega) (by omega) hkb (List.mem_range.mp hi)
  · rw [hk]
    rfl

end Sys2Proof.Proofs


/-! Settles O34: a run as it enters compute, alone or with its crier group, and the clocks in which an operand read is refused (R66, R276,
R279, R282 to R290). -/

namespace Sys2Proof.Proofs
open Sys2Proof.Machine Sys2Proof.Claims

/-! ## Runs of a context -/

theorem mem_of_mxSetup {x : Context} {r : MxRun} (h : x.mxSetup = some r) : r ∈ x.mx.runs := List.mem_of_find?_eq_some h

theorem mayCompute_iff {x : Context} {clk : Nat} {r : MxRun} :
    x.mayCompute clk r = true ↔ r.due ≤ clk ∧ ∀ v ∈ x.mx.runs, v.stage ≠ .compute := by
  simp [Context.mayCompute]

/-- A run that takes the place of its number is in the list. -/
theorem mem_setMxRun {x : Context} {r u : MxRun} (h : r ∈ x.mx.runs) (hn : u.num = r.num) : u ∈ (x.setMxRun u).mx.runs :=
  List.mem_map.mpr ⟨r, h, if_pos (beq_iff_eq.mpr hn.symm)⟩

/-! ## A command alone (R279, R287 to R290) -/

/-- The run of a command's result in compute. -/
def computing (u : MxRun) (due : Nat) : MxRun := { u with stage := .compute, due := due }

/-- The state after a command of no group has entered compute. -/
def entered (s : State) (c : CtxId) (j : Job) (r : MxRun) : State :=
  ({ s with free := s.free + 8192 }).modCtx c fun x => x.setMxRun (computing (s.mxResult c j r) (s.clk + r.clen * r.fold))

theorem exec_enters {s : State} {c : CtxId} {j : Job} {r : MxRun} (hj : (s.ctx c).job = some j) (hs : (s.ctx c).mxSetup = some r)
    (hm : (s.ctx c).mayCompute s.clk r = true) (hg : r.group = []) : exec (.mxEnterCompute c) s = .next (entered s c j r) := by
  show execMxEnterCompute c s = _
  simp only [execMxEnterCompute, hj, hs, hm, hg, Bool.not_true, Bool.false_eq_true, if_false, List.isEmpty_nil, if_true]
  rfl

theorem mulResult_num (x : Context) (clk : Nat) (j : Job) (r : MxRun) (f : MulForm) (op : Nat) (b : BSide) (free : Nat) :
    (mulResult x clk j r f op b free).num = r.num := by
  unfold mulResult
  dsimp only
  split <;> rfl

theorem mxResult_num (s : State) (c : CtxId) (j : Job) (r : MxRun) : (s.mxResult c j r).num = r.num := by
  unfold State.mxResult
  dsimp only
  split
  · exact mulResult_num _ _ _ _ _ _ _ _
  · exact mulResult_num _ _ _ _ _ _ _ _
  all_goals rfl

theorem entered_ctx (s : State) (c : CtxId) (j : Job) (r : MxRun) :
    (entered s c j r).ctx c = (s.ctx c).setMxRun (computing (s.mxResult c j r) (s.clk + r.clen * r.fold)) := modCtx_ctx _ _ _

theorem mxResult_multiply {s : State} {c : CtxId} {j : Job} {r : MxRun} {f : MulForm} {sparse : Bool} (h : r.i = multiply sparse f) :
    s.mxResult c j r = mulResult (s.ctx c) s.clk j r f (opOf sparse) (bSide (s.ctx c) s.clk j r f (opOf sparse)) s.free := by
  unfold State.mxResult
  rw [h]
  cases sparse <;> rfl

theorem drainClear_spec (j : Job) (r : MxRun) (f : DrainForm) : (f.clr = false → drainClear j r f = []) ∧
    (f.clr = true → drainClear j r f =
      placed (tileRange j f.acc (fwMode r.fmt)).1 (List.replicate (tileRange j f.acc (fwMode r.fmt)).2 0)) :=
  ⟨fun h => by simp [drainClear, h], fun h => by simp [drainClear, h]⟩

theorem matrixTileResults : MatrixTileResults := by
  intro s c j r hj hs hdue hfree hg
  have hput : ∀ {acc : Byte} {f32 : Bool} {v : List Nat × FlagSet} {val : Nat → Nat},
      s.mxResult c j r = { r with writes := placed (tileRange j acc f32).1 (tileBytes f32 v.1), flags := v.2 } →
      v.1 = (List.range 1024).map val → tileResult j (computing (s.mxResult c j r) (s.clk + r.clen * r.fold)) acc f32 val :=
    fun hres hv => tileResult_of_eq (congrArg MxRun.writes hres) hv
  refine ⟨_, computing (s.mxResult c j r) (s.clk + r.clen * r.fold), exec_enters hj hs (mayCompute_iff.mpr ⟨hdue, hfree⟩) hg,
    entered_ctx s c j r ▸ mem_setMxRun (mem_of_mxSetup hs) (mxResult_num s c j r), mxResult_num s c j r, rfl, rfl, rfl, ?_,
    fun acc kind tl hi => ?_, fun acc side tl hi => ?_, fun acc side tl hi => ?_, fun src acc kind tl hi => ?_, fun f hi hp => ?_,
    fun f hi hp => ?_, fun f sparse hi hmeta => ?_⟩
  · rw [entered_ctx]
    rfl
  · refine hput (v := (List.replicate 1024 0, 0)) (by unfold State.mxResult; rw [hi]) ?_
    rw [List.map_const', List.length_range]
  · exact hput (by unfold State.mxResult; rw [hi]) (hrotTile_int side r.acc0)
  · exact hput (by unfold State.mxResult; rw [hi]) (hrotTile_float side r.acc0)
  · exact hput (by unfold State.mxResult; rw [hi]) (accaddTile kind r.acc0 r.src0)
  · have hres : s.mxResult c j r = drainResult j r f := by unfold State.mxResult; rw [hi]
    exact ⟨_, (congrArg MxRun.writes hres).trans (drainResult_bytes j r f hp), drainClear_spec j r f⟩
  · have hres : s.mxResult c j r = drainResult j r f := by unfold State.mxResult; rw [hi]
    exact ⟨_, (congrArg MxRun.writes hres).trans (drainResult_planes j r f hp), drainClear_spec j r f⟩
  · rw [mxResult_multiply hi]
    exact product_mulResult rfl hmeta

/-! ## Refused operand reads (R279) -/

theorem crierOf_multiply {f : MulForm} (sparse : Bool) (h : f.bsel ≠ 0) : crierOf (multiply sparse f) = some (f, opOf sparse) := by
  cases sparse
  · exact if_neg h
  · exact if_neg h

theorem isMul_multiply (sparse : Bool) (f : MulForm) : isMul (multiply sparse f) = true := by cases sparse <;> rfl

/-- A table whose values were changed, each by its index. -/
theorem tabGet_map_key {α : Type} (d : α) (f : Nat → α → α) {t : Tab α} {i : Nat} (h : ∃ a, (i, a) ∈ t) :
    tabGet d (t.map fun p => (p.1, f p.1 p.2)) i = f i (tabGet d t i) := by
  induction t with
  | nil => simp at h
  | cons p r ih =>
    obtain ⟨j, u⟩ := p
    simp only [List.map_cons, tabGet]
    split
    next hj => rw [hj]
    next hj => exact ih (by obtain ⟨a, ha⟩ := h; exact ⟨a, by simpa [Ne.symm hj] using ha⟩)

/-- At the end of a clock a context's matrix engine meets the refused reads. -/
theorem refusePorts_ctx {s : State} {c : CtxId} (h : ∃ x, (c.val, x) ∈ s.ctxs) :
    s.refusePorts.ctx c = (s.ctx c).portStall s.clk c.val :=
  tabGet_map_key Context.reset (fun i x => x.portStall s.clk i) h

theorem portStall_eq {x : Context} {clk c : Nat} {r : MxRun} {f : MulForm} {sparse : Bool} (hr : x.mx.runs = [r]) (hst : r.stage = .compute)
    (hdue : clk < r.due) (hi : r.i = multiply sparse f) : x.portStall clk c =
      if (if r.group = [] then [c] else r.group).any (Config.portRefused clk) then
        { x with mx := { x.mx with runs := [{ r with due := r.due + 1 }], held := x.mx.held || !Config.portRefused clk c } }
      else x := by
  have hfind : x.mx.runs.find? (fun r => r.stage == .compute && decide (clk < r.due) && isMul r.i) = some r := by
    simp [hr, hst, hdue, hi, isMul_multiply]
  have hset : x.setMxRun { r with due := r.due + 1 } = { x with mx := { x.mx with runs := [{ r with due := r.due + 1 }] } } := by
    simp [Context.setMxRun, hr]
  simp only [Context.portStall, hfind, hset, List.isEmpty_iff]

theorem refusedReads (s : State) (c : CtxId) (r : MxRun) (f : MulForm) (sparse : Bool) (hx : ∃ x, (c.val, x) ∈ s.ctxs)
    (hr : (s.ctx c).mx.runs = [r]) (hst : r.stage = .compute) (hdue : s.clk < r.due) (hi : r.i = multiply sparse f) :
    let g := if r.group = [] then [c.val] else r.group
    ((∀ d ∈ g, Config.portRefused s.clk d = false) → s.refusePorts.ctx c = s.ctx c) ∧
    ((∃ d ∈ g, Config.portRefused s.clk d = true) → (s.refusePorts.ctx c).mx.runs = [{ r with due := r.due + 1 }] ∧
      (s.refusePorts.ctx c).pool = (s.ctx c).pool ∧
      (Config.portRefused s.clk c.val = false → (s.refusePorts.ctx c).mx.held = true)) := by
  intro g
  rw [refusePorts_ctx hx, portStall_eq hr hst hdue hi]
  refine ⟨fun hno => if_neg ?_, fun hsome => ?_⟩
  · rw [Bool.not_eq_true]
    exact List.any_eq_false.mpr fun d hd => by simp [hno d hd]
  · rw [if_pos (List.any_eq_true.mpr hsome)]
    exact ⟨rfl, rfl, fun hc => by simp [hc]⟩

/-! ## A crier group (R282, R283) -/

/-- A member of a group enters compute with B as the sender read it. -/
def groupStep (b : BSide) (len : Nat) (s : State) (m : CtxId × MxRun) : State :=
  match (s.ctx m.1).job, crierOf m.2.i with
  | some j, some f =>
    let r := mulResult (s.ctx m.1) s.clk j m.2 f.1 f.2 b s.free
    ({ s with free := s.free + 8192 }).modCtx m.1 fun x => (x.setMxRun { r with stage := .compute, due := s.clk + len }).mxFree
  | _, _ => s

/-- The clocks of a group's compute: the largest length times the largest F. -/
def groupFold (l : List (CtxId × MxRun)) : Nat := l.foldl (fun a m => Nat.max a m.2.fold) 1
def groupLen (l : List (CtxId × MxRun)) : Nat := l.foldl (fun a m => Nat.max a m.2.clen) 0

theorem groupCompute_eq {s : State} {l : List (CtxId × MxRun)} {snd : CtxId × MxRun} {js : Job} {fs : MulForm × Nat}
    (hf : l.find? (fun m => isSender m.2.i) = some snd) (hj : (s.ctx snd.1).job = some js) (hc : crierOf snd.2.i = some fs) :
    s.groupCompute l = l.foldl (groupStep (bSide (s.ctx snd.1) s.clk js snd.2 fs.1 fs.2) (groupLen l * groupFold l)) s := by
  simp only [State.groupCompute, hf, hj, hc]
  rfl

theorem groupStep_eq {b : BSide} {len : Nat} {s : State} {m : CtxId × MxRun} {j : Job} {f : MulForm × Nat} (hj : (s.ctx m.1).job = some j)
    (hc : crierOf m.2.i = some f) : groupStep b len s m = ({ s with free := s.free + 8192 }).modCtx m.1 fun x =>
      (x.setMxRun (computing (mulResult (s.ctx m.1) s.clk j m.2 f.1 f.2 b s.free) (s.clk + len))).mxFree := by
  simp only [groupStep, hj, hc]
  rfl

theorem groupStep_ne {b : BSide} {len : Nat} {s : State} {m : CtxId × MxRun} {d : CtxId} (h : d ≠ m.1) :
    (groupStep b len s m).ctx d = s.ctx d := by
  unfold groupStep
  split
  · exact State.ctx_setCtx_ne _ _ h
  · rfl

theorem groupStep_frame (b : BSide) (len : Nat) (s : State) (m : CtxId × MxRun) :
    (groupStep b len s m).clk = s.clk ∧ (groupStep b len s m).mem = s.mem := by
  unfold groupStep
  split <;> exact ⟨rfl, rfl⟩

theorem foldl_groupStep_frame (b : BSide) (len : Nat) (l : List (CtxId × MxRun)) (s : State) :
    (l.foldl (groupStep b len) s).clk = s.clk ∧ (l.foldl (groupStep b len) s).mem = s.mem ∧
      ∀ d, d ∉ l.map Prod.fst → (l.foldl (groupStep b len) s).ctx d = s.ctx d := by
  induction l generalizing s with
  | nil => exact ⟨rfl, rfl, fun _ _ => rfl⟩
  | cons m l ih =>
    obtain ⟨hclk, hmem, hctx⟩ := ih (groupStep b len s m)
    obtain ⟨hclk', hmem'⟩ := groupStep_frame b len s m
    refine ⟨hclk.trans hclk', hmem.trans hmem', fun d hd => ?_⟩
    rw [List.map_cons, List.mem_cons, not_or] at hd
    exact (hctx d hd.2).trans (groupStep_ne hd.1)

/-- Each member of a group of distinct contexts enters compute with its own A and the sender's B. -/
theorem foldl_groupStep_ctx {b : BSide} {len : Nat} {l : List (CtxId × MxRun)} {s : State} (hn : (l.map Prod.fst).Nodup)
    {m : CtxId × MxRun} (hm : m ∈ l) {j : Job} {f : MulForm × Nat} (hj : (s.ctx m.1).job = some j) (hc : crierOf m.2.i = some f) :
    ∃ free, (l.foldl (groupStep b len) s).ctx m.1 =
      ((s.ctx m.1).setMxRun (computing (mulResult (s.ctx m.1) s.clk j m.2 f.1 f.2 b free) (s.clk + len))).mxFree := by
  induction l generalizing s with
  | nil => simp at hm
  | cons a l ih =>
    rw [List.map_cons, List.nodup_cons] at hn
    rw [List.foldl_cons]
    rcases List.mem_cons.mp hm with rfl | hm
    · refine ⟨s.free, ?_⟩
      rw [(foldl_groupStep_frame b len l _).2.2 m.1 hn.1, groupStep_eq hj hc, modCtx_ctx]
      rfl
    · have hne : m.1 ≠ a.1 := fun h => hn.1 (h ▸ List.mem_map_of_mem hm)
      have hsame : (groupStep b len s a).ctx m.1 = s.ctx m.1 := groupStep_ne hne
      obtain ⟨free, hfree⟩ := ih hn.2 hm (s := groupStep b len s a) (hsame ▸ hj)
      exact ⟨free, by rw [hfree, hsame, (groupStep_frame b len s a).1]⟩

theorem foldl_max_spec (g : CtxId × MxRun → Nat) (l : List (CtxId × MxRun)) (a : Nat) :
    a ≤ l.foldl (fun a m => Nat.max a (g m)) a ∧ (∀ m ∈ l, g m ≤ l.foldl (fun a m => Nat.max a (g m)) a) ∧
      (l.foldl (fun a m => Nat.max a (g m)) a = a ∨ ∃ m ∈ l, g m = l.foldl (fun a m => Nat.max a (g m)) a) := by
  induction l generalizing a with
  | nil => exact ⟨le_rfl, by simp, .inl rfl⟩
  | cons m l ih =>
    obtain ⟨h1, h2, h3⟩ := ih (Nat.max a (g m))
    have ha : a ≤ Nat.max a (g m) := Nat.le_max_left _ _
    have hg : g m ≤ Nat.max a (g m) := Nat.le_max_right _ _
    rw [List.foldl_cons]
    refine ⟨ha.trans h1, List.forall_mem_cons.mpr ⟨hg.trans h1, h2⟩, ?_⟩
    rcases h3 with h3 | ⟨u, hu, hv⟩
    · rcases Nat.le_total a (g m) with h | h
      · exact .inr ⟨m, List.mem_cons_self, by rw [h3]; exact (Nat.max_eq_right h).symm⟩
      · exact .inl (h3.trans (Nat.max_eq_left h))
    · exact .inr ⟨u, List.mem_cons_of_mem _ hu, hv⟩

theorem exec_group {s : State} {c : CtxId} {j : Job} {r : MxRun} (hj : (s.ctx c).job = some j) (hs : (s.ctx c).mxSetup = some r)
    (hm : (s.ctx c).mayCompute s.clk r = true) (hg : r.group ≠ []) : exec (.mxEnterCompute c) s =
      if ((s.groupRuns r.group).length = r.group.length && (s.groupRuns r.group).all fun m => (s.ctx m.1).mayCompute s.clk m.2) then
        .next (s.groupCompute (s.groupRuns r.group)) else .next (s.mxHold c) := by
  have hne : r.group.isEmpty = false := by simpa using hg
  show execMxEnterCompute c s = _
  simp only [execMxEnterCompute, hj, hs, hm, hne, Bool.not_true, Bool.false_eq_true, if_false]

theorem mem_groupRuns {s : State} {g : List Nat} {m : CtxId × MxRun} (h : m ∈ s.groupRuns g) : m.2 ∈ (s.ctx m.1).mx.runs := by
  obtain ⟨d, -, hd⟩ := List.mem_filterMap.mp h
  obtain ⟨r, hr, rfl⟩ := Option.map_eq_some_iff.mp hd
  exact List.mem_of_find?_eq_some hr

theorem multiply_injective {sparse : Bool} {f g : MulForm} (h : multiply sparse f = multiply sparse g) : f = g := by
  cases sparse
  · exact Instr.mmul.inj h
  · exact Instr.mmuls.inj h

/-- A group that waits for a member counts a held clock (R283, log entry 105). -/
theorem group_waits {s : State} {c : CtxId} {j : Job} {r : MxRun} (hj : (s.ctx c).job = some j) (hs : (s.ctx c).mxSetup = some r)
    (hg : r.group ≠ []) (hm : (s.ctx c).mayCompute s.clk r = true)
    (hwait : (s.groupRuns r.group).length ≠ r.group.length ∨
      ∃ m ∈ s.groupRuns r.group, s.clk < m.2.due ∨ ∃ v ∈ (s.ctx m.1).mx.runs, v.stage = .compute) :
    ∃ t, exec (.mxEnterCompute c) s = .next t ∧ t.ctx c = { s.ctx c with mx := { (s.ctx c).mx with held := true } } ∧
      (∀ d, d ≠ c → t.ctx d = s.ctx d) ∧ t.mem = s.mem := by
  have hno : ((s.groupRuns r.group).length = r.group.length && (s.groupRuns r.group).all fun m => (s.ctx m.1).mayCompute s.clk m.2) =
      false := by
    rw [Bool.and_eq_false_iff]
    rcases hwait with hlen | ⟨m, hm, hlate⟩
    · exact .inl (decide_eq_false hlen)
    · refine .inr (List.all_eq_false.mpr ⟨m, hm, fun hmay => ?_⟩)
      obtain ⟨hdue, hfree⟩ := mayCompute_iff.mp hmay
      rcases hlate with hlt | ⟨v, hv, hst⟩
      · omega
      · exact hfree v hv hst
  refine ⟨s.mxHold c, ?_, modCtx_ctx _ _ _, fun d hd => State.ctx_setCtx_ne _ _ hd, rfl⟩
  rw [exec_group hj hs hm hg, hno]
  rfl

/-- A group whose members all may computes together. -/
theorem group_computes {s : State} {c : CtxId} {j : Job} {r : MxRun} {l : List (CtxId × MxRun)} (hj : (s.ctx c).job = some j)
    (hs : (s.ctx c).mxSetup = some r) (hg : r.group ≠ []) (hm : (s.ctx c).mayCompute s.clk r = true) (hl : l = s.groupRuns r.group)
    (snd : CtxId × MxRun) (js : Job) (fs : MulForm) (sp : Bool) (hlen : l.length = r.group.length) (hnodup : (l.map Prod.fst).Nodup)
    (hmem : ∀ m ∈ l, m.2.due ≤ s.clk ∧ (∀ v ∈ (s.ctx m.1).mx.runs, v.stage ≠ .compute) ∧ 1 ≤ m.2.fold ∧
      ∃ jm f, (s.ctx m.1).job = some jm ∧ m.2.i = multiply sp f ∧ f.bsel ≠ 0 ∧ f.kbm1 = fs.kbm1)
    (hsnd : l.filter (fun m => isSender m.2.i) = [snd]) (hjs : (s.ctx snd.1).job = some js) (his : snd.2.i = multiply sp fs)
    (hmeta : sp = true → metaOk s snd.1 fs) :
    ∃ t len fold, exec (.mxEnterCompute c) s = .next t ∧ t.mem = s.mem ∧
      (∀ m ∈ l, m.2.clen ≤ len ∧ m.2.fold ≤ fold) ∧ (∃ m ∈ l, m.2.clen = len) ∧ (∃ m ∈ l, m.2.fold = fold) ∧
      ∀ m ∈ l, (t.ctx m.1).pool = (s.ctx m.1).pool ∧ ∃ u ∈ (t.ctx m.1).mx.runs, u.num = m.2.num ∧ u.stage = .compute ∧
        u.due = s.clk + len * fold ∧
        ∀ jm f, (s.ctx m.1).job = some jm → m.2.i = multiply sp f → product s m.1 snd.1 jm js m.2 snd.2 u f fs sp := by
  have hin : snd ∈ l := (List.mem_filter.mp (hsnd ▸ List.mem_singleton_self snd)).1
  have hfind : l.find? (fun m => isSender m.2.i) = some snd := by rw [← List.head?_filter, hsnd]; rfl
  have hcs : crierOf snd.2.i = some (fs, opOf sp) := by
    obtain ⟨-, -, -, jm, f, -, hi, hb, -⟩ := hmem snd hin
    obtain rfl : f = fs := multiply_injective (hi.symm.trans his)
    rw [his, crierOf_multiply sp hb]
  have hmay : (l.length = r.group.length && l.all fun m => (s.ctx m.1).mayCompute s.clk m.2) = true := by
    rw [Bool.and_eq_true, decide_eq_true_eq, List.all_eq_true]
    exact ⟨hlen, fun m hml => mayCompute_iff.mpr ⟨(hmem m hml).1, (hmem m hml).2.1⟩⟩
  obtain ⟨-, hlenLe, hlenEq⟩ := foldl_max_spec (fun m => m.2.clen) l 0
  obtain ⟨hfoldOne, hfoldLe, hfoldEq⟩ := foldl_max_spec (fun m => m.2.fold) l 1
  have hx : exec (.mxEnterCompute c) s = .next (l.foldl
      (groupStep (bSide (s.ctx snd.1) s.clk js snd.2 fs (opOf sp)) (groupLen l * groupFold l)) s) := by
    rw [exec_group hj hs hm hg, ← hl, hmay, if_pos rfl, groupCompute_eq hfind hjs hcs]
  refine ⟨_, groupLen l, groupFold l, hx, (foldl_groupStep_frame _ _ _ _).2.1, fun m hml => ⟨hlenLe m hml, hfoldLe m hml⟩, ?_, ?_,
    fun m hml => ?_⟩
  · rcases hlenEq with h0 | h
    · exact ⟨snd, hin, (Nat.le_antisymm (hlenLe snd hin) (h0.le.trans (Nat.zero_le _)))⟩
    · exact h
  · rcases hfoldEq with h1 | h
    · obtain ⟨-, -, hone, -⟩ := hmem snd hin
      exact ⟨snd, hin, Nat.le_antisymm (hfoldLe snd hin) (h1.le.trans hone)⟩
    · exact h
  · obtain ⟨-, -, -, jm, f, hjm, hi, hb, hk⟩ := hmem m hml
    have hcm : crierOf m.2.i = some (f, opOf sp) := by rw [hi, crierOf_multiply sp hb]
    obtain ⟨free, hctx⟩ := foldl_groupStep_ctx (b := bSide (s.ctx snd.1) s.clk js snd.2 fs (opOf sp)) (len := groupLen l * groupFold l)
      hnodup hml hjm hcm
    refine ⟨by rw [hctx]; rfl, computing (mulResult (s.ctx m.1) s.clk jm m.2 f (opOf sp)
      (bSide (s.ctx snd.1) s.clk js snd.2 fs (opOf sp)) free) (s.clk + groupLen l * groupFold l), ?_, mulResult_num .., rfl, rfl,
      fun jm' f' hjm' hi' => ?_⟩
    · rw [hctx]
      exact mem_setMxRun (mem_groupRuns (hl ▸ hml)) (mulResult_num ..)
    · obtain rfl : jm = jm' := Option.some.inj (hjm.symm.trans hjm')
      obtain rfl : f = f' := multiply_injective (hi.symm.trans hi')
      exact product_mulResult hk hmeta

theorem groupsComputeTogether : GroupsComputeTogether := by
  refine ⟨refusedReads, fun s c j r l hj hs hg hl hdue hfree => ⟨fun hwait => ?_, fun snd js fs sp hlen hnodup hmem hsnd hjs his hmeta => ?_⟩⟩
  · exact group_waits hj hs hg (mayCompute_iff.mpr ⟨hdue, hfree⟩) (hl ▸ hwait)
  · exact group_computes hj hs hg (mayCompute_iff.mpr ⟨hdue, hfree⟩) hl snd js fs sp hlen hnodup hmem hsnd hjs his hmeta

/-- Settles O34: a run's result is formed as it enters compute, element by element; a group enters together with the sender's B. -/
theorem matrixResults : Obligations.MatrixResults := by
  unfold Obligations.MatrixResults
  exact ⟨matrixTileResults, drainElementsRoundOnce, groupsComputeTogether, accumulatorSums⟩

end Sys2Proof.Proofs
